-- ==== Sys2Proof/Word.lean ====
section
/-! DEFINITION. The word types of the model: registers are 32 bits wide (R7), HBM data words 64 bits (R316),
vector registers 256 bits (R206). -/

namespace Sys2Proof

/-- One register (R7). -/
abbrev Word := BitVec 32

/-- One byte of a memory. -/
abbrev Byte := BitVec 8

end Sys2Proof
end

