-- ==== Sys2Proof/Syntax.lean ====
section
/-! DEFINITION. The commands the block takes (spec/opcode_table.json), with their operands. What a command's operand
carries is what comes from outside the device or from the analogue world: a bus access, a received frame or flit, a
sensor sample, the outcome of a self-test, the erring bit positions of a stored word. -/

namespace Sys2Proof

/-- The three register requestors (R464). -/
inductive Requestor where
  | pcie0
  | pcie1
  | fw
  deriving DecidableEq, Repr

/-- Access width of a register read or write (R7). -/
inductive Width where
  | w8
  | w16
  | w32
  | w64
  deriving DecidableEq, Repr

/-- An engine of a cluster that has an input FIFO (R93, R117): a chorus unit by logical index, the vector unit, a data mover. -/
inductive Engine where
  | unit (u : Fin 12)
  | vec
  | mover (m : Fin 4)
  deriving DecidableEq, Repr

/-- A requestor of the banks of a cluster store (R85): a chorus unit's operands, its context restore, its readout and its
spill, by logical index; the clearing of R184; the vector unit; a data mover. -/
inductive BankClient where
  | chorus (u : Fin 12)
  | restore (u : Fin 12)
  | readout (u : Fin 12)
  | spill (u : Fin 12)
  | clear
  | vec
  | mover (m : Fin 4)
  deriving DecidableEq, Repr

/-- A request for one line of a cluster store that is pending in a cycle (R84, R85). -/
structure BankReq where
  client : BankClient
  line : Fin 49152
  write : Bool
  deriving DecidableEq, Repr

/-- The wipes of R325. -/
inductive WipeScope where
  | full
  | strike (v : Fin 256)
  deriving DecidableEq, Repr

/-- Flit types of R335. -/
inductive FlitType where
  | idle
  | data
  | nak
  | ctrl
  deriving DecidableEq, Repr

/-- A received flit as the link layer sees it (R335, R336): its header, its credit bytes, and whether its CRC holds. A CTRL
flit may carry the far end's new transmit map (R332, R341). -/
structure Flit where
  ty : FlitType
  fseq : BitVec 12
  fack : BitVec 12
  credit : List (BitVec 8)
  crcOk : Bool
  /-- the lane of each symbol FEC corrected, and whether it met a codeword it could not (R336) -/
  corrected : List (Fin 10)
  uncorrectable : Bool
  map : Option Word := none
  deriving DecidableEq, Repr

/-- An effect tag (R141, R348): function, queue, sequence number, task, expanded-descriptor index. -/
structure EffTag where
  fn : BitVec 8
  queue : BitVec 4
  seqNo : BitVec 64
  task : BitVec 12
  xidx : BitVec 32
  deriving DecidableEq, Repr

/-- A request or mirror transaction that reaches this node (R347, R348). -/
structure FabReq where
  src : Fin 16384
  dst : Fin 16384
  seqNo : BitVec 32
  epoch : BitVec 8
  attempt : BitVec 3
  fpid : BitVec 16
  off : BitVec 50
  /-- byte count minus one -/
  bytes : BitVec 8
  rid : BitVec 16
  spec : Bool
  poison : Bool
  tag : Option EffTag
  aopc : BitVec 4
  w64 : Bool
  data : List (BitVec 8)
  deriving DecidableEq, Repr

/-- The header of a response or NOTE that reaches this node (R348). -/
structure FabHdr where
  src : Fin 16384
  dst : Fin 16384
  off : BitVec 50 := 0
  fpid : BitVec 16 := 0
  attempt : BitVec 3 := 0
  deriving DecidableEq, Repr

/-- The STATUS of an ERR response (R348, R351). -/
inductive ErrStatus where
  | access
  | poison
  | nodeLost
  | busy
  deriving DecidableEq, Repr

/-- What a poll of an optical module reads (R367, R372). -/
structure ModuleObs where
  busOk : Bool
  state : BitVec 3
  txFault : BitVec 10
  rxLos : BitVec 10
  alarm : Bool
  temp : BitVec 16
  vcc : BitVec 16
  /-- per lane: transmit bias and received power (R372) -/
  lanes : List Word
  deriving DecidableEq, Repr

/-- The flags of a module as OPT_INT_N makes the device read them (R366, R367). -/
structure ModuleFlags where
  m : Fin 48
  alarm : Bool
  txFault : BitVec 10 := 0
  rxLos : BitVec 10 := 0
  deriving DecidableEq, Repr

/-- The PLDM monitoring sensors of R414. -/
inductive PldmSensor where
  | thermal (i : Fin 88)
  | tjMax
  | inputPower
  | chipScore
  | domainScore (d : Fin 26)
  | domainState (d : Fin 26)
  | linkState (l : Fin 48)
  | moduleLife (m : Fin 48)
  deriving DecidableEq, Repr

/-- The lever a timer step moves (R426 to R428). -/
inductive PowerLever where
  /-- lower the open ceiling of a quarter by one (R427 lever 2) -/
  | lower (q : Fin 4)
  /-- raise the open ceiling of a quarter by one (release, EDC recovery, R428) -/
  | raise (q : Fin 4)
  /-- start an operating-point step down (R427 lever 3) -/
  | opDown (q : Fin 4)
  /-- start an operating-point step up (release) -/
  | opUp (q : Fin 4)
  /-- defer maintenance (lever 4) -/
  | deferMaint
  /-- resume maintenance -/
  | resumeMaint
  /-- every lever at its limit and a limit of R425 still exceeded -/
  | exhausted
  deriving DecidableEq, Repr

/-- What the power manager darkens (R424). -/
inductive DarkUnit where
  | cluster (k : Fin 144)
  | dspGroup (g : Fin 34)
  | engine (k : Fin 168)
  deriving DecidableEq, Repr

/-- A firmware image's header as the ROM reads it (R442), and whether its signature verifies. -/
structure FwImage where
  sigOk : Bool
  slot : Fin 4
  version : Word
  svn : BitVec 6
  len : Nat
  deriving DecidableEq, Repr

/-- The TAP instructions of R472. -/
inductive TapIns where
  | bypass
  | idcode
  | samplePreload
  | extest
  | other (code : BitVec 16)
  deriving DecidableEq, Repr


/-- The commands of the block: one constructor per row of spec/opcode_table.json, in the table's order. An index operand is a `Fin`, so no command names a unit the device does not have. -/
inductive Instr where
  /-- REGISTER_WRITE (R10): A write to a register that has no row of its own stores, ignores or acts on the value according to the access type of the field. -/
  | registerWrite (req : Requestor) (width : Width) (addr : BitVec 28) (val : BitVec 64)
  /-- REGISTER_PAIR_LO_READ (R12): A read of a _LO register returns the low half and latches the high half into _HI. -/
  | registerPairLoRead (req : Requestor) (width : Width) (addr : BitVec 28)
  /-- REGISTER_PAIR_HI_WRITE (R12): A write to a writable _HI register commits the staged low half and the high half together. -/
  | registerPairHiWrite (req : Requestor) (addr : BitVec 28) (val : BitVec 32)
  /-- HOLE_ACCESS (R460): An access to a BAR0 address outside every page reads 0, ignores the write and raises source 0x0101. -/
  | holeAccess (req : Requestor) (write : Bool) (addr : BitVec 28) (val : BitVec 32)
  /-- BRING_IN_START (R24): The lowest-indexed spare in scope is lit, wiped and self-tested for the waiting retirement with the lowest physical index. -/
  | bringInStart (die : Fin 6)
  /-- BRING_IN_ATTEMPT_COMPLETE (R24): A spare's self-test ends; on a pass the spare takes the logical index, and on a failure the spare is retired and the next one is tried. -/
  | bringInAttemptComplete (die : Fin 6) (pass : Bool)
  /-- BRING_IN_RESUME_AFTER_RESET (R473): After a reset completes, every interrupted bring-in and every waiting retirement is served again from its start. -/
  | bringInResumeAfterReset
  /-- DMAP_SNAPSHOT_LATCH (R30): A write to DMAP_ADDR latches a new consistent snapshot of the in-service map and its digest. -/
  | dmapSnapshotLatch (val : BitVec 32)
  /-- DMAP_DATA_READ (R29): A read of DMAP_DATA returns the snapshot word and adds 4 to DMAP_ADDR. -/
  | dmapDataRead
  /-- HDR (R98): The HDR descriptor declares the stream's length, footprint, units and ad-lib use, and the Stage Manager checks it at submission. -/
  | hdr (sq : Fin 146)
  /-- DESCRIPTOR_DISPATCH (R93): The sequencer fetches, checks and expands the next descriptor and places it in every target FIFO once all of them have room. -/
  | descriptorDispatch (sq : Fin 146)
  /-- TOKEN_WAIT_SATISFIED (R97): A descriptor that waits on a token starts once the token reaches 1, and it decrements the token. -/
  | tokenWaitSatisfied (sq : Fin 146) (eng : Engine)
  /-- DESCRIPTOR_COMPLETE (R97): An engine descriptor completes all of its effects and increments its SIG token. -/
  | descriptorComplete (sq : Fin 146) (eng : Engine)
  /-- LOOP (R101): The LOOP descriptor loads counts and streams and runs its body over up to six levels. -/
  | loop (sq : Fin 146)
  /-- SETCNT (R103): SETCNT writes a count register from an immediate or a store word. -/
  | setcnt (sq : Fin 146)
  /-- BRK (R103): BRK ends a loop level and every level inside it when its condition holds. -/
  | brk (sq : Fin 146)
  /-- CALL (R110): CALL hands a Repertoire routine and its arguments to the stagehand call queue. -/
  | call (sq : Fin 146)
  /-- TOKEN (R95): TOKEN performs only its WAIT and SIG. -/
  | token (sq : Fin 146)
  /-- END (R97): END waits for every dispatched descriptor and every outstanding call, then ends the stream. -/
  | endStream (sq : Fin 146)
  /-- MMA (R104): MMA runs a matrix product on the named chorus units, with clear, readout and transpose flags. -/
  | mma (cl : Fin 144) (u : Fin 12)
  /-- MMA_QUAD (R74): MMA_QUAD runs four independent 16 x 16 quadrant products on each named unit. -/
  | mmaQuad (cl : Fin 144) (u : Fin 12)
  /-- VMAP (R106): VMAP applies a vector operation element by element. -/
  | vmap (cl : Fin 144) (residue : Option Nat) (others : List BankReq)
  /-- VRED (R106): VRED reduces elements by the fixed tree and adds the chunk results in ascending order. -/
  | vred (cl : Fin 144) (residue : Option Nat) (others : List BankReq)
  /-- VCVT (R106): VCVT converts elements to the format of the numeric control word, including block encoding. -/
  | vcvt (cl : Fin 144) (residue : Option Nat) (others : List BankReq)
  /-- GET (R108): GET moves rows from global memory to the cluster store, converting formats. -/
  | get (cl : Fin 144) (mv : Fin 4) (others : List BankReq)
  /-- PUT (R108): PUT moves rows from the cluster store to global memory, converting formats. -/
  | put (cl : Fin 144) (mv : Fin 4) (others : List BankReq)
  /-- ATOMIC (R108): ATOMIC applies AOPC at a global address and writes the old value to the cluster store. -/
  | atomic (cl : Fin 144) (mv : Fin 4) (others : List BankReq)
  /-- FENCE (R356): FENCE records the last SEQ sent to each destination concerned, sends FLUSH, and completes when every such destination has acknowledged. -/
  | fence (cl : Fin 144) (mv : Fin 4)
  /-- JOB (R109): JOB submits one radio accelerator job to the accelerator sequencer. -/
  | job (tile : Fin 2)
  /-- CALL_START (R113): A free stagehand thread takes the oldest call from the call queue and starts its routine. -/
  | callStart (th : Fin 224)
  /-- CALL_RETURN (R110): A routine writes its status and return value and increments the SIG token; a nonzero status on a SYNC call ends the task. -/
  | callReturn (th : Fin 224)
  /-- FILL (R111): Routine FILL fills memory with a 64-bit pattern. -/
  | fill (th : Fin 224)
  /-- COPY (R111): Routine COPY copies bytes as if through a buffer. -/
  | copy (th : Fin 224)
  /-- GATHER_ROWS (R111): Routine GATHER_ROWS gathers table rows by an index list. -/
  | gatherRows (th : Fin 224)
  /-- SCATTER_ROWS (R111): Routine SCATTER_ROWS scatters rows to a table, with the last index in list order winning. -/
  | scatterRows (th : Fin 224)
  /-- ALLREDUCE (R186): Routine ALLREDUCE reduces a buffer over a group, by the fixed tree or adaptively. -/
  | allreduce (th : Fin 224) (others : List (List (BitVec 32)))
  /-- REDUCE_SCATTER (R186): Routine REDUCE_SCATTER reduces a buffer over a group and gives each member its share. -/
  | reduceScatter (th : Fin 224) (others : List (List (BitVec 32)))
  /-- ALLGATHER (R111): Routine ALLGATHER concatenates the members' data in member order. -/
  | allgather (th : Fin 224) (others : List (List (BitVec 8)))
  /-- BROADCAST (R111): Routine BROADCAST copies a buffer from the root to every member. -/
  | broadcast (th : Fin 224) (data : List (BitVec 8))
  /-- ALLTOALL (R111): Routine ALLTOALL exchanges data between every pair of members in member order. -/
  | alltoall (th : Fin 224) (others : List (List (BitVec 8)))
  /-- BARRIER (R111): Routine BARRIER returns when every member of the group has called. -/
  | barrier (th : Fin 224)
  /-- DIGEST_REGION (R189): Routine DIGEST_REGION adds a region with a role to the task's playbill digest. -/
  | digestRegion (th : Fin 224)
  /-- SEM_ARRIVE (R111): Routine SEM_ARRIVE adds 1 to a semaphore word indivisibly and returns the old value. -/
  | semArrive (th : Fin 224)
  /-- TIME_READ (R111): Routine TIME_READ returns the current time of a time base or of the LTC. -/
  | timeRead (th : Fin 224)
  /-- MBOX_POST (R388): Routine MBOX_POST fills a mailbox slot of the task's own function and rings its doorbell. -/
  | mboxPost (th : Fin 224)
  /-- THREAD_WATCHDOG_EXPIRE (R114): A call running longer than TWD_MS is aborted and its task's attempt ends, with a re-run or WATCHDOG status. -/
  | threadWatchdogExpire (th : Fin 224)
  /-- HEARTBEAT_REFRESH (R115): Thread 0 of a stagehand refreshes its heartbeat. -/
  | heartbeatRefresh (core : Fin 32)
  /-- HEARTBEAT_MISSED (R115): A missed heartbeat resets the stagehand and aborts its calls, and a third miss within 60 minutes takes the stagehand out of service. -/
  | heartbeatMissed (core : Fin 32)
  /-- QUEUE_DOORBELL (R120): A Q_TAIL write stores the producer index, or is ignored and sets OVERRUN when it overruns the ring. -/
  | queueDoorbell (fn : Fin 256) (q : Fin 16) (tail : BitVec 32)
  /-- QUEUE_ENABLE_WRITE (R123): A change of Q_CTRL.EN starts or stops acceptance without cancelling accepted work. -/
  | queueEnableWrite (fn : Fin 256) (q : Fin 16) (val : BitVec 32)
  /-- ENTRY_ACCEPT (R131): The Stage Manager takes a queue entry, assigns its sequence number, journals an ACCEPT with a tail copy, advances Q_HEAD and checks the graph. -/
  | entryAccept (fn : Fin 256) (q : Fin 16) (tailOk : Bool)
  /-- COMPLETION_WRITE (R121): A queue completion record is written in sequence order once the completion ring has room, followed by the queue's MSI-X vector. -/
  | completionWrite (fn : Fin 256) (q : Fin 16)
  /-- CQ_HEAD_WRITE (R121): A CQ_HEAD write frees completion-ring room so that held completions can be written. -/
  | cqHeadWrite (fn : Fin 256) (q : Fin 16) (val : BitVec 32)
  /-- QUEUE_WATCHDOG_EXPIRE (R122): A stuck stretch reaching WDOG_MS sets WDOG and raises 0x3901, or 0x3801 for the PF, once per stretch. -/
  | queueWatchdogExpire (fn : Fin 256) (q : Fin 16)
  /-- TASK_PLACE (R134): A READY task is placed on a free unit in its grant, moves to CUED with a CUE record, and starts run-ahead or script clearing. -/
  | taskPlace (item : Nat) (task : Fin 4096)
  /-- TASK_FIRST_DISPATCH (R138): Once run-ahead and clearing are done, a CUED task dispatches its first descriptor and becomes PLAYING. -/
  | taskFirstDispatch (item : Nat) (task : Fin 4096)
  /-- TASK_COMPLETE (R138): A task ends, writes its result record and playbill, journals DONE and delivers dependence tokens. -/
  | taskComplete (item : Nat) (task : Fin 4096) (pbOk : Bool)
  /-- RETURNED_REPORT_WRITE (R151): After a cold reset, each item in the life-log tail is reported RETURNED to PF queue 0 once that queue is enabled. -/
  | returnedReportWrite
  /-- SM_CTRL_WRITE (R153): A write to SM_CTRL of any instance sets the same value in every instance. -/
  | smCtrlWrite (inst : Fin 6) (val : BitVec 32)
  /-- SCENE_BOUNDARY (R156): A 50 ns scene ends, every arbiter takes the next scene's owner, and period boundaries apply share changes. -/
  | sceneBoundary
  /-- LEAD_POINT (R162): At a run's lead point the run is claimed or lent, and preemption requests, overruns or cuts are decided. -/
  | leadPoint (lc : Fin 128) (maint : Bool)
  /-- RO_COMMIT (R161): A write of RO_CTRL.COMMIT requests that the inactive bank and PERIOD become active at the next period boundary. -/
  | roCommit (val : BitVec 32)
  /-- RO_COMMIT_APPLY (R161): At the period boundary the inactive bank is checked and switched in, or refused with COMMIT_ERR, and budgets are recomputed. -/
  | roCommitApply
  /-- RO_BANK_COPY_COMPLETE (R161): The new active bank has been copied into the inactive bank and COMMIT_PEND clears. -/
  | roBankCopyComplete
  /-- REALIGN_START (R157): After a step of RO_TB or a misaligned commit, idle scenes are inserted once the current period ends. -/
  | realignStart
  /-- REALIGN_END (R157): The insertion of idle scenes ends at the next aligned boundary and a new period begins. -/
  | realignEnd
  /-- RO_TBL_DATA_ACCESS (R174): An access to RO_TBL_DATA reads or writes four track entries of the inactive bank and adds 4 to SCENE. -/
  | roTblDataAccess (write : Bool) (val : BitVec 32)
  /-- RO_BIND_DATA_ACCESS (R174): An access to RO_BIND_DATA reads or writes one arbiter's track binding and adds 1 to the address. -/
  | roBindDataAccess (write : Bool) (val : BitVec 32)
  /-- ACCEL_JOB_START (R170): The accelerator sequencer starts a job on an engine when its engine time fits within the partition's current run. -/
  | accelJobStart (tile : Fin 2) (cls : Fin 6) (eng : Fin 32)
  /-- CURTAIN_PASSED (R171): A graph's curtain passes before RELEASE, so its tasks end CURTAIN_MISS and its ledger is refunded. -/
  | curtainPassed (item : Nat)
  /-- KSTEP_ISSUE (R71): A chorus unit uses a grant to issue a k-step, or a filler, reading its operands from the cluster-store banks. -/
  | kstepIssue (cl : Fin 144) (u : Fin 12) (others : List BankReq)
  /-- ACCUMULATOR_UPDATE (R71): A k-step's products reach the accumulator entries six cycles after issue, with residue checks. -/
  | accumulatorUpdate (cl : Fin 144) (u : Fin 12) (residue ecc : Option (Fin 33))
  /-- BANK_REQUEST_AGED (R85): A bank request refused for 16 consecutive cycles is aged for its next cycle. -/
  | bankRequestAged (cl : Fin 144) (client : BankClient)
  /-- FADE_STEP (R80): At the end of each 6-cycle phase a chorus unit's activity level moves one step toward its target. -/
  | fadeStep (cl : Fin 144) (u : Fin 12)
  /-- BEAT_END (R75): A beat ends at a tile end, the command end or its 512th cycle, and any preemption request lands there. -/
  | beatEnd (cl : Fin 144) (u : Fin 12)
  /-- TILE_READOUT (R73): A completed tile is read out one vector per cycle, converted and written to the cluster store. -/
  | tileReadout (cl : Fin 144) (u : Fin 12) (ecc : Option (Fin 33)) (others : List BankReq)
  /-- SPILL_COMPLETE (R77): The 192-cycle spill of a partial bank to the context slot ends and the context is held. -/
  | spillComplete (cl : Fin 144) (u : Fin 12) (ecc : Option (Fin 33)) (others : List BankReq)
  /-- RESTORE_COMPLETE (R77): The 192-cycle restore of a context into a bank ends, the slot empties and the task's first issue may proceed. -/
  | restoreComplete (cl : Fin 144) (u : Fin 12)
  /-- STREAM_RESUME (R117): A preempted stream is walked again from XIDX with its saved state, skipping descriptors already completed. -/
  | streamResume (cl : Fin 144)
  /-- CLUS_CNT_CLR_NUMERIC (R89): CNT_CLR bit 0 clears the cumulative numeric counters of the cluster. -/
  | clusCntClrNumeric (cl : Fin 144)
  /-- CLUS_CNT_CLR_ACTIVITY (R89): CNT_CLR bit 1 clears the issue, filler, beat, preemption, stall and collision counters. -/
  | clusCntClrActivity (cl : Fin 144)
  /-- CLUS_CNT_CLR_RESIDUE (R89): CNT_CLR bit 2 clears RESIDUE_ERR. -/
  | clusCntClrResidue (cl : Fin 144)
  /-- DSP_TASK_START (R226): The core clears both banks, loads the seed, SEQ and task index, and issues at ENTRY. -/
  | dspTaskStart (core : Fin 272)
  /-- NOP (R210): The NOP syllable has no effect. -/
  | nop (core : Fin 272) (slot : Fin 4)
  /-- CMAC (R219): CMAC adds lane-wise complex products to an accumulator. -/
  | cmac (core : Fin 272) (slot : Fin 4)
  /-- CMACJ (R219): CMACJ adds lane-wise products with the conjugate of Db. -/
  | cmacj (core : Fin 272) (slot : Fin 4)
  /-- CMACB (R210): CMACB adds the products of Da with one broadcast lane of Db. -/
  | cmacb (core : Fin 272) (slot : Fin 4)
  /-- ACCLR (R210): ACCLR clears an accumulator. -/
  | acclr (core : Fin 272) (slot : Fin 4)
  /-- CMUL (R210): CMUL writes rounded, saturated lane-wise complex products. -/
  | cmul (core : Fin 272) (slot : Fin 4)
  /-- RND (R218): RND rounds an accumulator convergently by SH and saturates it into a D register. -/
  | rnd (core : Fin 272) (slot : Fin 4)
  /-- VADD (R210): VADD adds with saturation. -/
  | vadd (core : Fin 272) (slot : Fin 4)
  /-- VSUB (R210): VSUB subtracts with saturation. -/
  | vsub (core : Fin 272) (slot : Fin 4)
  /-- VAND (R210): VAND is a bitwise AND over 256 bits. -/
  | vand (core : Fin 272) (slot : Fin 4)
  /-- VOR (R210): VOR is a bitwise OR over 256 bits. -/
  | vor (core : Fin 272) (slot : Fin 4)
  /-- VXOR (R210): VXOR is a bitwise XOR over 256 bits. -/
  | vxor (core : Fin 272) (slot : Fin 4)
  /-- VSHR (R210): VSHR shifts each part right arithmetically by SH. -/
  | vshr (core : Fin 272) (slot : Fin 4)
  /-- LD (R212): LD loads 32 bytes from X or Y memory, with address update by FORM. -/
  | ld (core : Fin 272) (slot : Fin 4)
  /-- ST (R216): ST stores 32 bytes to X or Y memory at the end of the next issue cycle. -/
  | st (core : Fin 272) (slot : Fin 4)
  /-- LDA (R212): LDA loads a P or M register from memory. -/
  | lda (core : Fin 272) (slot : Fin 4)
  /-- STA (R216): STA stores a P or M register to memory. -/
  | sta (core : Fin 272) (slot : Fin 4)
  /-- ADDA (R210): ADDA sets Pd or Md to Pa plus an immediate. -/
  | adda (core : Fin 272) (slot : Fin 4)
  /-- MOVAL (R210): MOVAL sets the low half of Pd or Md. -/
  | moval (core : Fin 272) (slot : Fin 4)
  /-- MOVAH (R210): MOVAH sets the high half of Pd or Md. -/
  | movah (core : Fin 272) (slot : Fin 4)
  /-- DSP_LOOP (R220): LOOP enters the next hardware loop level with count LCd. -/
  | dspLoop (core : Fin 272)
  /-- LOOPI (R220): LOOPI sets LCd from an immediate and enters the next loop level. -/
  | loopi (core : Fin 272)
  /-- MOVL (R210): MOVL sets a loop count register for the next entry of its level. -/
  | movl (core : Fin 272)
  /-- BRKL (R221): BRKL ends a loop level and those inside it when its condition holds. -/
  | brkl (core : Fin 272)
  /-- BR (R221): BR branches when its condition holds, at a cost of 2 stall cycles. -/
  | br (core : Fin 272)
  /-- DSP_CALL (R221): CALL saves the return address in P15 and branches. -/
  | dspCall (core : Fin 272)
  /-- RET (R221): RET branches to P15. -/
  | ret (core : Fin 272)
  /-- RTI (R224): RTI switches back to bank FG and continues at IRA. -/
  | rti (core : Fin 272)
  /-- TRET (R226): TRET ends the DSP task OK once the issued results and stores complete. -/
  | tret (core : Fin 272)
  /-- MOVB (R228): MOVB queues a block-mover descriptor, stalling while the queue is full. -/
  | movb (core : Fin 272)
  /-- SIGNAL (R210): SIGNAL raises IRQ3 on another core of the partition. -/
  | signal (core : Fin 272)
  /-- SETIM (R223): SETIM sets the interrupt mask. -/
  | setim (core : Fin 272)
  /-- DSP_RESULT_WRITE (R214): A syllable's result is written to its tagged bank at the end of issue cycle n + L - 1, with WAW collisions resolved. -/
  | dspResultWrite (core : Fin 272)
  /-- HZ_TRAP_RESUME (R217): Writing 1 to HZ_TRAP while HALTED resumes the core and issues the trapped bundle. -/
  | hzTrapResume (core : Fin 272)
  /-- DSP_TIMER_COMPARE (R222): The time base reaching TCMP raises interrupt line 0. -/
  | dspTimerCompare (core : Fin 272)
  /-- DSP_SOFT_IRQ_SET (R222): A W1S write to IRQ_PEND raises software lines 5 to 7. -/
  | dspSoftIrqSet (core : Fin 272) (val : BitVec 32)
  /-- INTERRUPT_ACCEPT (R223): At a bundle boundary in bank FG the highest unmasked pending line is accepted and the core switches to bank SH. -/
  | interruptAccept (core : Fin 272)
  /-- DSP_STOP (R227): STOP halts issue, completes issued work and the current mover descriptor, and ends the task. -/
  | dspStop (core : Fin 272)
  /-- DSP_MEMORY_ERROR (R227): An uncorrectable X, Y or program-memory error raises 0x2802 or 0x2803 and ends the attempt. -/
  | dspMemoryError (core : Fin 272) (mem : Fin 3) (off : BitVec 17) (flips : List (Fin 72))
  /-- BLOCK_MOVER_START (R228): The block mover starts the next queued descriptor. -/
  | blockMoverStart (core : Fin 272)
  /-- BLOCK_MOVER_COMPLETE (R228): A block-mover copy finishes, writes its done word and optionally raises line 1. -/
  | blockMoverComplete (core : Fin 272)
  /-- PMEM_DATA_ACCESS (R229): An access to PMEM_DATA reads or writes a program-memory word and adds 4 to the address. -/
  | pmemDataAccess (core : Fin 272) (write : Bool) (val : BitVec 32)
  /-- DSP_CNT_CLR (R229): CNT_CLR bit 0 clears the RDSP counters. -/
  | dspCntClr (core : Fin 272) (val : BitVec 32)
  /-- FFT_JOB (R241): An FFT engine computes forward or inverse DFTs with fixed or block-floating scaling. -/
  | fftJob (tile : Fin 2) (eng : Fin 24)
  /-- LDPC_DECODE_JOB (R244): An LDPC decoder descrambles, de-rate-matches, combines HARQ and decodes code blocks. -/
  | ldpcDecodeJob (tile : Fin 2) (eng : Fin 32)
  /-- LDPC_ENCODE_JOB (R245): An LDPC encoder attaches CRCs, encodes, rate matches, scrambles and optionally modulates. -/
  | ldpcEncodeJob (tile : Fin 2) (eng : Fin 16)
  /-- POLAR_ENCODE_JOB (R246): A polar codec encodes DCI, PBCH or UCI blocks. -/
  | polarEncodeJob (tile : Fin 2) (eng : Fin 8)
  /-- POLAR_DECODE_JOB (R246): A polar codec decodes by CRC-aided successive-cancellation list decoding. -/
  | polarDecodeJob (tile : Fin 2) (eng : Fin 8)
  /-- CRC_APPEND (R247): CRC mode CRC_APPEND writes each item followed by its CRC. -/
  | crcAppend (tile : Fin 2) (eng : Fin 8)
  /-- CRC_CHECK (R247): CRC mode CRC_CHECK writes one pass byte per item. -/
  | crcCheck (tile : Fin 2) (eng : Fin 8)
  /-- SCR_BITS (R247): Mode SCR_BITS XORs bits with the Gold sequence. -/
  | scrBits (tile : Fin 2) (eng : Fin 8)
  /-- SCR_LLR (R247): Mode SCR_LLR negates LLRs where the Gold sequence is 1. -/
  | scrLlr (tile : Fin 2) (eng : Fin 8)
  /-- SEQ (R248): Mode SEQ writes the Gold sequence itself. -/
  | seq (tile : Fin 2) (eng : Fin 8)
  /-- CHIRP_JOB (R253): A chirp bank takes a block of samples into its channels, resetting them on a sample gap. -/
  | chirpJob (tile : Fin 2) (bank : Fin 4)
  /-- ACCEL_JOB_COMPLETE (R236): An engine writes the job's status record after its output and increments the JOB's SIG token. -/
  | accelJobComplete (tile : Fin 2) (cls : Fin 6) (eng : Fin 32) (cycles : BitVec 32)
  /-- ACCEL_ENGINE_ERROR (R238): An uncorrectable buffer error or residue mismatch ends the task's attempt with no status written. -/
  | accelEngineError (tile : Fin 2) (cls : Fin 6) (eng : Fin 32) (residue : Bool) (flips : List (Fin 72))
  /-- CHIRP_WINDOW_END (R255): A symbol window of one channel is dechirped and evaluated for detection, sync, header, pilots and payload. -/
  | chirpWindowEnd (tile : Fin 2) (bank : Fin 4) (ch : Fin 128)
  /-- CHIRP_SYNC_TIMEOUT (R256): No sync within SYNC_WAIT windows ends the reception as a false detection or an overlap loss. -/
  | chirpSyncTimeout (tile : Fin 2) (bank : Fin 4) (ch : Fin 128)
  /-- CHIRP_CANDIDATE_EXPIRE (R257): A watch candidate expires SYNC_WAIT windows after its detection and is counted as a loss. -/
  | chirpCandidateExpire (tile : Fin 2) (bank : Fin 4) (ch : Fin 128)
  /-- CH_CFG_WRITE (R265): A CH_CFG write takes effect at the channel's next window and abandons its reception. -/
  | chCfgWrite (tile : Fin 2) (bank : Fin 4) (ch : Fin 128) (val : BitVec 32)
  /-- ACCEL_CNT_CLR_JOBS (R264): CNT_CLR bit 0 clears the job counters of an accelerator page. -/
  | accelCntClrJobs (tile : Fin 2) (kind : Fin 4)
  /-- ACCEL_CNT_CLR_BANKS (R264): CNT_CLR bit 1 clears the chirp bank counters. -/
  | accelCntClrBanks (tile : Fin 2)
  /-- FRAME_RECEIVE (R270): A received frame is checked, timestamped, classified, policed and decompressed, or dropped and counted. -/
  | frameReceive (port : Fin 16) (sp : Fin 4) (frame : List (BitVec 8)) (fcsOk : Bool) (fecCorr fecBad : BitVec 8)
  /-- RX_FRAME_DELIVER (R279): A buffered frame is written to its receive queue in its partition's scenes, with a record and an optional interrupt. -/
  | rxFrameDeliver (port : Fin 16)
  /-- PTP_FRAME_RECEIVE (R304): A PTP frame bypasses classification and is written with its timestamps to the PTP receive ring. -/
  | ptpFrameReceive (port : Fin 16) (sp : Fin 4) (frame : List (BitVec 8))
  /-- CLASS_ENTRY_COMMIT (R276): A write to word 0 of a classification entry commits all four words together. -/
  | classEntryCommit (port : Fin 16) (entry : Fin 128) (val : BitVec 32)
  /-- METER_CONFIG_WRITE (R278): A write to a meter's registers changes its configuration and refills its buckets. -/
  | meterConfigWrite (port : Fin 16) (meter : Fin 64) (reg : Fin 5) (val : BitVec 32)
  /-- ETH_MODE_WRITE (R269): A MODE write accepted while no sub-port is enabled splits the port and retrains the lanes. -/
  | ethModeWrite (port : Fin 16) (val : BitVec 32)
  /-- ETH_LINK_LOST (R289): A sub-port loses its link and raises 0x3001. -/
  | ethLinkLost (port : Fin 16) (sp : Fin 4)
  /-- TXQ_DOORBELL (R281): A TXQ_TAIL write posts transmit descriptors to a queue. -/
  | txqDoorbell (port : Fin 16) (q : Fin 32) (val : BitVec 32)
  /-- TX_FRAME_FETCH (R285): A frame is fetched LEAD_US before its window, or at the head of its queue. -/
  | txFrameFetch (port : Fin 16) (q : Fin 32)
  /-- TX_FRAME_START (R284): A free sub-port starts the first eligible head frame, compressing it, or ends it LATE. -/
  | txFrameStart (port : Fin 16) (sp : Fin 4)
  /-- TX_FRAME_COMPLETE (R281): A departed frame has STATUS and T_TX written, the shaper updated and TXQ_HEAD advanced. -/
  | txFrameComplete (port : Fin 16) (sp : Fin 4)
  /-- TB_INC_COMMIT (R292): A TB_INC_HI write commits a base's increment word, or it is refused with 0x0303. -/
  | tbIncCommit (req : Requestor) (b : Fin 8) (val : BitVec 32)
  /-- TB_STEP (R294): TB_CMD.STEP requests that TB_ADJ be added to the base at the apply tick. -/
  | tbStep (b : Fin 8)
  /-- TB_SET (R294): TB_CMD.SET requests that the base be loaded at the apply tick, or it is refused. -/
  | tbSet (b : Fin 8) (alsoStep : Bool)
  /-- LTC_SET (R298): An LTC_SET write loads the legacy counter at the apply tick. -/
  | ltcSet (val : BitVec 32)
  /-- TIME_APPLY_TICK (R295): 64 ticks after a command it applies the increment, the step or set and the LTC load, and re-places the pulse outputs. -/
  | timeApplyTick
  /-- TB_NS_READ (R296): A TB_NS read returns NS and latches SEC and FRAC. -/
  | tbNsRead (b : Fin 8)
  /-- LTC_NS_READ (R298): An LTC_NS read latches the fraction into LTC_FRAC. -/
  | ltcNsRead
  /-- TIME_STATE_CHECK (R299): Every 1,024 ticks the master broadcasts a state CRC, and differing copies are reloaded. -/
  | timeStateCheck (die : Fin 6) (flips : List (Fin 1216))
  /-- TPO_PULSE_START (R301): A base reaching the next time drives the pulse output active and advances or disarms it. -/
  | tpoPulseStart (n : Fin 16)
  /-- TPO_PULSE_END (R301): A pulse ends after WIDTH ns. -/
  | tpoPulseEnd (n : Fin 16)
  /-- TCI_EDGE (R303): A capture edge latches base time, LTC and polarity into the FIFO, or is missed or dropped. -/
  | tciEdge (n : Fin 8) (rising : Bool)
  /-- TCI_NS_READ (R303): A TCI_NS read returns the head NS, latches its other fields and removes the head. -/
  | tciNsRead (n : Fin 8)
  /-- TXTS_INFO_READ (R306): A TXTS_INFO read returns the head of the two-step FIFO, latches its times and removes it. -/
  | txtsInfoRead
  /-- HBM_READ (R317): An HBM read returns data as stored, corrected or poisoned, with counters and sources. -/
  | hbmRead (line : BitVec 34) (spec retried : Bool) (flips : List (Fin 576))
  /-- HBM_WRITE (R319): A whole-line write stores data and clears poison. -/
  | hbmWrite (line : BitVec 34) (data : BitVec 512) (poison : Bool)
  /-- HBM_PARTIAL_WRITE (R476): A partial write reads, checks and merges the word, or is refused on poison. -/
  | hbmPartialWrite (line : BitVec 34) (first : Fin 64) (data : List (BitVec 8))
  /-- CORRECTED_WRITE_BACK (R318): The corrected line is written back unless a newer write arrived. -/
  | correctedWriteBack (line : BitVec 34)
  /-- HBM_SCRUB_READ (R320): The patrol scrub reads the next line of the channel and corrects or poisons it. -/
  | hbmScrubRead (ch : Fin 256) (flips : List (Fin 576))
  /-- CS_SCRUB_READ (R321): The cluster-store scrub reads a line in an unused bank cycle. -/
  | csScrubRead (cl : Fin 144) (flips : List (Fin 576))
  /-- ROW_REPAIR_PPR (R322): In a maintenance or idle scene the controller issues post-package repair, rewrites and verifies the row. -/
  | rowRepairPpr (ch : Fin 256)
  /-- ROW_REPAIR_COMPLETE (R322): A repair succeeds and is logged, or fails with 0x1805. -/
  | rowRepairComplete (ch : Fin 256) (ok : Bool)
  /-- WIPE_START (R325): A wipe begins writing zero data with valid check bits over its scope. -/
  | wipeStart (scope : WipeScope)
  /-- WIPE_COMPLETE (R325): A wipe ends. -/
  | wipeComplete (scope : WipeScope)
  /-- WIPE_TIMEOUT (R325): A full wipe not complete within 100 ms raises 0x1901. -/
  | wipeTimeout
  /-- XL_TRANSLATE (R327): An XL_ADDR_HI write translates an offset to its channel and LA. -/
  | xlTranslate (req : Requestor) (val : BitVec 32)
  /-- HBMC_CNT_CLR (R328): CNT_CLR bit 0 clears the channel counters. -/
  | hbmcCntClr (ch : Fin 256) (val : BitVec 32)
  /-- HBM_TEMP_POLL (R329): Every 1 ms the stack temperature is read into HC_STATE.TEMP. -/
  | hbmTempPoll (stack : Fin 8) (temp : BitVec 8)
  /-- LINK_ENABLE (R334): GL_CTRL.EN set to 1 moves a disabled link to DETECT. -/
  | linkEnable (l : Fin 48)
  /-- LINK_DISABLE (R334): GL_CTRL.EN set to 0 moves the link to DISABLED. -/
  | linkDisable (l : Fin 48)
  /-- LINK_FAR_END_DETECTED (R334): The far end is seen on at least 5 lanes and the link enters TRAIN. -/
  | linkFarEndDetected (l : Fin 48) (lanes : BitVec 10)
  /-- LINK_TRAIN_COMPLETE (R334): At least 5 lanes train and the link enters CONFIG. -/
  | linkTrainComplete (l : Fin 48) (lanes : BitVec 10)
  /-- LINK_TRAIN_TIMEOUT (R334): Training not done in 50 ms returns the link to DETECT. -/
  | linkTrainTimeout (l : Fin 48)
  /-- LINK_CONFIG_COMPLETE (R334): Configuration exchange ends and the link enters ACTIVE. -/
  | linkConfigComplete (l : Fin 48) (peerNode : Fin 16384) (peerLink : Fin 48) (peerLr : Bool) (peerMap : BitVec 32)
  /-- LINK_RETRAIN_COMPLETE (R334): Retraining ends within 100 µs and the link returns to ACTIVE. -/
  | linkRetrainComplete (l : Fin 48) (lanes : BitVec 10)
  /-- LINK_RETRAIN_TIMEOUT (R334): Retraining beyond 100 µs takes the link DOWN. -/
  | linkRetrainTimeout (l : Fin 48)
  /-- LINK_FAR_END_LOST (R334): Loss of the far end takes the link DOWN and adds penalty. -/
  | linkFarEndLost (l : Fin 48)
  /-- LINK_DOWN_TIMEOUT (R334): 1 ms after DOWN the undamped link returns to DETECT. -/
  | linkDownTimeout (l : Fin 48)
  /-- LINK_DAMP_RELEASE (R344): A damped link whose penalty decays below 750 returns to DETECT. -/
  | linkDampRelease (l : Fin 48)
  /-- GL_RETRAIN (R370): GL_CTRL.RETRAIN moves the link into RETRAIN. -/
  | glRetrain (l : Fin 48)
  /-- GL_UNDAMP (R370): GL_CTRL.UNDAMP clears link and lane penalties and releases a damped link. -/
  | glUndamp (l : Fin 48)
  /-- GL_FORCE (R342): GL_CTRL.FORCE spares FORCE_LANE. -/
  | glForce (l : Fin 48) (lane : Fin 16)
  /-- GL_RETURN (R343): GL_CTRL.RETURN returns retired lanes at the next retrain. -/
  | glReturn (l : Fin 48)
  /-- GL_CNT_CLR (R369): CNT_CLR bit 0 clears the link and lane counters. -/
  | glCntClr (l : Fin 48) (val : BitVec 32)
  /-- FLIT_RECEIVE (R338): A flit is accepted in sequence with its credits, or discarded with a NAK. -/
  | flitReceive (l : Fin 48) (flit : Flit)
  /-- NAK_RECEIVE (R338): A NAK makes the transmitter replay from FACK + 1, and repeated replays enter RETRAIN. -/
  | nakReceive (l : Fin 48) (fack : BitVec 12)
  /-- LANE_LOCK_LOST (R344): A lane loses lock, adding penalty to it and sparing it at 3,000. -/
  | laneLockLost (l : Fin 48) (lane : Fin 10)
  /-- LANE_HARD_FAIL (R341): A lane without lock for 10 µs, or reported faulty by its module, is spared or degrades the link. -/
  | laneHardFail (l : Fin 48) (lane : Fin 10)
  /-- RD (R347): A fabric read request is applied in SEQ order and answered with RDRSP or ERR. -/
  | rd (r : FabReq)
  /-- WR (R349): A fabric write request is applied in SEQ order, including mailbox writes. -/
  | wr (r : FabReq)
  /-- ATOM (R350): A fabric atomic is applied indivisibly at the word's HBM channel. -/
  | atom (r : FabReq)
  /-- FLUSH (R356): A FLUSH is answered with an ACK once every SEQ up to THRU has been applied. -/
  | flush (r : FabReq)
  /-- TAGREL (R359): TAGREL frees the effect-tag records of an item. -/
  | tagrel (r : FabReq)
  /-- MIRW (R362): A mirror write is applied to the understudy's copy of the shard. -/
  | mirw (r : FabReq)
  /-- MIRC (R362): A mirrored prompt-book record, tag record or digest is applied at the understudy. -/
  | mirc (r : FabReq)
  /-- RDRSP (R347): Read data returns and is matched by RID. -/
  | rdrsp (h : FabHdr) (rid : BitVec 16) (poison : Bool) (data : List (BitVec 8))
  /-- ACK (R354): A cumulative acknowledgement completes requests up to SEQ of its epoch. -/
  | ack (h : FabHdr) (seqNo : BitVec 32) (epoch : BitVec 8)
  /-- ATRSP (R347): The old value of an atomic returns. -/
  | atrsp (h : FabHdr) (rid : BitVec 16) (old : BitVec 64)
  /-- ERR (R351): An error response ends the issuing operation, or schedules a retry on BUSY. -/
  | err (h : FabHdr) (rid : BitVec 16) (seqNo : BitVec 32) (status : ErrStatus)
  /-- BUSY_RETRY (R351): 1 µs after a BUSY response the request is re-sent. -/
  | busyRetry (dst : Fin 16384) (seqNo : BitVec 32)
  /-- ACK_TIMER (R354): 200 ns after the first unacknowledged apply the destination sends a cumulative ACK. -/
  | ackTimer (src : Fin 16384)
  /-- E2E_RETRANSMIT (R355): A request unacknowledged for E2E_TO_US is re-sent with ATTEMPT incremented. -/
  | e2eRetransmit (dst : Fin 16384) (seqNo : BitVec 32)
  /-- UNREACHABLE_TIMEOUT (R357): A destination unreachable for 100 µs is declared lost. -/
  | unreachableTimeout (dst : Fin 16384)
  /-- REVIVE (R357): A REVIVE write clears a node from the lost map and starts a new epoch. -/
  | revive (node : Fin 16384)
  /-- ROUTE_ENTRY_COMMIT (R371): An RT_DATA_HI write commits a route entry and advances RT_ADDR. -/
  | routeEntryCommit (req : Requestor) (val : BitVec 32)
  /-- LOST_DATA_READ (R371): A LOST_DATA read returns a word of the lost map and advances LOST_ADDR. -/
  | lostDataRead
  /-- GROUP_COMMIT (R361): A GRP_LIST_HI write copies and checks a group's member list. -/
  | groupCommit (req : Requestor) (g : Fin 64) (val : BitVec 32)
  /-- FABRIC_CNT_CLR (R371): CNT_CLR bit 0 clears the fabric counters. -/
  | fabricCntClr (val : BitVec 32)
  /-- MIRROR_HEARTBEAT (R364): Every 10 µs each end of a pairing sends a heartbeat NOTE. With a header, a NOTE with nothing
  to answer arrives: the other end's heartbeat, or one that this node forwards. -/
  | mirrorHeartbeat (h : Option FabHdr)
  /-- LEAD_SUSPECT (R364): Silence from the lead for MIR_LOSS_US makes the understudy query its witnesses. -/
  | leadSuspect
  /-- WITNESS_QUERY (R364): A witness answers whether it heard from the lead within MIR_LOSS_US. -/
  | witnessQuery (asker : Fin 16384) (lead : Fin 16384)
  /-- WITNESS_ANSWER (R364): The witness answers decide whether the lead is lost or the pairing is broken. -/
  | witnessAnswer (w : Fin 2) (heard : Bool)
  /-- TAKEOVER_NOTICE (R365): A node applies a takeover notice once, forwards it, reroutes and re-sends in a new epoch. -/
  | takeoverNotice (l : Option (Fin 48)) (lead : Fin 16384) (und : Fin 16384)
  /-- MODULE_INSERT (R367): Module insertion reads its identity and raises 0x4001. -/
  | moduleInsert (m : Fin 48) (ident : List (BitVec 32))
  /-- MODULE_REMOVE (R367): Module removal raises 0x4001 and takes the link DOWN. -/
  | moduleRemove (m : Fin 48)
  /-- MODULE_POLL (R367): Every POLL the module state, flags and monitors are read. -/
  | modulePoll (m : Fin 48) (obs : ModuleObs)
  /-- OPT_INT_ASSERT (R366): OPT_INT_N low makes the device read the flags of every present module. -/
  | optIntAssert (flags : List ModuleFlags)
  /-- UND_START (R196): UND_CTRL.START begins a pairing in SYNCING. -/
  | undStart
  /-- UND_END (R196): UND_CTRL.END returns STATE to NONE. -/
  | undEnd
  /-- UND_GO_ON (R200): UND_CTRL.GO_ON makes the understudy go on, or abandon the shard when the mirror is not current. -/
  | undGoOn
  /-- UND_SYNC_COMPLETE (R196): The last page and prompt-book record of the shard are acknowledged and STATE becomes MIRRORING. -/
  | undSyncComplete
  /-- UND_DIGEST_COMPARE (R198): The understudy compares a lead digest with its own, counting a match or breaking on a mismatch. -/
  | undDigestCompare (seqNo : BitVec 64) (task : Fin 4096)
  /-- UND_LEAD_LOST (R200): The fabric reports the lead lost and the understudy goes on or abandons. -/
  | undLeadLost
  /-- SET (R382): VF_CMD SET moves a DARK VF to SETTING, or is held pending while it is STRIKING. -/
  | set
  /-- GO (R382): VF_CMD GO moves a checked SETTING VF to LIVE. -/
  | go
  /-- STRIKE (R383): VF_CMD STRIKE begins a strike: doorbells are ignored, mailboxes emptied and items returned. -/
  | strike
  /-- FREEZE (R389): VF_CMD FREEZE begins quiescing a LIVE VF, or is refused when it holds a partition. -/
  | freeze
  /-- THAW (R389): VF_CMD THAW resumes acceptance from the stored tail. -/
  | thaw
  /-- SAVE (R390): VF_CMD SAVE writes the VF's intermission image. -/
  | save
  /-- RESTORE (R391): VF_CMD RESTORE checks an image and restores it, entering INTERMISSION. -/
  | restore
  /-- VF_FLR (R378): A Function Level Reset of a VF strikes it. -/
  | vfFlr (v : Fin 256)
  /-- PF_FLR (R378): An FLR of the PF strikes every VF, returns PF items and resets its queues. -/
  | pfFlr
  /-- VF_ENABLE_CLEAR (R378): Clearing VF Enable strikes every VF that is not DARK. -/
  | vfEnableClear
  /-- FREEZE_QUIET (R389): A freezing VF becomes quiet and enters INTERMISSION. -/
  | freezeQuiet (v : Fin 256)
  /-- STRIKE_QUIESCED (R383): Strike quiescence ends and the wipe starts. -/
  | strikeQuiesced (v : Fin 256)
  /-- STRIKE_COMPLETE (R383): The strike wipe ends, grants return, the generation increments and the VF becomes DARK or SETTING. -/
  | strikeComplete (v : Fin 256)
  /-- EXT_DATA_ACCESS (R392): An EXT_DATA access reads or grants an extent and advances EXT_ADDR. -/
  | extDataAccess (write : Bool) (val : BitVec 32)
  /-- MB_TM_DOORBELL (R387): A tenant's TM doorbell sets PEND and signals the manager, or sets OVR. -/
  | mbTmDoorbell (v : Fin 256) (count : BitVec 8)
  /-- MB_TT_DOORBELL (R387): The manager's TT doorbell sets PEND and signals the tenant, or sets OVR. -/
  | mbTtDoorbell (count : BitVec 8)
  /-- MB_PEND_CLEAR (R387): The reader writes 1 to clear PEND and free the slot. -/
  | mbPendClear (v : Fin 256) (byManager : Bool)
  /-- PCIE_LINK_DOWN (R395): A PCIe port's link goes down and raises 0x3802. -/
  | pcieLinkDown (p : Fin 2)
  /-- PERST_RELEASE (R436): A PERSTn_N rise resets only that port's link and configuration space after READY. -/
  | perstRelease (p : Fin 2)
  /-- ATS_INVALIDATION (R377): An ATS invalidation removes translations from the shared cache. -/
  | atsInvalidation (fn : Fin 256) (page : BitVec 52)
  /-- IDE_KEY_PROGRAM (R446): IDE_KM inside an SPDM session sets or refreshes the keys of an IDE stream. -/
  | ideKeyProgram (p : Fin 2) (stream : Fin 5)
  /-- IDE_INTEGRITY_FAIL (R446): An integrity failure makes the stream Insecure and raises 0x3804. -/
  | ideIntegrityFail (p : Fin 2) (stream : Fin 5)
  /-- SEVERITY_BUCKET_EXPIRE (R397): A bucket of PG_SEV_WIN / 16 ends, and sources may leave the severe state. -/
  | severityBucketExpire (addr : BitVec 28)
  /-- PG_ERR_RELEASE (R401): Writing 1 to PG_ERR_FIRST.VALID releases the latched error unless its cause persists. -/
  | pgErrRelease (addr : BitVec 28) (persists : Bool)
  /-- PG_ERR_OVF_CLEAR (R466): Writing 1 to OVF clears OVF and COUNT. -/
  | pgErrOvfClear (addr : BitVec 28)
  /-- FAULT_PIN_MIN_END (R403): After MIN_US the FAULT_N pulse ends unless HOLD is set. -/
  | faultPinMinEnd
  /-- ALERT_PEND_CLEAR (R404): Writing 1 clears an ALERT_PEND bit. -/
  | alertPendClear (val : BitVec 32)
  /-- PLDM_EVENT_ACK (R404): The management controller acknowledges a PLDM event and the matching alert bit clears. -/
  | pldmEventAck (bit : Fin 6)
  /-- FQ_SRC_READ (R415): An FQ_SRC read returns the head of the fault queue, latches its fields and removes it. -/
  | fqSrcRead
  /-- THERMAL_SAMPLE (R406): Every 10 µs each thermal sensor is sampled against TJ_WARN and TJ_TRIP. -/
  | thermalSample (sensor : Fin 88) (temp : BitVec 16)
  /-- DROOP_DETECT (R406): A droop detector sees supply below 92% and raises 0x0205, capping the cluster's ceiling. -/
  | droopDetect (det : Fin 256) (cl : Option (Fin 144))
  /-- MARGIN_SAMPLE (R406): Every 1 ms each island's timing margin is sampled. -/
  | marginSample (island : Fin 312) (ps : BitVec 8)
  /-- EVENT_RECORD_WRITE (R411): A life-log event record is written within 1 ms, or dropped beyond 16 per second. -/
  | eventRecordWrite (ok : Bool) (left : Fin 101)
  /-- SNAPSHOT (R412): Every 10 minutes of powered time a snapshot is written. -/
  | snapshot (ageing : List (BitVec 16))
  /-- SNAP_NOW (R418): A SNAP_NOW write takes a snapshot. -/
  | snapNow (val : BitVec 32)
  /-- DAILY_SUMMARY (R412): Every 24 hours of powered time a daily summary is written. -/
  | dailySummary
  /-- LOG_RD_DATA_READ (R418): An RD_DATA read returns a life-log word and adds 4 to RD_ADDR. -/
  | logRdDataRead (crcOk : Bool)
  /-- GET_LOG_INFO (R414): An MCTP GET_LOG_INFO message returns the LIFE page positions. -/
  | getLogInfo
  /-- READ_LOG (R414): An MCTP READ_LOG message returns up to 256 bytes of the life log. -/
  | readLog (off : BitVec 27) (len : Fin 257)
  /-- PLDM_SENSOR_READ (R414): A PLDM monitoring request returns a sensor value. -/
  | pldmSensorRead (sel : PldmSensor)
  /-- POWER_SAMPLE (R425): Every 1 µs the VIN_12 power is sampled and the budget levers are applied. -/
  | powerSample (watts : BitVec 16) (deciAmps : BitVec 16)
  /-- CEILING_STEP (R427): On its 10 µs or 100 µs timer a lever moves one step down or up. -/
  | ceilingStep (lever : PowerLever)
  /-- OP_STEP_COMPLETE (R421): A quarter's operating-point step completes, or raises 0x0504 after 50 µs. -/
  | opStepComplete (q : Fin 4) (ok : Bool)
  /-- CLUSTER_DIM (R423): A cluster idle for DIM_IDLE cycles is clock-gated. -/
  | clusterDim (cl : Fin 144)
  /-- CLUSTER_DARK (R424): The power manager power-gates an eligible cluster or unit. -/
  | clusterDark (unit : DarkUnit)
  /-- CLUSTER_WAKE_COMPLETE (R423): A dimmed or dark cluster becomes LIT and the waiting placement proceeds. -/
  | clusterWakeComplete (cl : Fin 144) (us : BitVec 8)
  /-- CL_PWR_FORCE (R424): A CL_PWR write forces a cluster's power state, or is refused. -/
  | clPwrForce (val : BitVec 32)
  /-- SYS_RESET_ASSERT (R429): SYS_RESET_N low for 10 µs starts a cold reset. -/
  | sysResetAssert
  /-- WARM_RESET_ASSERT (R429): WARM_RESET_N low for 1 µs starts a warm reset. -/
  | warmResetAssert
  /-- PWR_RST_WARM (R429): PWR_RST KIND 1 starts a warm reset. -/
  | pwrRstWarm
  /-- PWR_RST_DOMAIN (R429): PWR_RST KIND 2 resets one domain. -/
  | pwrRstDomain (dom : Fin 32)
  /-- PWR_RST_UNIT (R429): PWR_RST KIND 3 resets one unit. -/
  | pwrRstUnit (page : BitVec 16)
  /-- SOFT_RESET (R466): PG_CTRL.SOFT_RESET requests a unit reset of the page's unit. -/
  | softReset (addr : BitVec 28)
  /-- WARM_RESET_COMPLETE (R431): A warm reset reaches READY, replays the prompt book and resumes acceptance. -/
  | warmResetComplete
  /-- DOMAIN_RESET_COMPLETE (R429): A domain reset completes and the domain leaves fault state. -/
  | domainResetComplete (dom : Fin 26)
  /-- UNIT_RESET_COMPLETE (R429): A unit reset completes. -/
  | unitResetComplete (page : BitVec 16)
  /-- VIN_LOW (R455): VIN_12 below 10.8 V for 20 µs holds the device in cold reset. -/
  | vinLow
  /-- VIN_RESTORE (R455): VIN_12 in range for 10 µs restarts the boot. -/
  | vinRestore
  /-- AON_LOSS (R455): VDD_AON below 1.60 V stops the device and clears the thermal trip flag. -/
  | aonLoss
  /-- BOOT_ROM_COMPLETE (R435): Phase 1 reads the fuses and derives the life-cycle state and keys. -/
  | bootRomComplete
  /-- BOOT_LOAD_COMPLETE (R442): Phase 2 verifies and measures a flash image, falls back to the other bank, or enters recovery. -/
  | bootLoadComplete
  /-- BOOT_FIRMWARE_COMPLETE (R435): Phase 3 starts the stagehands and the MCTP endpoint answers. -/
  | bootFirmwareComplete
  /-- BOOT_MEMORY_COMPLETE (R435): Phase 4 trains HBM and completes the full wipe. -/
  | bootMemoryComplete (failed : List (Fin 8))
  /-- BOOT_SERDES_COMPLETE (R435): Phase 5 calibrates the lanes, and a bad reference clock enters recovery. -/
  | bootSerdesComplete (refOk : Bool)
  /-- BOOT_MAP_COMPLETE (R437): Phase 6 applies the in-service map and retires units that fail self-test. -/
  | bootMapComplete (failed : List (Fin 6 × Nat)) (wholeDie : Option (Fin 6))
  /-- BOOT_READY (R435): Phase 7 starts the time bases, latches the map snapshot, records measurement 5 and sets READY. -/
  | bootReady (ms : BitVec 16)
  /-- LC_REQ_GO (R440): LC_REQ.GO checks a life-cycle token and accepts or refuses the transition. -/
  | lcReqGo (sigOk : Bool)
  /-- LC_REQUEST (R440): An MCTP LC_REQUEST message submits a life-cycle token out of band. -/
  | lcRequest (token : List (BitVec 8)) (sigOk : Bool)
  /-- LC_TRANSITION_RESET (R439): An accepted transition writes the state fuses and is followed within 1 ms by a cold reset. -/
  | lcTransitionReset
  /-- FWU_STAGE (R443): FWU_CTRL.STAGE writes and verifies an image in the inactive bank. -/
  | fwuStage
  /-- FWU_STAGE_COMPLETE (R443): Staging ends, setting STAGED_VALID or a failure result. -/
  | fwuStageComplete (flashOk : Bool) (img : FwImage)
  /-- FWU_ACTIVATE (R443): FWU_CTRL.ACTIVATE makes the staged bank active from the next cold reset. -/
  | fwuActivate
  /-- FWU_COMMIT_SVN (R444): FWU_CTRL.COMMIT_SVN raises the fused SVN minimum to the running SVN. -/
  | fwuCommitSvn
  /-- PLDM_FIRMWARE_UPDATE (R443): PLDM for Firmware Update stages an image out of band. -/
  | pldmFirmwareUpdate (img : FwImage)
  /-- GET_VERSION (R445): SPDM GET_VERSION is answered. -/
  | getVersion
  /-- GET_CAPABILITIES (R445): SPDM GET_CAPABILITIES is answered. -/
  | getCapabilities
  /-- NEGOTIATE_ALGORITHMS (R445): SPDM NEGOTIATE_ALGORITHMS is answered. -/
  | negotiateAlgorithms
  /-- GET_DIGESTS (R445): SPDM GET_DIGESTS is answered. -/
  | getDigests
  /-- GET_CERTIFICATE (R445): SPDM GET_CERTIFICATE returns the slot 0 chain. -/
  | getCertificate (slot : Fin 8)
  /-- CHALLENGE (R445): SPDM CHALLENGE is signed with the alias key. -/
  | challenge (nonce : BitVec 256)
  /-- GET_MEASUREMENTS (R445): SPDM GET_MEASUREMENTS returns measurements 1 to 6. -/
  | getMeasurements (idx : BitVec 8)
  /-- KEY_EXCHANGE (R445): SPDM KEY_EXCHANGE starts a session. -/
  | keyExchange (pub : BitVec 384)
  /-- FINISH (R445): SPDM FINISH completes session setup. -/
  | finish (sid : BitVec 32)
  /-- KEY_UPDATE (R445): SPDM KEY_UPDATE updates session keys. -/
  | keyUpdate (sid : BitVec 32)
  /-- END_SESSION (R445): SPDM END_SESSION ends a session. -/
  | endSession (sid : BitVec 32)
  /-- TAP_INSTRUCTION (R472): A TAP instruction executes, or is refused as BYPASS while locked. -/
  | tapInstruction (ins : TapIns)
  /-- SYS_RESET_RELEASE (R435): SYS_RESET_N rises with every supply in range, which is t0, and the cold boot begins phase 1. -/
  | sysResetRelease
  /-- VDD_AON_RESTORE (R454): VDD_AON enters its operating range and the always-on island starts, which is the first step of power-up. -/
  | vddAonRestore
  /-- ETH_LINK_UP (R269): An Ethernet sub-port completes training or auto-negotiation and LINK_UP sets. -/
  | ethLinkUp (port : Fin 16) (sp : Fin 4)
  /-- REFCLK_ETH_LOST (R456): A REFCLK_ETHn lost after READY holds that tile's Ethernet sub-ports down and raises 0x3001 for each. -/
  | refclkEthLost (tile : Fin 2)
  /-- REFCLK_ETH_RETURN (R456): The return of a lost REFCLK_ETHn retrains the tile's Ethernet sub-ports. -/
  | refclkEthReturn (tile : Fin 2)
  /-- PCIE_LINK_UP (R374): A PCIe port completes training and its link-up bit in HOST_STAT sets. -/
  | pcieLinkUp (p : Fin 2)
  /-- PCIE_UNCORRECTABLE_ERROR (R395): A PCIe uncorrectable error is reported on a port and source 0x3803 is raised. -/
  | pcieUncorrectableError (p : Fin 2)
  /-- REGULATOR_FAULT (R434): An integrated regulator reports a fault and source 0x0504 is raised. -/
  | regulatorFault (dom : Fin 26)
  /-- LANE_LOCK_REGAINED (R341): A Graner lane that lost lock regains it, which ends the 10 µs wait before a hard failure. -/
  | laneLockRegained (l : Fin 48) (lane : Fin 10)
  /-- EXPULSION_BUDGET_FREE (R409): An action's age reaches EXP_WIN, so it leaves the window, EXP_USED falls and EXHAUSTED clears. -/
  | expulsionBudgetFree
  deriving DecidableEq, Repr

end Sys2Proof
end

