-- ==== Sys2Proof/Config.lean ====
section
/-! DEFINITION. What the manual leaves open and the model leaves free. Every constant here is opaque: nothing can
evaluate it, so a claim holds whatever its value (assumption log 2). Plain constants the manual fixes stand in the
files that use them. -/

namespace Sys2Proof.Config

/-- A fresh value each time it is asked: the counter is `State.free` (log 2). -/
opaque freeWord : Nat → BitVec 32

/-- What the decoder of the (72,64) code makes of three or more erring positions of one word (R316): `none` when the
syndrome is not a correctable one, else the positions it flips (a miscorrection). -/
opaque syndrome : List Nat → Option (List Nat)

/-- Which of the results within 2 ulp a special function of R82 returns: fixed bits for a fixed input (R83). The first
argument is VOPC (0x13 EXP2 to 0x18 ERF). -/
opaque special : Nat → BitVec 32 → BitVec 32

/-- The result of a vector operation on operands for which the manual states none, by VOPC, DTYPE and operand codes: the same
for the same operands (R178). -/
opaque openResult : Nat → Nat → Nat → Nat → Nat → Nat

/-- The index that ARGMAX returns of elements among which is a NaN, by DTYPE and codes. -/
opaque openIndex : Nat → List Nat → Nat

/-- Where pair mode finds the lo plane of operand 0 A, 1 B or 2 C of a descriptor (R57): its distance in bytes from the hi
plane; `none` for single values. The manual gives the two choices and no field that makes one. -/
opaque loPlane : Nat → Nat → Option Nat

/-- The base graphs of TS 38.212 (R242): graph 0 or 1 for BG1 or BG2, set of shift values, row; the columns of its entries with
their shifts. The tables stand in that standard, not in the manual. -/
opaque ldpcRow : Nat → Nat → Nat → List (Nat × Nat)

/-- The offset of the decoder's offset min-sum, and the magnitude at which its soft values saturate (R244). -/
opaque ldpcOffset : Nat
opaque ldpcLimit : Int

/-- The order of reliability of polar code indices, and the pattern that interleaves a payload with its CRC: tables of
TS 38.212 (R246). -/
opaque polarRank : Nat → Nat
opaque polarShuffle : Nat → Nat

/-- The paths that the list decoding of a block ends with, the most likely first (R246): mother code length, bits, coded bits, list
size, LLRs. -/
opaque polarPaths : Nat → Nat → Nat → Nat → List Int → List (List Bool)

/-- A tile that an MMA continues where none is open, by the descriptor and the entry: the manual gives no start, and the same
command starts from the same entries (R178). -/
opaque openEntry : Nat → Nat → BitVec 96

/-- A member's share of a REDUCE_SCATTER whose count its members do not divide (R111): members, rank, reduced elements, index. -/
opaque openShare : Nat → Nat → List Nat → Nat → Nat

/-- SUMMARY of a job for which its engine gives none (R236): the same for the same descriptor and input (R233). -/
opaque openSummary : Nat → List (List (BitVec 8)) → Nat

/-- A sample whose exact value 16 bits do not hold and which the manual does not saturate (R245). -/
opaque openSample : Int → Nat

/-- The taps of the filter that brings a chirp channel to chip rate (R249): of a chip's 160 samples, each one's weight. -/
opaque chirpTap : Nat → Int

/-- Which of the bins of equal power is a window's peak, and which of two slopes, by the powers (R255). -/
opaque peakTie : List Nat → Nat

/-- How far a peak lies from its bin, in 1/256 bin, by the powers of the bin before, its own and the bin after (R260). -/
opaque peakFrac : Nat → Nat → Nat → Int

/-- The ratio of the metric of a window with no power outside its peak's bin, by its chips (R255). -/
opaque chirpFlat : Nat → Nat

/-- Whether a shift halfway between two symbols' is read as the greater, by their distance and the shift (R250). -/
opaque symbolTie : Nat → Nat → Bool

/-- The stack's JEDEC device identification (R328): stack and word. -/
opaque stackId : Nat → Nat → BitVec 32

/-- What a penalty has decayed to after some ns (R344): continuous halving every 60 s is exact at whole minutes alone, and
the manual gives no rounding between them. -/
opaque decay : Nat → Nat → Nat

/-- The fused identity of die 0 to 5 (R18), free within what the rule allows: of a die, fields 0 to 5 number a lot character
of the set 0–9 and A–Z (modulo 36), 6 the wafer less 1 (modulo 25), 7 and 8 the X and Y positions (modulo 256). -/
opaque dieField : Nat → Nat → Nat

/-- Whether a life-cycle token written to `LC_REQ.GO` by a plain register write carries a signature that an authorised key
verifies (R440): keys and signatures are not the manual's to give. -/
opaque tokenSigned : List (BitVec 8) → Bool

/-- Whether traffic between two quarters that share no crossing passes through the lower-numbered of the two that join them
(R15). -/
opaque lowRoute : Nat → Nat → Bool

/-- The JEDEC manufacturer code of Prewen Silicon (R472), which the manual does not give. -/
opaque jedec : BitVec 11

/-- The nonce the device draws (R440), by draw. -/
opaque nonce : Nat → BitVec 256

/-- A digest of what the manual names but does not lay out (R445: ROM, firmware and Repertoire code). -/
opaque measurement : Nat → Nat → BitVec 384

/-- An SPDM signature or key-exchange answer (R445), of a request and a transcript counter. -/
opaque spdmAnswer : Nat → Nat → BitVec 512

end Sys2Proof.Config
end

