-- ==== Sys2Proof/Machine/State.lean ====
section
/-! DEFINITION. The state of the device as plain data: every register, memory, queue, counter, mode and pin the manual
gives it, and the queue of waiting commands. Sparse data is a list of (key, value) pairs in one canonical form: keys
strictly rising, no entry equal to what an unlisted key reads as. -/

namespace Sys2Proof.Machine

/-- A sparse table. -/
abbrev Tbl (α : Type) := List (Nat × α)

/-- A byte memory; an unlisted address reads as zero (log 5). -/
abbrev Memory := List Host.Cell

/-- Faults that stop the machine: there is none. Every fault of the manual is a state of the device (an error register, a
status, a held reset), not a stop. -/
inductive Fault where
  deriving DecidableEq, Repr

/-- Refusals. -/
inductive Refusal where
  /-- A command that has no meaning yet; raised by the dispatcher alone. Safe. -/
  | notModelled (mnemonic : String)
  deriving DecidableEq, Repr

/-! ## Architecture (R20 to R30) -/

/-- The states of a unit of the disabled-unit map (R20). -/
inductive UState where
  | active
  | spare
  | disabled
  | retired
  deriving DecidableEq, Repr

/-- A disabled-unit map with its logical tables (R20, R23, R27). Unit key: class × 65,536 + index, classes 0 cluster,
1 chorus unit, 2 voice, 3 DSP core, 4 accelerator engine, 5 CRC engine; an unlisted unit has its state at shipment. -/
structure DMap where
  units : Tbl UState := []
  /-- logical cluster q × 32 + i to physical cluster c, 255 if absent -/
  clLog : Tbl Nat := []
  /-- logical core e × 128 + i to physical core n, 255 if absent -/
  dspLog : Tbl Nat := []
  /-- logical position (q × 36 + c) × 12 + u to physical chorus unit; 13 while none -/
  cuLog : Tbl Nat := []
  /-- logical position physical-unit × 32 + v to physical voice; 33 while none -/
  voLog : Tbl Nat := []
  deriving DecidableEq, Repr

/-- A bring-in in progress (R24): the class, the retired unit it serves, its logical position, the spare it tries. -/
structure BringIn where
  cls : Nat
  unit : Nat
  pos : Nat
  spare : Nat
  deriving DecidableEq, Repr

/-- The maps of the device (R20 to R30, R473). -/
structure MapSt where
  fused : DMap := {}
  /-- the in-service map, kept in the life log (R26) -/
  svc : DMap := {}
  /-- phase 6 has applied the in-service map since the last cold reset (R474) -/
  applied : Bool := false
  /-- logical indices have been assigned once, at the first PROVISIONED boot (R23) -/
  assigned : Bool := false
  /-- the latched snapshot (R30) -/
  snap : DMap := {}
  /-- bring-in in progress, by die 0 to 5 (R24) -/
  running : Tbl BringIn := []
  /-- waiting retirements: class, retired unit, logical position (R24) -/
  waiting : List (Nat × Nat × Nat) := []
  deriving DecidableEq, Repr

/-! ## Numbers (R54, R62, R72) -/

/-- The numeric counters of R62. -/
structure Numeric where
  sat : Nat := 0
  flush : Nat := 0
  fbs : Nat := 0
  zblk : Nat := 0
  nan : Nat := 0
  wide : Nat := 0
  deriving DecidableEq, Repr

/-- One accumulator entry (R54, R72). In FP32 mode a[31:0] holds the sum; in pair mode a[31:0] holds s and a[63:32] c. -/
structure Acc where
  a : BitVec 96 := 0
  t : Int := 511
  h : Int := -512
  n : Nat := 0
  pinf : Bool := false
  ninf : Bool := false
  nan : Bool := false
  deriving DecidableEq, Repr

/-! ## Streams, sequencers and chorus units (R66 to R117) -/

/-- A loop nest in progress (R100, R101): line of its LOOP, levels, body length, next body
descriptor, the line after the body. -/
structure Nest where
  line : Nat
  levels : Nat
  body : Nat
  pos : Nat
  after : Nat
  deriving DecidableEq, Repr

/-- The state of a stream at one expanded index (R117): what the 512-byte stream state holds of the sequencer. -/
structure StreamPt where
  line : Nat := 0
  nest : Option Nest := none
  cnt : List Nat := [0, 0, 0, 0, 0, 0]
  rc : List Nat := [0, 0, 0, 0, 0, 0]
  idx : List Nat := [0, 0, 0, 0, 0, 0]
  base : List Nat := [0, 0, 0, 0, 0, 0, 0, 0]
  /-- inc[s][l] at 6 s + l, 32-bit two's complement -/
  inc : List Word := List.replicate 48 0
  deriving DecidableEq, Repr

/-- One expanded descriptor reached in this attempt and not below XIDX: its point, its WAIT and SIG tokens, its completion. -/
structure XHist where
  x : Nat
  pt : StreamPt
  wait : Option Nat
  sig : Option Nat
  done : Bool
  /-- copies of its descriptor that go before it -/
  rank : Nat := 0
  deriving DecidableEq, Repr

/-- The saved stream state of R117; with the copies of its descriptor that go before XIDX, which the layout does not show and
the resumed walk needs (DEDUCED, log 57). -/
structure StreamSave where
  xidx : Nat := 0
  rank : Nat := 0
  pt : StreamPt := {}
  tok : List Int := List.replicate 16 0
  done : List Nat := []
  kdone : List Nat := List.replicate 12 0
  deriving DecidableEq, Repr

/-- A sequencer (R93 to R103, R116, R117, R125). 0 to 143 cluster sequencers, 144 and 145 the accelerator sequencers,
300 + k the sequencer of a preempted stream that still drains on cluster k. -/
structure Seq where
  running : Bool := false
  item : Nat := 0
  task : Nat := 0
  script : Bool := false
  /-- stream address, length in lines, and the HDR's declarations (R98) -/
  entry : Nat := 0
  lines : Nat := 0
  adlib : Bool := false
  footLo : Nat := 0
  footHi : Nat := 0
  pt : StreamPt := {}
  tok : List Int := List.replicate 16 0
  nextX : Nat := 0
  /-- lowest expanded index not complete, and the tokens that descriptors below it alone produce -/
  low : Nat := 0
  lowTok : List Int := List.replicate 16 0
  hist : List XHist := []
  /-- calls outstanding, and a SYNC call the sequencer waits for (R110) -/
  calls : Nat := 0
  syncWait : Bool := false
  /-- dispatch stopped for a preemption (R117), or for a curtain (R171) -/
  draining : Bool := false
  curtain : Bool := false
  /-- the chorus units that the HDR declares (R98) -/
  unitMask : Nat := 0
  /-- completed indices of the saved state that a resumed stream does not send again -/
  skip : List Nat := []
  kdone : List Nat := List.replicate 12 0
  /-- an ending found: status, cause, line; taken once what is dispatched has completed -/
  ending : Option (Nat × Nat × Nat) := none
  halted : Bool := false
  cause : Nat := 0
  /-- END reached and complete -/
  ended : Bool := false
  deriving DecidableEq, Repr

/-- An expanded descriptor in an engine FIFO: index, line, the descriptor's bytes as one little-endian number, the
resolved operand addresses in field order, and what AUTO resolved (R104). -/
structure XDesc where
  x : Nat
  line : Nat
  raw : Nat
  addrs : List Nat
  /-- output origins (R49) -/
  origins : List Nat
  clr : Bool
  out : Bool
  rank : Nat
  /-- its WAIT is satisfied; its effects are under way or done, and wait for acknowledgements -/
  started : Bool
  ran : Bool
  /-- first k-step of a resumed MMA copy (KDONE) -/
  k0 : Nat
  /-- its stream was preempted and goes on as the record 300 + k while the unit serves another owner (R117) -/
  away : Bool := false
  deriving DecidableEq, Repr

/-- A k-step issue in flight (R71): its command, its bank, its first k-step, the element codes read and the block scales
and soloist words held for them, operand group after operand group; in pair mode the scales are the lo planes. -/
structure KIssue where
  cmd : Option XDesc := none
  bank : Nat := 0
  k : Nat
  /-- the bank held no tile that the command could continue -/
  stale : Bool := false
  a : List Nat
  b : List Nat
  aScale : List Nat
  bScale : List Nat
  aSolo : List Nat
  bSolo : List Nat
  deriving DecidableEq, Repr

/-- Why a preemption was requested (R76, R135). -/
inductive PreemptWhy where
  | openTask
  | handover
  /-- the curtain of its graph has passed (R171) -/
  | curtain
  deriving DecidableEq, Repr

/-- A chorus unit, by logical position (R66 to R81). -/
structure ChorusUnit where
  fifo : List XDesc := []
  /-- commands whose effects are complete and whose completion is not yet signalled -/
  fin : List XDesc := []
  cur : Option XDesc := none
  /-- k-steps issued of the running command -/
  issued : Nat := 0
  /-- grants that the multi-cycle issue in progress still takes (R81) -/
  sub : Nat := 0
  /-- accumulating bank, 0 or 1, and whether it holds a partial tile -/
  bank : Nat := 0
  part : Bool := false
  /-- the entries of a bank, voice × 32 + column; an empty list is a cleared bank -/
  acc : Tbl (List Acc) := []
  pipe : List KIssue := []
  /-- K-blocks whose scales and soloist words of A and of B are held (R70) -/
  heldA : Option Nat := none
  heldB : Option Nat := none
  held : KIssue := { k := 0, a := [], b := [], aScale := [], bScale := [], aSolo := [], bSolo := [] }
  level : Nat := 0
  phase : Nat := 0
  credit : Nat := 0
  want : Bool := false
  beatCyc : Nat := 0
  /-- cycles an issue has waited for a bank that it needs for several lines (R85) -/
  lines : Nat := 0
  preempt : Option PreemptWhy := none
  /-- a preemption has landed here: the unit starts no command (R76) -/
  landed : Bool := false
  /-- completed banks, the one reading out first: bank, next vector, the command -/
  readout : List (Nat × Nat × XDesc) := []
  /-- the bank that spills, and the task whose context it is (R77) -/
  spilling : Option Nat := none
  leaving : Option (Nat × Nat) := none
  restoring : Bool := false
  owner : Option (Nat × Nat) := none
  /-- the saved context (R79): the task that owns it -/
  ctx : Option (Nat × Nat) := none
  deriving DecidableEq, Repr

/-- Cluster power states (R90, R423). -/
inductive ClPwr where
  | lit
  | dimmed
  | dark
  deriving DecidableEq, Repr

/-- A physical cluster (R66 to R92, R423). -/
structure Cluster where
  units : Tbl ChorusUnit := []
  vec : List XDesc := []
  movers : Tbl (List XDesc) := []
  pwr : ClPwr := .lit
  force : Nat := 0
  placed : Option (Nat × Nat) := none
  /-- power-on time since which no task has been placed and no context held (R423) -/
  idleAt : Nat := 0
  scrub : Nat := 0
  /-- lines each function's tasks wrote since the last wipe (R383) : (function, line) -/
  written : List (Nat × Nat) := []
  /-- requests that a bank has refused, by client: consecutive refusals, and whether the next cycle's request is aged (R85) -/
  waits : Tbl (Nat × Bool) := []
  /-- the vector unit's 32 registers (R82); no descriptor names one -/
  vregs : Tbl (BitVec 2048) := []
  deriving DecidableEq, Repr

/-- A Repertoire call (R110). -/
structure Call where
  sq : Nat
  item : Nat
  task : Nat
  x : Nat
  routine : Nat
  algo : Nat
  args : List Nat
  stat : Nat
  sync : Bool
  sig : Option Nat
  deriving DecidableEq, Repr

/-- A call thread: the call it runs and, once the routine has run, its status and return value. -/
structure Thread where
  call : Option Call := none
  /-- the routine's writes, its status and return value, once it has read all it reads; and the writes made -/
  plan : Option (List (Nat × List Byte) × Nat × Nat) := none
  pos : Nat := 0
  result : Option (Nat × Nat) := none
  deriving DecidableEq, Repr

/-- The stagehands (R113 to R115). -/
structure StagehandSt where
  callq : List Call := []
  threads : Tbl Thread := []
  /-- times of the counted heartbeat misses, by core -/
  misses : Tbl (List Nat) := []
  /-- time of the last refresh, by core -/
  beats : Tbl Nat := []
  deriving DecidableEq, Repr

/-! ## Work (R118 to R154) -/

/-- Task states (R138). -/
inductive TState where
  | waiting
  | ready
  | cued
  | playing
  | done
  | returned
  deriving DecidableEq, Repr

/-- How far the playbill of a task that ends OK has come (R188). -/
inductive Bill where
  | none
  /-- written to another node, and not acknowledged -/
  | sent
  | over
  deriving DecidableEq, Repr

/-- A task of an accepted graph (R128, R138, R144). -/
structure Task where
  ty : Nat
  cls : Nat
  flags : Nat
  succ : List Nat
  affinity : Nat
  entry : Nat
  seed : Nat
  scenes : Nat
  pfSrc : Nat
  pfBytes : Nat
  pfDst : Nat
  st : TState
  dep : Nat
  bad : Bool := false
  attempt : Nat := 0
  counted : Nat := 0
  /-- watchdog expiries (R114) -/
  wd : Nat := 0
  /-- the cluster (logical, q × 32 + i) or core (e × 128 + i) it is placed on, and its physical unit -/
  place : Option (Nat × Nat) := none
  /-- units an earlier attempt was retired from -/
  avoid : List Nat := []
  status : Nat := 0
  cause : Nat := 0
  line : Nat := 0
  num : Numeric := {}
  save : Option StreamSave := none
  /-- cluster that holds its saved contexts -/
  ctxAt : Option Nat := none
  /-- logical cluster of its latest placement, and whether a restore asks for that cluster again (R193) -/
  last : Option Nat := none
  back : Bool := false
  script : Bool := false
  tStart : Nat := 0
  /-- run-ahead reads issued and not returned, and the page that run-ahead takes next (R136) -/
  ahead : Nat := 0
  aheadAt : Nat := 0
  bill : Bill := .none
  /-- regions declared with DIGEST_REGION: expanded index of the call, role, region digest (R189) -/
  regions : List (Nat × Nat × BitVec 256) := []
  playbill : Nat := 0
  preempted : Bool := false
  deriving DecidableEq, Repr

/-- An accepted item (R118, R127, R131, R143). -/
structure Item where
  fn : Nat
  queue : Nat
  seqNo : Nat
  tag : Nat
  kind : Nat
  mode : Nat
  desc : Nat
  gen : Nat
  radio : Bool := false
  playbill : Bool := false
  owner : Nat := 0x10
  curtainTb : Nat := 0
  curtain : Nat := 0
  seed : Nat := 0
  resultAddr : Nat := 0
  playbillAddr : Nat := 0
  scenes : Nat := 0
  home : Nat := 0
  tasks : List Task := []
  /-- the booked window, first and last period (R167) -/
  window : Option (Nat × Nat) := none
  fallback : Bool := false
  missed : Bool := false
  rejected : Bool := false
  released : Bool := false
  returned : Bool := false
  status : Nat := 0
  cause : Nat := 0
  deciding : Nat := 0xFFFFFFFF
  rerun : Bool := false
  preempted : Bool := false
  billed : Bool := false
  /-- a playbill of it failed to be written (R188) -/
  billFail : Bool := false
  /-- restored from an intermission image, and with another placement digest (R193, R194) -/
  resumed : Bool := false
  placeChg : Bool := false
  /-- nodes that hold effect tags of it (R359) -/
  tagNodes : List Nat := []
  afterWarm : Bool := false
  deriving DecidableEq, Repr

/-- A queue completion record (R145). -/
structure Compl where
  seqNo : Nat
  tag : Nat
  status : Nat
  cause : Nat
  fn : Nat
  queue : Nat
  gen : Nat
  task : Nat
  tDone : Nat
  flags : Nat
  deriving DecidableEq, Repr

/-- A prompt-book record (R147). -/
structure PbRec where
  seqNo : Nat
  kind : Nat
  fn : Nat
  queue : Nat
  mode : Nat
  status : Nat
  task : Nat
  tag : Nat
  gen : Nat
  desc : Nat
  attempt : Nat
  cause : Nat
  home : Nat
  place : Nat
  time : Nat
  idx : Nat
  deriving DecidableEq, Repr

/-- The seed and class that a raw STREAM entry named (R118), which no prompt-book record holds. -/
structure SeedRec where
  fn : Nat
  queue : Nat
  seqNo : Nat
  seed : Nat
  cls : Nat
  deriving DecidableEq, Repr

/-- A tail copy of the life log (R149). -/
structure TailCopy where
  seqNo : Nat
  tag : Nat
  fn : Nat
  queue : Nat
  desc : Nat
  gen : Nat
  deriving DecidableEq, Repr

/-- The Stage Managers' work (R118 to R154). -/
structure WorkSt where
  items : Tbl Item := []
  nextItem : Nat := 0
  /-- completions held for a queue, key function × 16 + queue, in ascending sequence number (R121) -/
  held : Tbl (List Compl) := []
  /-- stretches of a queue whose watchdog has fired (R122) -/
  fired : Tbl Bool := []
  book : List PbRec := []
  tail : List TailCopy := []
  /-- items to report under R151 -/
  reports : List TailCopy := []
  bookWait : Bool := false
  /-- completion notices a home has not taken: item, task, status, cause, line (R140, R142) -/
  ends : List (Nat × Nat × Nat × Nat × Nat) := []
  /-- missed graphs whose fallback graph's acceptance waits for bytes of another node (R172) -/
  fbPend : List Item := []
  deriving DecidableEq, Repr

/-! ## Running order (R155 to R177) -/

/-- What a lead point decided for the coming run of a logical cluster (R162). -/
structure Claim where
  owner : Nat
  claimed : Bool
  task : Option (Nat × Nat)
  deriving DecidableEq, Repr

/-- The running order (R155 to R177). -/
structure RoSt where
  /-- active bank is B -/
  bankB : Bool := false
  period : Nat := 1
  tb : Nat := 0
  align : Nat := 0
  scene : Nat := 0
  /-- committed YIELD and EN live in RO_CTRL -/
  realign : Bool := false
  /-- idle scenes are due once the period ends (after a step of RO_TB) -/
  realignDue : Bool := false
  copying : Bool := false
  commitReq : Bool := false
  /-- the PERIOD that RO_CTRL held at the COMMIT write (R161) -/
  commitPer : Nat := 0
  /-- track entries, key bank × 160,000 + track × 2,500 + scene, unlisted 0x10 -/
  track : Tbl Nat := []
  /-- bindings, key bank × 460 + arbiter, unlisted track 0 -/
  bind : Tbl Nat := []
  curPeriod : Nat := 0
  /-- ledgers lc and la, key partition × 2^32 + period -/
  lc : Tbl Nat := []
  la : Tbl Nat := []
  /-- full budgets of R166, by partition -/
  uc : Tbl Nat := []
  ua : Tbl Nat := []
  reserve : Tbl Word := []
  /-- claims of the current run (2 × logical cluster) and of the run whose lead point has passed (that + 1) -/
  claims : Tbl Claim := []
  /-- shares in force, by function; unlisted 0x0001_0001 (R165) -/
  share : Tbl Word := []
  /-- use of open and lent scenes over the last 16 periods, by function -/
  use : Tbl (List Nat) := []
  /-- an overrunning radio task, by logical cluster -/
  overrun : Tbl Bool := []
  deriving DecidableEq, Repr

/-! ## Radio DSP cores (R206 to R231) -/

/-- The kinds of register a syllable reads or writes (R229 HZ_INFO class). -/
inductive RegClass where
  | d
  | ac
  | p
  | m
  | lc
  | imask
  deriving DecidableEq, Repr

/-- A result in flight (R214, R215, R224): the issue cycle at whose end it is written, the cycle and slot it was issued
in, the bank of its issue, the register and its value. -/
structure Flight where
  due : Nat
  born : Nat
  slot : Nat
  sh : Bool
  cls : RegClass
  idx : Nat
  val : BitVec 640
  deriving DecidableEq, Repr

/-- A memory access in flight (R216): the issue cycle it takes place in, its slot, address, length, whether it stores,
and the bank, class and index a load writes. -/
structure MemOp where
  at_ : Nat
  slot : Nat
  store : Bool
  addr : Nat
  bytes : Nat
  val : BitVec 256
  sh : Bool
  cls : RegClass
  idx : Nat
  deriving DecidableEq, Repr

/-- One bank of loop state: depth of active levels and their running counts (R220). -/
structure LoopBank where
  active : List Nat := []
  rc : List Nat := [0, 0, 0, 0]
  deriving DecidableEq, Repr

/-- A radio DSP core, physical index e × 136 + n (R206). Register keys: bank × 64 + index, bank 0 FG and 1 SH. -/
structure DspCore where
  playing : Bool := false
  fn : Nat := 0
  item : Nat := 0
  task : Nat := 0
  pc : Nat := 0
  lastPc : Nat := 0
  sh : Bool := false
  d : Tbl (BitVec 256) := []
  ac : Tbl (BitVec 640) := []
  p : Tbl Word := []
  m : Tbl Word := []
  lc : Tbl Word := []
  ls : Tbl Word := []
  le : Tbl Word := []
  loopFg : LoopBank := {}
  loopSh : LoopBank := {}
  ira : Nat := 0
  imask : BitVec 8 := 0
  cyc : Nat := 0
  /-- slots of the bundle at pc that have issued in this issue cycle, and its four syllables once one has -/
  issued : BitVec 4 := 0
  bundle : List Nat := []
  /-- where control goes after this bundle, when a transfer was taken -/
  target : Option Nat := none
  flight : List Flight := []
  memq : List MemOp := []
  /-- block-mover descriptors queued, each one's bytes + 2^256 × the offset of its MOVB bundle; the one that runs, and
  whether it has made its writes -/
  mover : List Nat := []
  moverRun : Option Nat := none
  moverWrote : Bool := false
  halted : Bool := false
  /-- a trapped bundle was released and issues without the sentinel's checks -/
  released : Bool := false
  /-- the same of the bundle at the return address of the interrupt in service -/
  relIra : Bool := false
  /-- the base of TCMP_TB stood at or past TCMP at the last compare (R222) -/
  timer : Bool := false
  tret : Bool := false
  stopping : Bool := false
  /-- an end the core has found: status, cause, line -/
  ending : Option (Nat × Nat × Nat) := none
  deriving DecidableEq, Repr

/-! ## Radio accelerators (R232 to R267) -/

/-- What an engine computed for a job (R236). -/
structure JobRes where
  status : Nat
  cause : Nat
  done : Nat
  failed : Nat
  summary : Nat
  /-- a code block stopped before its last iteration (R239) -/
  early : Bool := false
  deriving DecidableEq, Repr

/-- An accelerator job (R109, R235): the submitting sequencer and expanded descriptor with its function and owner code, the
engine class, the job's address and bytes (as one little-endian number once read), the status address. -/
structure Job where
  sq : Nat
  fn : Nat
  owner : Nat
  tile : Nat
  item : Nat
  task : Nat
  x : Nat
  line : Nat
  cls : Nat
  addr : Nat
  bytes : Nat
  raw : Nat
  stat : Nat
  /-- the token it waits for, taken as it starts (R97) -/
  wait : Option Nat
  sig : Option Nat
  /-- the job's writes, once it has read what it reads, with its result; and the writes made -/
  plan : Option (List (Nat × List Byte) × JobRes) := none
  pos : Nat := 0
  res : Option JobRes
  tStart : Nat
  deriving DecidableEq, Repr

/-- Where a chirp channel's reception stands (R255, R256, R260). -/
inductive ChPhase where
  | search
  | sync (got : Bool)
  | header (nibbles : List Nat)
  | payload (bits : List Bool) (sym : Nat)
  deriving DecidableEq, Repr

/-- What a window of a channel says (R254, R255, R259): slope and bin of the peak, its fraction in 1/256 bin, the ratio whose
logarithm is the metric, the samples at full scale, and the steps of 0.5 dB that the gain would move. -/
structure ChirpWin where
  rising : Bool
  peak : Nat
  frac : Int
  num : Nat
  den : Nat
  full : Nat
  step : Int
  deriving DecidableEq, Repr

/-- A detection (R255): D in 0.25 dB, the position it was complete at, and its rising and falling peaks. -/
structure ChirpCand where
  d : Int := 0
  at_ : Nat := 0
  up : Nat := 0
  dn : Nat := 0
  deriving DecidableEq, Repr

/-- A chirp channel (R249 to R262). Positions count the samples its bank has taken. -/
structure ChirpCh where
  phase : ChPhase := .search
  gain : Nat := 0
  frozen : Bool := false
  /-- where the channel's windows begin, when a write of CH_CFG set it, and where its latest window ended -/
  origin : Option Nat := none
  last : Option Nat := none
  /-- the windows of the latest quarter sweeps, newest first -/
  run : List ChirpWin := []
  /-- the detection of the reception, and where its own windows may begin -/
  det : ChirpCand := {}
  since : Nat := 0
  /-- the end of the sync's rising window and its peak in 1/256 bin -/
  syncAt : Nat := 0
  syncUp : Int := 0
  /-- the peaks of unshifted symbols, rising and falling, in 1/256 bin -/
  upBase : Int := 0
  dnBase : Int := 0
  /-- the candidate of the watch correlator (R257) -/
  cand : Option ChirpCand := none
  /-- this reception was adopted from a candidate (R258) -/
  overlap : Bool := false
  headerOk : Bool := false
  len : Nat := 0
  whiten : Bool := false
  pspace : Nat := 0
  pilots : Nat := 0
  lost : Nat := 0
  lostRun : Nat := 0
  theta : Int := 0
  cfo : Nat := 0
  tStart : Nat := 0
  /-- candidates that expired while the header's outcome was open (R258) -/
  expired : Nat := 0
  deriving DecidableEq, Repr

/-- A chirp receiver bank. -/
structure ChirpBank where
  expect : Option Nat := none
  armed : Bool := false
  tb : Nat := 0
  t0 : Nat := 0
  /-- samples taken before the running job, and with it; the samples kept, from position `base` on -/
  start : Nat := 0
  taken : Nat := 0
  base : Nat := 0
  buf : List (Int × Int) := []
  /-- `CH_CTRL` as the running job found it -/
  ctl : Word := 0
  written : Nat := 0
  dropped : Nat := 0
  ch : Tbl ChirpCh := []
  deriving DecidableEq, Repr

/-- The accelerators of a tile: jobs waiting, and the job on each engine (class × 64 + engine). -/
structure AccSt where
  queue : List Job := []
  run : Tbl Job := []
  /-- owner code of each engine's latest job, and the engines that retirement has taken from a partition's grant
  (partition × 8 + class) (R238) -/
  lastOn : Tbl Nat := []
  lost : Tbl Nat := []
  banks : Tbl ChirpBank := []
  deriving DecidableEq, Repr

/-! ## Fronthaul (R268 to R289) -/

/-- A received frame waiting for its scenes (R279). -/
structure RxFrame where
  sp : Nat
  queue : Nat
  tb : Nat
  yellow : Bool
  times : List Nat
  eaxc : Nat
  msg : Nat
  bytes : List Byte
  deriving DecidableEq, Repr

/-- A frame fetched for transmission, or leaving (R281 to R285). -/
structure TxFrame where
  queue : Nat
  idx : Nat
  bytes : List Byte
  win : Bool
  winStart : Nat
  winEnd : Nat
  tsReq : Bool
  /-- 0 to send; 3 MALFORMED or 4 ACCESS found at the fetch -/
  status : Nat
  /-- mantissas that compression saturated (R274) -/
  sat : Nat := 0
  /-- shaper time of its departure, and SEC, NS and FRAC of every base then (R271) -/
  clk : Nat := 0
  stamp : List (Nat × Nat × Nat) := []
  deriving DecidableEq, Repr

/-- The token buckets of a meter, in 1/8,000 byte (R277). -/
structure MeterSt where
  c : Nat := 0
  e : Nat := 0
  last : Nat := 0
  deriving DecidableEq, Repr

/-- A meter as the tick of a write to its registers found it, for the frames metered in that tick (R278): the tick, the five
registers and the buckets. -/
structure MeterOld where
  clk : Nat
  regs : List Word
  buckets : MeterSt
  deriving DecidableEq, Repr

/-- An Ethernet port and its traffic manager. -/
structure EthSt where
  buf : List RxFrame := []
  lastSeq : Tbl (Option Nat) := []
  staged : Tbl Word := []
  meters : Tbl MeterSt := []
  /-- meters written in the tick that runs, as it found them (R278) -/
  meterOld : Tbl (Option MeterOld) := []
  /-- frames of the tick that runs which wait for a meter: the meter, the frame (R278) -/
  metering : List (Nat × RxFrame) := []
  fetched : List TxFrame := []
  /-- the frame on each sub-port -/
  onWire : Tbl (Option TxFrame) := []
  /-- E(q) in 1/256 ns -/
  e : Tbl Nat := []
  rr : Tbl Nat := []
  refLost : Bool := false
  deriving DecidableEq, Repr

/-! ## Time (R290 to R311) -/

/-- A time base (R290). -/
structure TBase where
  sec : Nat := 0
  ns : Nat := 0
  frac : Nat := 0
  inc : BitVec 40 := 0x0100000000
  deriving DecidableEq, Repr

/-- A command waiting for its apply tick (R293, R294, R298). -/
inductive TCmd where
  | inc (w : BitVec 40)
  | step (adj : BitVec 64)
  | setTo (sec : Nat) (ns : Nat)
  | ltc (ns : Nat)
  deriving DecidableEq, Repr

/-- A pulse output (R301, R302). -/
structure Tpo where
  armed : Bool := false
  high : Bool := false
  fired : Bool := false
  next : Nat := 0
  start : Nat := 0
  period : Nat := 0
  width : Nat := 0
  /-- time of the base at which the pulse in progress ends -/
  off : Nat := 0
  deriving DecidableEq, Repr

/-- A latched capture (R303). -/
structure Capture where
  ns : Nat
  sec : Nat
  ltc : Nat
  rising : Bool
  deriving DecidableEq, Repr

/-- A two-step FIFO entry (R306). -/
structure TxStamp where
  port : Nat
  queue : Nat
  idx : Nat
  base : Nat
  sec : Nat
  ns : Nat
  frac : Nat
  deriving DecidableEq, Repr

/-- The time unit (R290 to R308). -/
structure TimeSt where
  running : Bool := false
  bases : List TBase := List.replicate 8 {}
  /-- by die, a copy that differs from the master's state: its bases, and the ticks left of its reload, 0 before one (R299) -/
  copies : Tbl (Option (List TBase × Nat)) := []
  ltcNs : Nat := 0
  ltcFrac : Nat := 0
  /-- base, command, ticks left to its apply tick -/
  pend : List (Nat × TCmd × Nat) := []
  tpo : Tbl Tpo := []
  tci : Tbl (List Capture) := []
  lastEdge : Tbl (Option Nat) := []
  txts : List TxStamp := []
  /-- the two-step FIFO has held an entry since the cold reset -/
  txUsed : Bool := false
  /-- free-running ns of the time clock since power-on: shaper time and the µs clock of R397 follow it -/
  clk : Nat := 0
  deriving DecidableEq, Repr

/-! ## Memory controllers (R312 to R330) -/

/-- A row under repair (R322). -/
structure Repair where
  row : Nat
  issued : Bool
  deriving DecidableEq, Repr

/-- An HBM channel controller. -/
structure HbmCh where
  /-- the rows that erred most recently, newest first, with their corrected reads by bucket -/
  rows : List (Nat × List Nat) := []
  repair : Option Repair := none
  /-- lines that the patrol has read since the cold reset -/
  scrub : Nat := 0
  /-- spare rows used up, by bank (pseudo-channel × 16 + bank); repairs outlive power loss -/
  used : Tbl Nat := []
  deriving DecidableEq, Repr

/-! ## Graner links and fabric (R331 to R373) -/

/-- What leaves the device (MSI-X messages, fabric transactions, frames, MCTP answers), newest first. -/
inductive OutMsg where
  | msix (fn : Nat) (vec : Nat)
  | fabric (ty : Nat) (dst : Nat) (seqNo : Nat) (status : Nat) (data : List Byte)
  | note (kind : Nat) (dst : Nat) (a : Nat) (b : Nat)
  | frame (port : Nat) (sp : Nat) (bytes : List Byte)
  | linkNak (l : Nat) (fack : Nat)
  | linkReplay (l : Nat) (first : Nat)
  | mctp (kind : Nat) (data : List Byte)
  | spdm (kind : Nat) (data : BitVec 512)
  | moduleFlags (m : Nat)
  | pulse (n : Nat) (high : Bool)
  | tdo (val : Nat)
  | pcie (kind : Nat) (p : Nat)
  deriving DecidableEq, Repr

/-- Link states (R334, coded as in R370). -/
inductive LinkState where
  | disabled
  | detect
  | train
  | config
  | active
  | retrain
  | down
  | damped
  deriving DecidableEq, Repr

/-- A transaction that waits at a link (R340): its virtual channel, its 16-byte slots, what leaves, and the function and owner
code of the task it comes from, when it is a task's of this node (R165). -/
structure LinkTx where
  vc : Nat
  slots : Nat
  msg : OutMsg
  own : Option (Nat × Nat) := none
  deriving DecidableEq, Repr

/-- A Graner link. -/
structure Link where
  st : LinkState := .disabled
  /-- the power-on time it entered that state, and the time it last left ACTIVE -/
  since : Nat := 0
  left : Nat := 0
  lr : Bool := false
  width : Nat := 0
  /-- the penalties of the link and of its lanes, each with the power-on time it was last added to (R344) -/
  pen : Nat × Nat := (0, 0)
  lanePen : Tbl (Nat × Nat) := []
  /-- lanes without lock: one more than the power-on time each lost it (R341) -/
  noLock : Tbl Nat := []
  returnReq : Bool := false
  rxSeq : Nat := 4095
  nakSent : Bool := false
  txNext : Nat := 0
  txAcked : Nat := 4095
  /-- replays of the last 1 ms: power-on time, and the FSEQ after the last one replayed -/
  replays : List (Nat × Nat) := []
  credit : Tbl Nat := []
  /-- transactions that wait for their turn, credit or replay space (R340) -/
  txq : List LinkTx := []
  /-- the function served last, 256 for traffic of no function (R165) -/
  rr : Nat := 256
  /-- MIR goes before REQ at the arbiter's next turn -/
  turn : Bool := false
  deriving DecidableEq, Repr

/-- A request this node issued and has not seen acknowledged (R354). -/
structure Unacked where
  seqNo : Nat
  attempt : Nat
  sends : Nat
  link : Nat
  req : FabReq
  kind : Nat
  busy : Bool
  /-- power-on time of its last transmission, and of a BUSY answer (R351, R355) -/
  sentAt : Nat := 0
  busyAt : Nat := 0
  /-- the engine or thread that issued it and the expanded index, when one did -/
  origin : Option (Nat × Nat)
  /-- the function and owner code of its task -/
  own : Option (Nat × Nat) := none
  deriving DecidableEq, Repr

/-- The source side of a pair (R354, R358). -/
structure PairSrc where
  seqNo : Nat := 0
  epoch : BitVec 8 := 0
  unacked : List Unacked := []
  deriving DecidableEq, Repr

/-- The destination side of a pair (R354, R358). -/
structure PairDst where
  epoch : BitVec 8 := 0
  expect : Nat := 0
  /-- arrivals ahead of the expected SEQ: type code and request -/
  held : List (Nat × FabReq) := []
  sinceAck : Nat := 0
  /-- power-on time of the first apply since the last ACK (R354) -/
  firstAt : Nat := 0
  flushes : List Nat := []
  heard : Nat := 0
  deriving DecidableEq, Repr

/-- A tag record (R359). -/
structure TagRec where
  src : Nat
  tag : EffTag
  /-- offset of the tagged access: a descriptor's several writes share its tag (log 21) -/
  off : Nat
  status : Nat
  old : BitVec 64
  deriving DecidableEq, Repr

/-- An outstanding remote read or atomic (R360): its RID, the node asked, the engine or thread that issued it and the
global address of its bytes. -/
structure Outstanding where
  rid : Nat
  dst : Nat
  org : Nat
  addr : Nat
  isAtomic : Bool
  deriving DecidableEq, Repr

/-- What a remote read or atomic brought back, held until the issuing operation takes it: issuer, global address, status
(0, or the task status of R351), bytes. -/
structure Landed where
  org : Nat
  addr : Nat
  status : Nat
  bytes : List Byte
  deriving DecidableEq, Repr

/-- A fence in progress (R356): cluster, mover, expanded index, the (destination, SEQ) points not yet acknowledged. -/
structure FenceSt where
  cl : Nat
  mv : Nat
  x : Nat
  waits : List (Nat × Nat)
  deriving DecidableEq, Repr

/-- A group (R361). -/
structure Group where
  members : List Nat := []
  valid : Bool := false
  err : Bool := false
  rank : Nat := 0
  deriving DecidableEq, Repr

/-- The fabric engines of the node. -/
structure FabSt where
  /-- written route entries, 48 bits, unlisted all 0x3F -/
  route : Tbl Nat := []
  /-- power-on time at which a write took an entry's last ACTIVE slot (R357) -/
  routeAt : Tbl Nat := []
  /-- destination whose traffic a takeover routes by another entry -/
  moved : Tbl Nat := []
  lost : List Nat := []
  src : Tbl PairSrc := []
  dst : Tbl PairDst := []
  tags : List TagRec := []
  reads : List Outstanding := []
  landed : List Landed := []
  nextRid : Nat := 0
  fences : List FenceSt := []
  groups : Tbl Group := []
  takeovers : List (Nat × Nat) := []
  deriving DecidableEq, Repr

/-- What the life log keeps of a module's laser (R368): laser-on time in tenths of a second, the sums of its bias per lane
over the polls of its first 24 laser-on hours and their number, its bias at each snapshot of the last 30 days (power-on
clock in ns, then 2 µA per lane), and whether its warning has been raised. -/
structure Laser where
  onTenths : Nat := 0
  sum : List Nat := List.replicate 10 0
  n : Nat := 0
  hist : List (Nat × List Nat) := []
  warned : Bool := false
  deriving DecidableEq, Repr

/-- An optical module (R366 to R368). -/
structure OptMod where
  present : Bool := false
  laser : Laser := {}
  deriving DecidableEq, Repr

/-- Understudy pairing states (R196, R204). -/
inductive UndState where
  | none
  | syncing
  | mirroring
  | broken
  | on
  | abandoned
  deriving DecidableEq, Repr

/-- The pairing (R196 to R202, R362 to R364). -/
structure UndSt where
  st : UndState := .none
  current : Bool := false
  promoted : Bool := false
  suspect : Bool := false
  answers : Tbl Bool := []
  /-- digests present: lead's and own, by (sequence number, task) -/
  lead : List (Nat × Nat × BitVec 256) := []
  own : List (Nat × Nat × BitVec 256) := []
  /-- mirrored prompt-book records, and the seeds and classes of raw streams among them (log 26) -/
  book : List PbRec := []
  seeds : List SeedRec := []
  /-- mirrored items whose descriptor waits for bytes of another node: the ACCEPT record, and the records of the item once the
  understudy has gone on (R197, R200) -/
  late : List (PbRec × List PbRec) := []
  synced : Nat := 0
  /-- mirror transactions that wait to be issued: type code, request, origin (R354, R362) -/
  outq : List (Nat × FabReq × Option (Nat × Nat)) := []
  /-- global writes of a compare-only task, discarded with it (R197): key (item × 4,096 + task) × 2^50 + offset, byte + 1 -/
  shadow : Tbl Nat := []
  deriving DecidableEq, Repr

/-! ## Functions (R374 to R395) -/

/-- VF states (R382). -/
inductive FnState where
  | dark
  | setting
  | live
  | intermission
  | striking
  deriving DecidableEq, Repr

/-- A mailbox (R387). -/
structure Mailbox where
  tmPend : Bool := false
  ttPend : Bool := false
  ovr : Bool := false
  tmCount : Nat := 0
  ttCount : Nat := 0
  tmGen : Nat := 0
  ttGen : Nat := 0
  tm : Tbl Word := []
  tt : Tbl Word := []
  deriving DecidableEq, Repr

/-- A function: its state, generation and grants (R379 to R386). -/
structure Fn where
  st : FnState := .dark
  setPend : Bool := false
  freezing : Bool := false
  /-- strike quiescence has ended and the wipe runs; and the wipe is over -/
  wiping : Bool := false
  wiped : Bool := false
  /-- pieces of 256 bytes of its image that a SAVE has written (R390) -/
  saved : Nat := 0
  gen : BitVec 32 := 1
  fpid : BitVec 16 := 0
  port : Bool := false
  /-- logical clusters held, bit q × 32 + i -/
  cl : BitVec 128 := 0
  qlim : Tbl Nat := []
  mb : Mailbox := {}
  deriving DecidableEq, Repr

/-- A partition's grant (R379, R392). -/
structure PartGrant where
  func : Nat := 0
  valid : Bool := false
  tile : Nat := 0
  acc0 : Word := 0
  acc1 : Word := 0
  dsp : BitVec 128 := 0
  deriving DecidableEq, Repr

/-- An IDE stream (R446). -/
inductive IdeState where
  | none
  | secure
  | insecure
  deriving DecidableEq, Repr

/-- The host interface (R374 to R395). -/
structure HostSt where
  fns : Tbl Fn := []
  /-- extent owners: function and SPEC_OK, key extent -/
  exts : Tbl (Option (Nat × Bool)) := []
  parts : Tbl PartGrant := []
  linkUp : Tbl Bool := []
  ide : Tbl IdeState := []
  /-- ports whose configuration space enables ATS, and the translations kept: function and 4 KiB page, oldest first (R377) -/
  atsOn : Tbl Bool := []
  ats : List (Nat × Nat) := []
  deriving DecidableEq, Repr

/-! ## Faults, health and the life log (R396 to R418) -/

/-- Event counts of one source (R397): 16 buckets, newest first, and the total since cold reset. -/
structure SrcCount where
  buckets : List Nat := List.replicate 16 0
  total : Nat := 0
  deriving DecidableEq, Repr

/-- A fault-queue entry (R415). -/
structure FqEntry where
  src : Nat
  sev : Nat
  change : Bool
  page : Nat
  info : Word
  time : Nat
  deriving DecidableEq, Repr

/-- A life-log event record before it is written (R411). -/
structure EvRec where
  src : Nat
  kind : Nat
  sev : Nat
  info : Word
  page : Nat
  count : Nat
  detail : Nat
  time : Nat
  deriving DecidableEq, Repr

/-- An automatic action that an event calls for: the action of a FATAL event (page address, source index, information
word), or a health evaluation (R407). -/
inductive DueAct where
  | fatal (base : Nat) (idx : Nat) (info : Word)
  | evaluate
  deriving DecidableEq, Repr

/-- Faults and health. -/
structure FaultSt where
  /-- key page × 32 + source index -/
  counts : Tbl SrcCount := []
  fq : List FqEntry := []
  lostArmed : Bool := true
  /-- the minimum pulse of FAULT_N runs, and the power-on time it began last (R403) -/
  inMin : Bool := false
  pulseAt : Nat := 0
  /-- power-on time at which the current bucket of a page began, key page address / 256 (R397) -/
  bucketAt : Tbl Nat := []
  /-- automatic actions of this command's events not yet taken (R398, R407): empty between commands -/
  due : List DueAct := []
  /-- consecutive samples at or above TJ_TRIP, by sensor -/
  trips : Tbl Nat := []
  temps : Tbl (BitVec 16) := []
  droops : Tbl Nat := []
  margins : Tbl (Nat × Nat) := []
  /-- ageing shifts, by island: now and largest (R407, R415) -/
  ages : Tbl (BitVec 16 × BitVec 16) := []
  thermTrip : Bool := false
  aonTrip : Bool := false
  /-- times of the newest counted events and of the newest changes into the severe state of a unit (R407), key class of
  R407 × 65,536 + unit: as many as the score's caps can see -/
  events : Tbl (List Nat) := []
  changes : Tbl (List Nat) := []
  /-- WATCH and ACTED, key class × 65,536 + unit -/
  watch : Tbl Bool := []
  acted : Tbl Bool := []
  score : Tbl Nat := []
  /-- ages in minutes since taken are measured from these clk times -/
  actions : List Nat := []
  exhausted : Bool := false
  deriving DecidableEq, Repr

/-- A day of a domain for its daily summary (R412): extremes of its sensors' temperatures, least margin, largest ageing shift,
least score; and the droop events and corrected errors counted before the day began. -/
structure DomDay where
  hot : Option Int := none
  cool : Option Int := none
  margin : Nat := 255
  age : Int := 0
  score : Nat := 1000
  droops : Nat := 0
  errors : Nat := 0
  deriving DecidableEq, Repr

/-- The life log (R410 to R418): its bytes and what waits to be written. -/
structure LifeSt where
  /-- endurance used, in % (R418) -/
  wear : Nat := 0
  /-- the day so far, by domain (R412) -/
  day : Tbl DomDay := []
  mem : Memory := []
  pend : List EvRec := []
  /-- times of the records written of each (page, source) in the last second (R411) -/
  recent : Tbl (List Nat) := []
  /-- failed writes of the first waiting record (R413) -/
  retries : Nat := 0
  /-- the lasers logged, by the module's vendor, part and serial number (R368) -/
  lasers : List (List Word × Laser) := []
  deriving DecidableEq, Repr

/-! ## Power, reset, boot, security (R419 to R449, R454 to R456, R471, R472) -/

/-- The power manager's own state (R421 to R428). -/
structure PwrSt where
  /-- the samples of the last 100 ms, newest first, their number and their sum in W (R425) -/
  win : List Nat := []
  winLen : Nat := 0
  winSum : Nat := 0
  /-- power-on time of the last step of a lever (R427), and of the start of a quarter's operating-point step (R421) -/
  leverAt : Nat := 0
  stepAt : Tbl Nat := []
  /-- operating-point step in progress: 1 down, 2 up, by quarter -/
  stepping : Tbl Nat := []
  /-- power-on time in ns at which the EDC response stops holding, 0 for none -/
  edcUntil : Nat := 0
  /-- samples above `TDP_W` in a row, and samples since the mean was last within 50 W of it -/
  edcRun : Nat := 0
  calm : Nat := 0
  /-- darkened units outside the clusters: DSP group g, and 64 + accelerator engine -/
  dark : Tbl Bool := []
  /-- consecutive samples at or above `TJ_WARN`, and at least 3 °C below it, by sensor (R428) -/
  hot : Tbl Nat := []
  cool : Tbl Nat := []
  /-- power-on time at which a droop's ceiling of a cluster ends -/
  droopUntil : Tbl Nat := []
  deriving DecidableEq, Repr

/-- Resets in progress (R429, R430). -/
structure RstSt where
  cold : Bool := true
  warm : Bool := false
  doms : List Nat := []
  units : List Nat := []
  /-- domain resets that wait for one of a stack or of its quarter to end (R430) -/
  domWait : List Nat := []
  /-- pins and supplies -/
  sysResetN : Bool := false
  vinOk : Bool := true
  aonOk : Bool := true
  deriving DecidableEq, Repr

/-- Boot (R435 to R437, R442). -/
structure BootSt where
  phase : Nat := 0
  ready : Bool := false
  recovery : Bool := false
  wasRecovery : Bool := false
  fallback : Bool := false
  bank : Nat := 0
  deriving DecidableEq, Repr

/-- Fuses, flash and security (R438 to R449). -/
structure SecSt where
  /-- LC_STATE codes of R439 -/
  lc : Nat := 1
  /-- the state that an accepted transition moves to at the cold reset it ends in -/
  nextLc : Option Nat := none
  /-- owner slots: the public keys whose hashes are fused, oldest first, and the slots revoked -/
  owners : List (List Byte) := []
  ownerRevoked : BitVec 4 := 0
  /-- owner key that an accepted transition into FIELD fuses -/
  nextOwner : List Byte := []
  svnMin : BitVec 6 := 0
  /-- revoked firmware-key slots -/
  revoked : BitVec 4 := 0
  killed : Bool := false
  debugOpen : Bool := false
  /-- order code of R1: 0 CX9448-A, 1 -B, 2 -C -/
  variant : Nat := 0
  /-- flash banks A and B, the bank that the next cold reset boots, and the image that runs -/
  flashA : Option FwImage := some { sigOk := true, slot := 0, version := 0x01000000, svn := 0, len := 0 }
  flashB : Option FwImage := none
  nextBank : Nat := 0
  running : Option FwImage := none
  /-- a staging is under way -/
  staging : Bool := false
  /-- nonces drawn, and the nonce of `LC_NONCE0` to `LC_NONCE7` -/
  draws : Nat := 0
  nonce : BitVec 256 := 0
  meas5 : BitVec 256 := 0
  /-- SPDM (R445): 0 nothing, 1 version, 2 capabilities, 3 algorithms agreed; sessions, established or in handshake -/
  spdmStage : Nat := 0
  sessions : Tbl Bool := []
  nextSid : Nat := 1
  /-- requests answered, as the transcript of an answer (log 2) -/
  transcript : Nat := 0
  /-- instruction that the TAP holds (R472) -/
  tap : TapIns := .idcode
  deriving DecidableEq, Repr

/-- The whole device. -/
structure State where
  /-- commands that wait, first in first out -/
  pending : List Instr := []
  /-- BAR0 registers by address; an unlisted address reads its reset value -/
  regs : Tbl Word := []
  /-- the R12 latches and staged halves, key requestor × 2^28 + address of the _LO register -/
  latch : Tbl Word := []
  staged : Tbl (Option Word) := []
  /-- what the last register read returned; one of fewer than 64 bits fills the low bytes (R7) -/
  rdata : BitVec 64 := 0
  /-- what the last device-level memory read returned, `none` for poison -/
  mdata : Option (List Byte) := none
  map : MapSt := {}
  hbm : Memory := []
  host : Memory := []
  /-- cluster stores, physical cluster × 0x30_0000 + offset -/
  store : Memory := []
  /-- DSP memories, core × 0x8_0000 + X 0, Y 0x2_0000, program 0x4_0000 -/
  dspMem : Memory := []
  /-- erring positions of its 64-bit words (R316) -/
  dspEcc : Tbl (List Nat) := []
  /-- poisoned lines (address div 64) of HBM and of the cluster stores -/
  poison : List Nat := []
  csPoison : List Nat := []
  /-- erring positions of stored words, key address div 8 -/
  ecc : Tbl (List Nat) := []
  csEcc : Tbl (List Nat) := []
  /-- HBM lines corrected on read, waiting for their write-back -/
  wb : List Nat := []
  seqs : Tbl Seq := []
  /-- clusters; under 300 + k the vector unit, the movers and the task of a preempted stream that has left the chorus units
  of cluster k to the incoming owner and is not yet quiet (R117) -/
  cls : Tbl Cluster := []
  sh : StagehandSt := {}
  work : WorkSt := {}
  ro : RoSt := {}
  dsp : Tbl DspCore := []
  acc : Tbl AccSt := []
  eth : Tbl EthSt := []
  time : TimeSt := {}
  hc : Tbl HbmCh := []
  wipes : List WipeScope := []
  /-- time of the power-on clock at which the full wipe began (R327) -/
  wipeAt : Nat := 0
  links : Tbl Link := []
  fab : FabSt := {}
  mods : Tbl OptMod := []
  und : UndSt := {}
  hst : HostSt := {}
  flt : FaultSt := {}
  life : LifeSt := {}
  pwr : PwrSt := {}
  rst : RstSt := {}
  boot : BootSt := {}
  sec : SecSt := {}
  out : List OutMsg := []
  /-- the model's own counter of free values drawn (log 2) -/
  free : Nat := 0
  deriving DecidableEq, Repr

/-- The machine right after reset: a cold reset holds it, supplies in range and SYS_RESET_N low, before t0 of R435.
Every register stands at its reset value (an empty `regs`). Fuse values are the model's (log 4). -/
def State.reset : State := {}

end Sys2Proof.Machine
end

