-- ==== Sys2Proof/Machine/Ops.lean ====
section
/-! DEFINITION. The named operations over sparse tables, byte memories and bit fields that every other file uses. -/

namespace Sys2Proof.Machine

/-! ## Sparse tables -/

/-- What a table holds under key `k`; `d` is what an unlisted key reads as. -/
def Tbl.get {α : Type} (d : α) : Tbl α → Nat → α
  | [], _ => d
  | (i, v) :: t, k => if i = k then v else Tbl.get d t k

/-- The entry listed under key `k`, for a table without a default. -/
def Tbl.look {α : Type} : Tbl α → Nat → Option α
  | [], _ => none
  | (i, v) :: t, k => if i = k then some v else Tbl.look t k

/-- List `v` under key `k`, keeping the keys rising. -/
def Tbl.put {α : Type} : Tbl α → Nat → α → Tbl α
  | [], k, v => [(k, v)]
  | (i, w) :: t, k, v =>
    if k < i then (k, v) :: (i, w) :: t else if k = i then (k, v) :: t else (i, w) :: Tbl.put t k v

/-- Drop the entry of key `k`. -/
def Tbl.del {α : Type} (t : Tbl α) (k : Nat) : Tbl α := t.filter fun p => p.1 != k

/-- Store `v` under key `k`, keeping the keys rising and listing no default. -/
def Tbl.set {α : Type} [DecidableEq α] (d : α) (t : Tbl α) (k : Nat) (v : α) : Tbl α :=
  if v = d then t.del k else t.put k v

/-- Keys above `b` in strictly rising order, and no entry equal to its key's default. -/
def Tbl.above {α : Type} [DecidableEq α] (d : Nat → α) : Option Nat → Tbl α → Bool
  | _, [] => true
  | b, (i, v) :: t =>
    (match b with
      | none => true
      | some j => decide (j < i)) && decide (v ≠ d i) && Tbl.above d (some i) t

/-- The canonical form of a table. -/
def Tbl.wf {α : Type} [DecidableEq α] (d : Nat → α) (t : Tbl α) : Bool := Tbl.above d none t

/-- Change the entry of key `k`. -/
def Tbl.upd {α : Type} [DecidableEq α] (d : α) (t : Tbl α) (k : Nat) (f : α → α) : Tbl α :=
  Tbl.set d t k (f (Tbl.get d t k))

/-- Add to a rising list of numbers. -/
def addSorted (x : Nat) : List Nat → List Nat
  | [] => [x]
  | y :: t => if x < y then x :: y :: t else if x = y then y :: t else y :: addSorted x t

/-! ## Byte memories -/

/-- The canonical form of a memory: addresses strictly rising, no zero byte listed. -/
abbrev Memory.wf (m : Memory) : Bool := Tbl.wf (fun _ => (0 : Byte)) m

/-- One byte of a memory; an unlisted address reads zero (log 5). -/
def Memory.byte (m : Memory) (a : Nat) : Byte := Tbl.get 0 m a

/-- Store one byte. -/
def Memory.put (m : Memory) (a : Nat) (b : Byte) : Memory := Tbl.set 0 m a b

/-- `n` bytes from address `a` up. -/
def Memory.read (m : Memory) (a : Nat) : Nat → List Byte
  | 0 => []
  | n + 1 => m.byte a :: Memory.read m (a + 1) n

/-- Store bytes from address `a` up. -/
def Memory.write (m : Memory) (a : Nat) : List Byte → Memory
  | [] => m
  | b :: t => Memory.write (m.put a b) (a + 1) t

/-- Zero the `n` bytes from address `a` up: drop their entries. -/
def Memory.zero (m : Memory) (a n : Nat) : Memory := m.filter fun c => !(decide (a ≤ c.1) && decide (c.1 < a + n))

/-- Little-endian number of bytes. -/
def leNat : List Byte → Nat
  | [] => 0
  | b :: t => b.toNat + 256 * leNat t

/-- The `n` low bytes of a number, least significant first. -/
def leBytes : Nat → Nat → List Byte
  | 0, _ => []
  | n + 1, x => BitVec.ofNat 8 x :: leBytes n (x / 256)

/-- Big-endian number of bytes, for network headers. -/
def beNat (l : List Byte) : Nat := leNat l.reverse

/-- `n` bytes of a number, most significant first. -/
def beBytes (n x : Nat) : List Byte := (leBytes n x).reverse

/-- A number of `n` bytes at `a`. -/
def Memory.num (m : Memory) (a n : Nat) : Nat := leNat (m.read a n)

/-- Store a number in `n` bytes at `a`. -/
def Memory.putNum (m : Memory) (a n x : Nat) : Memory := m.write a (leBytes n x)

/-! ## Bit fields -/

/-- The `w` bits of `x` from bit `lo` (R4). -/
def bits (x lo w : Nat) : Nat := x / 2 ^ lo % 2 ^ w

/-- Whether bit `i` of `x` is 1. -/
def bit (x i : Nat) : Bool := bits x i 1 == 1

/-- Field [lo + w - 1 : lo] of a register. -/
def fld (r : Word) (lo w : Nat) : Nat := bits r.toNat lo w

/-- `r` with the field [lo + w - 1 : lo] set to `v`. -/
def setFld (r : Word) (lo w v : Nat) : Word :=
  let mask : Word := BitVec.ofNat 32 ((2 ^ w - 1) * 2 ^ lo)
  (r &&& ~~~mask) ||| (BitVec.ofNat 32 (v * 2 ^ lo) &&& mask)

/-- One bit as a number. -/
def bn (b : Bool) : Nat := if b then 1 else 0

/-- A natural number read as a two's complement number of `w` bits. -/
def signed (w x : Nat) : Int :=
  let y := x % 2 ^ w
  if y < 2 ^ (w - 1) then (y : Int) else (y : Int) - (2 ^ w : Nat)

/-- An integer as a two's complement field of `w` bits. -/
def unsigned (w : Nat) (x : Int) : Nat := (x % (2 ^ w : Nat)).toNat

/-- Clamp an integer to a range. -/
def clampInt (lo hi x : Int) : Int := if x < lo then lo else if hi < x then hi else x

/-- Add with saturation at 0xFFFF_FFFF, as a saturating counter does. -/
def satAdd (r : Word) (n : Nat) : Word := if r.toNat + n < 2 ^ 32 then r + BitVec.ofNat 32 n else BitVec.allOnes 32

/-- Round up to a multiple of `m`. -/
def roundUp (x m : Nat) : Nat := (x + m - 1) / m * m

/-- The `n`-byte pieces of a list, the last one possibly shorter; `fuel` bounds the number of pieces. -/
def pieces {α : Type} (n : Nat) : Nat → List α → List (List α)
  | 0, _ => []
  | _ + 1, [] => []
  | fuel + 1, l => l.take n :: pieces n fuel (l.drop n)

/-- First element of a list that satisfies `p`, as an index from `i`. -/
def findFrom {α : Type} (p : α → Bool) : List α → Nat → Option Nat
  | [], _ => none
  | x :: t, i => if p x then some i else findFrom p t (i + 1)

/-- Element `i` of a list, `d` beyond its end. -/
def nth {α : Type} (d : α) (l : List α) (i : Nat) : α := l.getD i d

/-- The lowest `i < n` with `p i`. -/
def least (p : Nat → Bool) (n : Nat) : Option Nat := (List.range n).find? p

/-- Number of `i < n` with `p i`. -/
def count (p : Nat → Bool) (n : Nat) : Nat := ((List.range n).filter p).length

/-- Sum of a function over a list. -/
def sumBy {α : Type} (f : α → Nat) (l : List α) : Nat := l.foldl (fun n x => n + f x) 0

/-- Largest value of a function over a list, 0 if empty. -/
def maxBy {α : Type} (f : α → Nat) (l : List α) : Nat := l.foldl (fun n x => max n (f x)) 0

/-- Minimum of a function over a list, `d` if empty. -/
def minBy {α : Type} (d : Nat) (f : α → Nat) (l : List α) : Nat := l.foldl (fun n x => min n (f x)) d

end Sys2Proof.Machine
end

