-- ==== Sys2Proof/Machine/Codes.lean ====
section
/-! DEFINITION. Digests, CRCs and the pseudo-random sequence: SHA3-256 (R28, R190), CRC-32C (R411), the CRCs of R247 and
the Gold sequence of R248. -/

namespace Sys2Proof.Machine

/-! ## SHA3-256 (FIPS 202; log 6)

The 1,600 bits stand as 25 words, the one of column x and plane y at x + 5 y. Its constants are generated as the standard
defines them: the rotations by the walk over the lanes, the bits of the round constants by the shift register of degree 8. -/

/-- The words that a function of column and plane gives. -/
def planes (f : Nat → Nat → BitVec 64) : List (BitVec 64) := (List.range 25).map fun i => f (i % 5) (i / 5)

/-- The word of a column and a plane, each taken modulo 5. -/
def spongeWord (a : List (BitVec 64)) (x y : Nat) : BitVec 64 := nth 0 a (x % 5 + 5 * (y % 5))

/-- The walk of the rotations: where step t stands, and the triangular number it rotates by. -/
def rotWalk : Nat → Nat → Nat → Nat → List (Nat × Nat)
  | 0, _, _, _ => [(0, 0)]
  | k + 1, t, x, y => (x + 5 * y, (t + 1) * (t + 2) / 2 % 64) :: rotWalk k (t + 1) y ((2 * x + 3 * y) % 5)

/-- The rotation of every word. -/
def rotations : List (Nat × Nat) := rotWalk 24 0 1 0

/-- Shift register steps that one round constant takes: bit 2^j − 1 of the constant is the register's low bit. -/
def roundConst : Nat → Nat → Nat → Nat × BitVec 64
  | 0, _, r => (r, 0)
  | k + 1, j, r =>
    let rest := roundConst k (j + 1) (if 128 ≤ r then (2 * r) ^^^ 0x171 else 2 * r)
    (rest.1, if r % 2 = 1 then rest.2 ||| (1#64 <<< (2 ^ j - 1)) else rest.2)

/-- The five steps of a round: column parities, rotation, transposition, the non-linear row step, the round constant. -/
def spongeRound (a : List (BitVec 64)) (rc : BitVec 64) : List (BitVec 64) :=
  let par := (List.range 5).map fun x => (List.range 5).foldl (fun p y => p ^^^ spongeWord a x y) 0
  let mixed := planes fun x y => spongeWord a x y ^^^ spongeWord par (x + 4) 0 ^^^ (spongeWord par (x + 1) 0).rotateLeft 1
  let turned := planes fun x y => (spongeWord mixed x y).rotateLeft (Tbl.get 0 rotations (x + 5 * y))
  let moved := planes fun x y => spongeWord turned (x + 3 * y) x
  match planes (fun x y => spongeWord moved x y ^^^ (spongeWord moved (x + 2) y &&& ~~~(spongeWord moved (x + 1) y))) with
  | [] => []
  | w :: rest => (w ^^^ rc) :: rest

/-- `n` rounds from a shift register's content on. -/
def spongeRounds : Nat → Nat → List (BitVec 64) → List (BitVec 64)
  | 0, _, a => a
  | n + 1, r, a =>
    let c := roundConst 7 0 r
    spongeRounds n c.1 (spongeRound a c.2)

/-- The sponge takes in the 136-byte blocks of a padded message; `n` bounds their number. -/
def spongeAbsorb : Nat → List Byte → List (BitVec 64) → List (BitVec 64)
  | 0, _, a => a
  | _ + 1, [], a => a
  | n + 1, m, a =>
    let add := (a.zipIdx).map fun p =>
      if p.2 < 17 then p.1 ^^^ BitVec.ofNat 64 (leNat ((m.drop (8 * p.2)).take 8)) else p.1
    spongeAbsorb n (m.drop 136) (spongeRounds 24 1 add)

/-- SHA3-256; byte 0 of the digest in bits [7:0]. The padding adds the domain bits 01 and the 1 that opens it, and the 1 that
closes the last block. -/
def sha3 (m : List Byte) : BitVec 256 :=
  let blocks := m.length / 136 + 1
  let fill := (m ++ [0x06] ++ List.replicate (blocks * 136 - m.length - 1) 0)
  let padded := fill.dropLast ++ [fill.getLastD 0 ||| 0x80]
  ((spongeAbsorb blocks padded (List.replicate 25 0)).take 4).foldr (fun w d => d <<< 64 ||| w.setWidth 256) 0

/-! ## CRCs -/

/-- One bit of the reflected CRC-32C (polynomial 0x1EDC6F41). -/
def crc32cBit (c : BitVec 32) : BitVec 32 := if c.getLsbD 0 then (c >>> 1) ^^^ 0x82F63B78 else c >>> 1

/-- One byte of CRC-32C. -/
def crc32cByte (c : BitVec 32) (b : Byte) : BitVec 32 :=
  (List.range 8).foldl (fun c _ => crc32cBit c) (c ^^^ b.setWidth 32)

/-- CRC-32C. -/
def crc32c (m : List Byte) : BitVec 32 := ~~~(m.foldl crc32cByte (BitVec.allOnes 32))

/-- A CRC of `w` bits over bits, first bit most significant, from zero, polynomial without its leading term (R247). -/
def crcBits (w poly : Nat) (l : List Bool) : Nat :=
  l.foldl (fun r b =>
    let top := bit r (w - 1) != b
    let r' := 2 * r % 2 ^ w
    if top then r' ^^^ poly else r') 0

/-- The CRC-32 of Ethernet (IEEE 802.3), reflected. -/
def crc32Byte (c : BitVec 32) (b : Byte) : BitVec 32 :=
  (List.range 8).foldl (fun c _ => if c.getLsbD 0 then (c >>> 1) ^^^ 0xEDB88320 else c >>> 1) (c ^^^ b.setWidth 32)

/-- The frame check sequence of a frame without it. -/
def fcsOf (m : List Byte) : BitVec 32 := ~~~(m.foldl crc32Byte (BitVec.allOnes 32))

/-! ## The Gold sequence (TS 38.211, R248; log 6) -/

/-- One step of the first shift register: x(n + 31) = x(n + 3) + x(n). -/
def goldStep1 (x : BitVec 31) : BitVec 31 :=
  (x >>> 1) ||| (if x.getLsbD 3 != x.getLsbD 0 then 0x40000000 else 0)

/-- One step of the second: x(n + 31) = x(n + 3) + x(n + 2) + x(n + 1) + x(n). -/
def goldStep2 (x : BitVec 31) : BitVec 31 :=
  (x >>> 1) ||| (if (x.getLsbD 3 != x.getLsbD 2) != (x.getLsbD 1 != x.getLsbD 0) then 0x40000000 else 0)

/-- Advance both registers `n` steps. -/
def goldSkip : Nat → BitVec 31 × BitVec 31 → BitVec 31 × BitVec 31
  | 0, p => p
  | n + 1, p => goldSkip n (goldStep1 p.1, goldStep2 p.2)

/-- `n` bits of the sequence from the registers on. -/
def goldRun : Nat → BitVec 31 × BitVec 31 → List Bool
  | 0, _ => []
  | n + 1, p => (p.1.getLsbD 0 != p.2.getLsbD 0) :: goldRun n (goldStep1 p.1, goldStep2 p.2)

/-- Bits c(first) to c(first + n − 1) of the sequence with the given c_init. -/
def gold (cinit first n : Nat) : List Bool := goldRun n (goldSkip (1600 + first) (1, BitVec.ofNat 31 cinit))

/-- Bits of bytes, most significant bit of each byte first. -/
def bitsOfBytes (l : List Byte) : List Bool := l.flatMap fun b => (List.range 8).map fun i => b.getLsbD (7 - i)

/-- Bytes of bits, first bit most significant; the last byte is filled with zeros. -/
def bytesOfBits (l : List Bool) : List Byte :=
  (pieces 8 (l.length / 8 + 1) l).map fun p =>
    BitVec.ofNat 8 ((List.range 8).foldl (fun n i => 2 * n + bn (nth false p i)) 0)

/-- A number of `w` bits as bits, most significant first. -/
def natBits (w x : Nat) : List Bool := (List.range w).map fun i => bit x (w - 1 - i)

/-- The number that bits spell, most significant first. -/
def bitsNat (l : List Bool) : Nat := l.foldl (fun n b => 2 * n + bn b) 0

end Sys2Proof.Machine
end

