-- ==== Sys2Proof/Machine/Operands.lean ====
section
/-! DEFINITION. Element formats, block containers, rounding, the stochastic draw, the accumulators and the arithmetic of
the cluster engines (R33 to R63, R475, R82, R83). -/

namespace Sys2Proof.Machine

/-! ## Values -/

/-- A value: NaN, an infinity, or the exact finite number ± mag × 2^exp. -/
inductive Val where
  | nan
  | inf (neg : Bool)
  | fin (neg : Bool) (mag : Nat) (exp : Int)
  deriving DecidableEq, Repr

/-- Whether a value is a zero of either sign. -/
def Val.isZero : Val → Bool
  | .fin _ 0 _ => true
  | _ => false

/-- Whether a value is finite. -/
def Val.isFin : Val → Bool
  | .fin _ _ _ => true
  | _ => false

/-- Sign of a value. -/
def Val.neg : Val → Bool
  | .nan => false
  | .inf n => n
  | .fin n _ _ => n

/-- The value without its sign. -/
def Val.abs : Val → Val
  | .nan => .nan
  | .inf _ => .inf false
  | .fin _ m e => .fin false m e

/-- The value with its sign turned. -/
def Val.negate : Val → Val
  | .nan => .nan
  | .inf n => .inf (!n)
  | .fin n m e => .fin (!n) m e

/-- An integer as a value. -/
def Val.ofInt (x : Int) : Val := .fin (decide (x < 0)) x.natAbs 0

/-- Signed integer of a finite value scaled to exponent `e`, which must not exceed the value's own. -/
def scaledTo (neg : Bool) (mag : Nat) (exp e : Int) : Int :=
  let m : Int := mag * 2 ^ (exp - e).toNat
  if neg then -m else m

/-- Order of two finite magnitudes. -/
def magLe (m1 : Nat) (e1 : Int) (m2 : Nat) (e2 : Int) : Bool :=
  let e := min e1 e2
  decide (m1 * 2 ^ (e1 - e).toNat ≤ m2 * 2 ^ (e2 - e).toNat)

/-- Exact sum; a zero sum of opposite signs is +0 (IEEE 754-2019, R52). -/
def Val.add : Val → Val → Val
  | .nan, _ | _, .nan => .nan
  | .inf a, .inf b => if a = b then .inf a else .nan
  | .inf a, _ => .inf a
  | _, .inf b => .inf b
  | .fin n1 m1 e1, .fin n2 m2 e2 =>
    let e := min e1 e2
    let s := scaledTo n1 m1 e1 e + scaledTo n2 m2 e2 e
    if s = 0 then .fin (n1 && n2) 0 0 else .fin (decide (s < 0)) s.natAbs e

/-- Exact product. -/
def Val.mul : Val → Val → Val
  | .nan, _ | _, .nan => .nan
  | .inf a, .inf b => .inf (a != b)
  | .inf a, .fin n m _ => if m = 0 then .nan else .inf (a != n)
  | .fin n m _, .inf b => if m = 0 then .nan else .inf (n != b)
  | .fin n1 m1 e1, .fin n2 m2 e2 => .fin (n1 != n2) (m1 * m2) (e1 + e2)

/-- Less than; false when either is NaN, and the two zeros are equal. -/
def Val.lt : Val → Val → Bool
  | .nan, _ | _, .nan => false
  | .inf a, .inf b => a && !b
  | .inf a, _ => a
  | _, .inf b => !b
  | .fin n1 m1 e1, .fin n2 m2 e2 =>
    let e := min e1 e2
    decide (scaledTo n1 m1 e1 e < scaledTo n2 m2 e2 e)

/-- Integer square root by bits: the largest r below 2^n with r × r ≤ x. -/
def isqrt (x : Nat) : Nat → Nat → Nat
  | 0, r => r
  | n + 1, r => isqrt x n (if (r + 2 ^ n) * (r + 2 ^ n) ≤ x then r + 2 ^ n else r)

/-- Quotient with at least 64 significant bits below which one bit says whether more follow: enough for every rounding. -/
def Val.div : Val → Val → Val
  | .nan, _ | _, .nan => .nan
  | .inf _, .inf _ => .nan
  | .inf a, .fin n _ _ => .inf (a != n)
  | .fin n _ _, .inf b => .fin (n != b) 0 0
  | .fin n1 m1 e1, .fin n2 m2 e2 =>
    if m2 = 0 then (if m1 = 0 then .nan else .inf (n1 != n2))
    else
      let k := 128 + Nat.log2 m2
      let q := m1 * 2 ^ k / m2
      let st := if m1 * 2 ^ k % m2 = 0 then 0 else 1
      .fin (n1 != n2) (2 * q + st) (e1 - e2 - k - 1)

/-- Square root, in the same form. -/
def Val.sqrt : Val → Val
  | .nan => .nan
  | .inf n => if n then .nan else .inf false
  | .fin n m e =>
    if m = 0 then .fin n 0 0
    else if n then .nan
    else
      let m' := if e % 2 = 0 then m else 2 * m
      let e' := if e % 2 = 0 then e else e - 1
      let x := m' * 2 ^ 256
      let r := isqrt x (Nat.log2 x / 2 + 1) 0
      .fin false (2 * r + (if r * r = x then 0 else 1)) (e' / 2 - 128 - 1)

/-- Reciprocal square root, in the same form. -/
def Val.rsqrt : Val → Val
  | .nan => .nan
  | .inf n => if n then .nan else .fin false 0 0
  | .fin n m e =>
    if m = 0 then .inf n
    else if n then .nan
    else
      let m' := if e % 2 = 0 then m else 2 * m
      let e' := if e % 2 = 0 then e else e - 1
      let k := 128 + Nat.log2 m'
      let x := 2 ^ (2 * k) / m'
      let r := isqrt x (Nat.log2 x / 2 + 1) 0
      .fin false (2 * r + (if r * r * m' = 2 ^ (2 * k) then 0 else 1)) (-(e' / 2) - k - 1)

/-! ## Formats (R33 to R36) -/

/-- A format: float or integer, storage width in bits, exponent and significand widths, bias, the low bits of the storage
that carry nothing (E8M10), and whether it has infinity. -/
structure Fmt where
  code : Nat
  isInt : Bool
  width : Nat
  expW : Nat
  sigW : Nat
  bias : Int
  pad : Nat
  hasInf : Bool
  deriving DecidableEq, Repr

/-- The formats of R33 by FMT code. -/
def fmtOf : Nat → Fmt
  | 0 => ⟨0, false, 32, 8, 23, 127, 0, true⟩
  | 1 => ⟨1, false, 64, 11, 52, 1023, 0, true⟩
  | 2 => ⟨2, false, 32, 8, 10, 127, 13, true⟩
  | 3 => ⟨3, false, 16, 8, 7, 127, 0, true⟩
  | 4 => ⟨4, false, 16, 5, 10, 15, 0, true⟩
  | 5 => ⟨5, false, 8, 4, 3, 7, 0, false⟩
  | 6 => ⟨6, false, 8, 5, 2, 15, 0, true⟩
  | 7 => ⟨7, false, 6, 3, 2, 3, 0, false⟩
  | 8 => ⟨8, false, 6, 2, 3, 1, 0, false⟩
  | 9 => ⟨9, false, 4, 2, 1, 1, 0, false⟩
  | 10 => ⟨10, true, 32, 0, 0, 0, 0, false⟩
  | 11 => ⟨11, true, 16, 0, 0, 0, 0, false⟩
  | 12 => ⟨12, true, 8, 0, 0, 0, 0, false⟩
  | 13 => ⟨13, true, 8, 0, 0, 0, 0, false⟩
  | 14 => ⟨14, true, 4, 0, 0, 0, 0, false⟩
  | _ => ⟨15, false, 8, 8, 0, 127, 0, false⟩

/-- Narrow formats of the chorus path (R51). -/
def isNarrow (f : Nat) : Bool := [5, 6, 7, 8, 9, 12, 14].contains f

/-- 16-bit class formats (R51, R68). -/
def isHalf (f : Nat) : Bool := [2, 3, 4].contains f

/-- Smallest and largest integer of an integer format. -/
def intRange (f : Fmt) : Int × Int :=
  if f.code = 13 then (0, 255) else (-(2 ^ (f.width - 1) : Nat), (2 ^ (f.width - 1) : Nat) - 1)

/-- Largest biased exponent of a finite number, and the largest significand field there (R33, R34). -/
def maxField (f : Fmt) : Nat × Nat :=
  if f.hasInf then (2 ^ f.expW - 2, 2 ^ f.sigW - 1)
  else if f.code = 5 then (15, 6)
  else (2 ^ f.expW - 1, 2 ^ f.sigW - 1)

/-- Largest finite magnitude of a float format, as mag × 2^exp. -/
def maxFinite (f : Fmt) : Nat × Int :=
  let m := maxField f
  (2 ^ f.sigW + m.2, (m.1 : Int) - f.bias - f.sigW)

/-- Canonical NaN codes (R36). -/
def nanCode : Nat → Nat
  | 1 => 0x7FF8000000000000
  | 3 => 0x7FC0
  | 4 => 0x7E00
  | 5 => 0x7F
  | 6 => 0x7E
  | _ => 0x7FC00000

/-- The value of a code (R34, R35). -/
def decodeFmt (f : Fmt) (c : Nat) : Val :=
  if f.isInt then (if f.code = 13 then .fin false (c % 256) 0 else Val.ofInt (signed f.width c))
  else if f.code = 15 then (if c % 256 = 255 then .nan else .fin false 1 ((c % 256 : Nat) - 127))
  else
    let x := c / 2 ^ f.pad
    let sig := bits x 0 f.sigW
    let ex := bits x f.sigW f.expW
    let s := bit x (f.sigW + f.expW)
    if f.hasInf && ex == 2 ^ f.expW - 1 then (if sig = 0 then .inf s else .nan)
    else if f.code = 5 ∧ ex = 15 ∧ sig = 7 then .nan
    else if ex = 0 then .fin s sig (1 - f.bias - f.sigW)
    else .fin s (2 ^ f.sigW + sig) ((ex : Int) - f.bias - f.sigW)

/-! ## Rounding (R45 to R47) -/

/-- Round mag × 2^e to a multiple of 2^u: mode 0 nearest even, 1 toward zero, 2 stochastic with draw `r`. -/
def roundAt (mode r mag : Nat) (e u : Int) : Nat :=
  if u ≤ e then mag * 2 ^ (e - u).toNat
  else
    let d := (u - e).toNat
    let t := mag / 2 ^ d
    let rem := mag % 2 ^ d
    let up :=
      if mode = 0 then decide (2 ^ d < 2 * rem) || (decide (2 * rem = 2 ^ d) && decide (t % 2 = 1))
      else if mode = 1 then false
      else decide (65536 ≤ rem * 65536 / 2 ^ d + r)
    if up then t + 1 else t

/-- Round to a significand of `m` fraction bits and smallest normal exponent `emin`, with no upper limit on the exponent:
the rounded magnitude t × 2^u. -/
def roundFloat (m : Nat) (emin : Int) (mode r mag : Nat) (e : Int) : Nat × Int :=
  if mag = 0 then (0, emin - m)
  else
    let u := max ((Nat.log2 mag : Int) + e) emin - m
    (roundAt mode r mag e u, u)

/-- The code of a finite magnitude t × 2^u that a float format represents. -/
def encodeFin (f : Fmt) (s : Bool) (t : Nat) (u : Int) : Nat :=
  let carry := decide (2 ^ (f.sigW + 1) ≤ t)
  let t := if carry then t / 2 else t
  let u := if carry then u + 1 else u
  let body := if t < 2 ^ f.sigW then t else (u + f.sigW + f.bias).toNat * 2 ^ f.sigW + (t - 2 ^ f.sigW)
  (body + bn s * 2 ^ (f.sigW + f.expW)) * 2 ^ f.pad

/-- What a conversion counts (R62), at most one per value (R63). -/
inductive CFlag where
  | none
  | nan
  | sat
  | fbs
  | flush
  deriving DecidableEq, Repr

/-- Scalar conversion of a value (R46, R47, R61): the code and what it counts. -/
def convert (f : Fmt) (mode : Nat) (ovf : Bool) (r : Nat) (v : Val) : Nat × CFlag :=
  if f.isInt then
    let lim := intRange f
    let put := fun (x : Int) => unsigned f.width x
    match v with
    | .nan => (0, .nan)
    | .inf s => (put (if s then lim.1 else lim.2), .sat)
    | .fin s m e =>
      let t : Int := roundAt mode r m e 0
      let x := if s then -t else t
      if x < lim.1 then (put lim.1, .sat)
      else if lim.2 < x then (put lim.2, .sat)
      else if x = 0 ∧ m ≠ 0 then (0, .flush)
      else (put x, .none)
  else
    let top := maxFinite f
    let sgn := fun (s : Bool) => bn s * 2 ^ (f.sigW + f.expW) * 2 ^ f.pad
    let infCode := fun (s : Bool) => (2 ^ f.expW - 1) * 2 ^ f.sigW * 2 ^ f.pad + sgn s
    match v with
    | .nan => (nanCode f.code, .nan)
    | .inf s => if f.hasInf then (infCode s, .none) else (nanCode f.code, .nan)
    | .fin s m e =>
      let (t, u) := roundFloat f.sigW (1 - f.bias) mode r m e
      if t = 0 then (sgn s, if m = 0 then .none else .flush)
      else if !magLe t u top.1 top.2 then
        (if f.hasInf && ovf && mode != 1 then infCode s else encodeFin f s top.1 top.2, .sat)
      else (encodeFin f s t u, .none)

/-- Round to nearest even in FP32, as the accumulators and the vector unit do (R45, R52). -/
def toF32 (v : Val) : Nat := (convert (fmtOf 0) 0 true 0 v).1

/-- The value of an FP32 code. -/
def ofF32 (c : Nat) : Val := decodeFmt (fmtOf 0) c

/-- FP32 sum, product and fused product-sum, rounded once to nearest even. -/
def f32add (a b : Nat) : Nat := toF32 ((ofF32 a).add (ofF32 b))
def f32mul (a b : Nat) : Nat := toF32 ((ofF32 a).mul (ofF32 b))
def f32fma (a b c : Nat) : Nat := toF32 (((ofF32 a).mul (ofF32 b)).add (ofF32 c))
def f32neg (a : Nat) : Nat := if ofF32 a = .nan then nanCode 0 else a ^^^ 0x80000000

/-! ## Stochastic draws (R48, R49) -/

/-- The generator of R48. -/
def srBlock (key ctr : BitVec 64) : BitVec 64 :=
  let step := fun (p : BitVec 64 × BitVec 64) =>
    let k := p.2 + 0x9E3779B97F4A7C15
    let x := p.1 ^^^ (p.1 >>> 29)
    let x := x * 0xB7E151628AED2A6B
    let x := x ^^^ k
    (x.rotateLeft 23, k)
  let p := step (step (step (step (ctr ^^^ key, key))))
  p.1 ^^^ (p.1 >>> 32)

/-- The 16-bit draw of the value at position `q` = SR_BASE + e (R49). -/
def srDraw (key stream q : Nat) : Nat :=
  let q := q % 2 ^ 48
  let w := srBlock (BitVec.ofNat 64 key) (BitVec.ofNat 64 (stream * 2 ^ 48 + q / 4))
  bits w.toNat (16 * (q % 4)) 16

/-! ## The numeric control word (R58, R59) -/

/-- Fields of the numeric control word. -/
structure Ncw where
  fmt : Nat
  cont : Nat
  rmode : Nat
  ovf : Bool
  shift : Nat
  pairs : Bool
  stream : Nat
  deriving DecidableEq, Repr

/-- Decode a numeric control word. -/
def ncwOf (w : Nat) : Ncw :=
  { fmt := bits w 0 4, cont := bits w 4 3, rmode := bits w 7 2, ovf := bit w 9,
    shift := if bits w 10 4 = 0 then 6 else bits w 10 4, pairs := bit w 14, stream := bits w 16 16 }

/-- Elements of a block of a container (R38). -/
def contN (c : Nat) : Nat := if c = 1 ∨ c = 3 then 32 else 16

/-- Whether a container has soloists. -/
def contSolo (c : Nat) : Bool := c == 3 || c == 4

/-- Whether a format and container pair passes R59. -/
def pairOk (fmt cont : Nat) : Bool :=
  decide (cont ≤ 4) && decide (fmt ≠ 15) &&
    (if cont = 0 then !([7, 8, 9].contains fmt) else isNarrow fmt)

/-- Whether a numeric control word passes R59. -/
def ncwOk (w : Nat) : Bool :=
  let n := ncwOf w
  pairOk n.fmt n.cont && decide (n.rmode ≤ 2) && !bit w 15 &&
    (!n.pairs || (n.rmode == 0 && n.fmt == 0 && n.cont == 0))

/-- Bytes that `n` packed elements of a format occupy. -/
def packedBytes (fmt n : Nat) : Nat := ((fmtOf fmt).width * n + 7) / 8

/-- Element `i` of packed elements held as one little-endian number (R35, R39). -/
def element (fmt x i : Nat) : Nat := bits x ((fmtOf fmt).width * i) (fmtOf fmt).width

/-- Packed elements as one little-endian number. -/
def packElems (fmt : Nat) (l : List Nat) : Nat :=
  l.foldr (fun c n => c % 2 ^ (fmtOf fmt).width + 2 ^ (fmtOf fmt).width * n) 0

/-! ## Blocks (R39 to R44, R475) -/

/-- A soloist word in effect: its index and its FP16 code. -/
def soloOf (solo : Bool) (n w : Nat) : Option (Nat × Nat) :=
  if solo && bit w 24 && decide (bits w 16 5 < n) then some (bits w 16 5, bits w 0 16) else none

/-- Whether a block decodes to NaN (R40). -/
def blockNan (solo : Bool) (n scale w : Nat) : Bool := scale == 0xFF || (solo && bit w 24 && decide (n ≤ bits w 16 5))

/-- Value of element `i` of a block (R40). -/
def blockValue (fmt cont scale word i code : Nat) : Val :=
  if blockNan (contSolo cont) (contN cont) scale word then .nan
  else match soloOf (contSolo cont) (contN cont) word with
    | some (j, c) => if i = j then decodeFmt (fmtOf 4) c else
        (match decodeFmt (fmtOf fmt) code with
          | .fin s m e => .fin s m (e + scale - 127)
          | v => v)
    | none =>
      match decodeFmt (fmtOf fmt) code with
      | .fin s m e => .fin s m (e + scale - 127)
      | v => v

/-- Largest finite value of a block's element format (R41). -/
def emaxOf (fmt : Nat) : Nat × Int :=
  if fmt = 12 then (127, 0) else if fmt = 14 then (7, 0) else maxFinite (fmtOf fmt)

/-- Magnitude and exponent of a finite value. -/
def magOf : Val → Nat × Int
  | .fin _ m e => (m, e)
  | _ => (0, 0)

/-- Larger of two magnitudes. -/
def magMax (a b : Nat × Int) : Nat × Int := if magLe a.1 a.2 b.1 b.2 then b else a

/-- Smallest integer x with a ≤ emax × 2^x, for a nonzero magnitude a. -/
def smallestScale (a emax : Nat × Int) : Int :=
  let x0 := (Nat.log2 a.1 : Int) + a.2 - ((Nat.log2 emax.1 : Int) + emax.2)
  if magLe a.1 a.2 emax.1 (emax.2 + (x0 - 1)) then x0 - 1
  else if magLe a.1 a.2 emax.1 (emax.2 + x0) then x0 else x0 + 1

/-- An encoded block: codes, scale, soloist word, what each element counts, and whether it is an all-zero block. -/
structure Block where
  codes : List Nat
  scale : Nat
  word : Nat
  flags : List CFlag
  zero : Bool
  deriving DecidableEq, Repr

/-- Encode a block of FP32-or-narrower values (R41 to R44); `draw i` is the draw of position i. -/
def encodeBlock (n : Ncw) (draw : Nat → Nat) (v : List Val) : Block :=
  let zeros := v.map fun _ => 0
  if v.any (!·.isFin) then ⟨zeros, 0xFF, 0, v.map fun _ => CFlag.nan, false⟩
  else
    let a1 := (v.map magOf).foldl magMax (0, 0)
    if a1.1 = 0 then ⟨zeros, 0, 0, v.map fun _ => CFlag.none, true⟩
    else
      let i1 := (findFrom (fun x => magLe a1.1 a1.2 (magOf x).1 (magOf x).2) v 0).getD 0
      let a2 := ((v.take i1 ++ v.drop (i1 + 1)).map magOf).foldl magMax (0, 0)
      let big := nth .nan v i1
      let h := roundFloat 10 (-14) n.rmode (draw i1) (magOf big).1 (magOf big).2
      let solo := contSolo n.cont && !magLe a1.1 a1.2 a2.1 (a2.2 + n.shift) && decide (h.1 ≠ 0)
        && magLe h.1 h.2 65504 0
      let amax := if solo then a2 else a1
      let x := clampInt (-127) 127 (if amax.1 = 0 then -127 else smallestScale amax (emaxOf n.fmt))
      let f := fmtOf n.fmt
      let one := fun (p : Val × Nat) =>
        if solo && p.2 == i1 then (0, CFlag.none)
        else match p.1 with
          | .fin s m e =>
            let top := emaxOf n.fmt
            let t :=
              if f.isInt then (roundAt n.rmode (draw p.2) m (e - x) 0, (0 : Int))
              else roundFloat f.sigW (1 - f.bias) n.rmode (draw p.2) m (e - x)
            let sat := !magLe t.1 t.2 top.1 top.2
            let tt := if sat then top else t
            let code := if f.isInt then unsigned f.width (if s then -(tt.1 : Int) else tt.1) else encodeFin f s tt.1 tt.2
            (code, if sat then CFlag.sat else if decide (m ≠ 0) && decide (tt.1 = 0) then CFlag.fbs else CFlag.none)
          | _ => (0, CFlag.none)
      let cs := v.zipIdx.map one
      let word := if solo then 2 ^ 24 + i1 * 2 ^ 16 + encodeFin (fmtOf 4) big.neg h.1 h.2 else 0
      ⟨cs.map (·.1), (x + 127).toNat, word, cs.map (·.2), false⟩

/-- Higher-ranking of two counts of one value (R63). -/
def CFlag.first (a b : CFlag) : CFlag :=
  if a = .nan ∨ b = .nan then .nan
  else if a = .sat ∨ b = .sat then .sat
  else if a = .fbs ∨ b = .fbs then .fbs
  else if a = .flush ∨ b = .flush then .flush
  else .none

/-- A store to a block container: the FP32 step of R475, then the encoding, counts merged. -/
def storeBlock (n : Ncw) (draw : Nat → Nat) (v : List Val) : Block :=
  let w := v.map (convert (fmtOf 0) 0 n.ovf 0)
  let b := encodeBlock n draw (w.map fun p => ofF32 p.1)
  { b with flags := (w.map (·.2)).zipWith CFlag.first b.flags }

/-- Counts of conversions added to counters (R62), saturating. -/
def countFlags (c : Numeric) (l : List CFlag) : Numeric :=
  let n := fun (f : CFlag) => (l.filter (· == f)).length
  let up := fun (a b : Nat) => min (a + b) 0xFFFFFFFF
  { c with sat := up c.sat (n .sat), flush := up c.flush (n .flush), fbs := up c.fbs (n .fbs), nan := up c.nan (n .nan) }

/-- One all-zero block (R42). -/
def countZero (c : Numeric) (z : Bool) : Numeric := { c with zblk := min (c.zblk + bn z) 0xFFFFFFFF }

/-! ## Accumulators (R51 to R57) -/

/-- qmin and W of a narrow format (R53); `f` 16 stands for a soloist. -/
def factorOf : Nat → Int × Nat
  | 6 => (-16, 32)
  | 5 => (-9, 18)
  | 7 => (-4, 9)
  | 8 => (-3, 6)
  | 9 => (-1, 4)
  | 12 => (0, 8)
  | 14 => (0, 4)
  | _ => (-24, 40)

/-- A factor of the exact path: format code (16 for a soloist), block exponent X, value before the scale. -/
structure Factor where
  fmt : Nat
  x : Int
  v : Val
  deriving DecidableEq, Repr

/-- Add one product to the exact accumulator (R54). A product that is no number has no L: it sets its flag and counts in N
(log 32). -/
def Acc.addExact (c : Acc) (a b : Factor) : Acc :=
  let fa := factorOf a.fmt
  let fb := factorOf b.fmt
  let l := a.x + b.x + fa.1 + fb.1
  let top := l + (fa.2 + fb.2 : Nat)
  let t := min c.t l
  let base := if l < c.t then c.a <<< (c.t - l).toNat else c.a
  let d : Acc := { c with n := min (c.n + 1) 0xFFFFFFFF }
  match a.v.mul b.v with
  | .nan => { d with nan := true }
  | .inf s => { d with pinf := (c.pinf || !s), ninf := (c.ninf || s) }
  | .fin s m e => { d with a := base + BitVec.ofInt 96 (scaledTo s m (e + a.x + b.x) t), t := t, h := max c.h top }

/-- Add one product to the FP32 accumulator (R52). -/
def Acc.addF32 (c : Acc) (a b : Val) : Acc :=
  { c with a := BitVec.ofNat 96 (toF32 ((a.mul b).add (ofF32 (c.a.toNat % 2 ^ 32)))) }

/-- E8M10 rounding of an FP32 code, as an FP32 code. A value whose rounding leaves the range becomes an infinity, as RNE
does, and counts nothing (DESIGN CHOICE, log 57). -/
def toE8M10 (a : Nat) : Nat := (convert (fmtOf 2) 0 true 0 (ofF32 a)).1

/-- The split of R57. -/
def pairSplit (h l : Nat) : Nat × Nat :=
  let hi := toE8M10 h
  (hi, toE8M10 (f32add (f32add h (f32neg hi)) l))

/-- One compensated addition (R57). -/
def pairAdd (s c p : Nat) : Nat × Nat :=
  let s1 := f32add s p
  let bp := f32add s1 (f32neg s)
  let e := f32add (f32add s (f32neg (f32add s1 (f32neg bp)))) (f32add p (f32neg bp))
  (s1, f32add c e)

/-- Add the three products of one k-step in pair mode (R57). -/
def Acc.addPair (c : Acc) (a b : Nat × Nat) : Acc :=
  let s := c.a.toNat % 2 ^ 32
  let k := c.a.toNat / 2 ^ 32 % 2 ^ 32
  let p1 := pairAdd s k (f32mul a.2 b.1)
  let p2 := pairAdd p1.1 p1.2 (f32mul a.1 b.2)
  let p3 := pairAdd p2.1 p2.2 (f32mul a.1 b.1)
  { c with a := BitVec.ofNat 96 (p3.1 + 2 ^ 32 * p3.2) }

/-- ceil(log2 n), 0 for n at most 1; the saturated count stands for 2^32 (R54, R56). -/
def ceilLog2 (n : Nat) : Nat := if n ≤ 1 then 0 else Nat.log2 (n - 1) + 1

/-- Readout value of the exact accumulator, and whether the exactness bound failed (R56). -/
def Acc.readExact (c : Acc) : Val × Bool :=
  if c.nan || (c.pinf && c.ninf) then (.nan, false)
  else if c.pinf then (.inf false, false)
  else if c.ninf then (.inf true, false)
  else if c.n = 0 then (.fin false 0 0, false)
  else
    let x := c.a.toInt
    (.fin (decide (x < 0)) x.natAbs c.t, decide (95 < c.h - c.t + ceilLog2 c.n))

/-- Readout of pair mode: hi and lo (R57). -/
def Acc.readPair (c : Acc) : Nat × Nat :=
  let s := c.a.toNat % 2 ^ 32
  let k := c.a.toNat / 2 ^ 32 % 2 ^ 32
  let hi := f32add s k
  (hi, f32add k (f32neg (f32add hi (f32neg s))))

/-! ## Reductions (R83) -/

/-- One level of the tree: neighbours added. -/
def treeLevel (f : Nat → Nat → Nat) : List Nat → List Nat
  | a :: b :: t => f a b :: treeLevel f t
  | l => l

/-- The tree over `n` levels. -/
def treeSum (f : Nat → Nat → Nat) : Nat → List Nat → List Nat
  | 0, l => l
  | n + 1, l => treeSum f n (treeLevel f l)

end Sys2Proof.Machine
end

