-- ==== Sys2Proof/Machine/Special.lean ====
section
/-! DEFINITION. The FP32 special functions that R82 bounds to 2 ulp: EXP2, LOG2, SINPI, COSPI, TANH and ERF. Each exact
result is approximated in fixed point with 300 fraction bits, far below an ulp; the result is one of the FP32 values within
2 ulp of it, always the same one for an operand (R83), and which one is free (log 2). -/

namespace Sys2Proof.Machine

/-- One in fixed point. -/
def fixOne : Nat := 2 ^ 300

/-- Products of fixed-point numbers. -/
def fixMul (a b : Nat) : Nat := a * b / fixOne

/-- ln 2, pi and 2 / sqrt pi in fixed point. -/
def fixLn2 : Nat := 0xb17217f7d1cf79abc9e3b39803f2f6af40f343267298b62d8a0d175b8baafa2be7b876206de
def fixPi : Nat := 0x3243f6a8885a308d313198a2e03707344a4093822299f31d0082efa98ec4e6c89452821e638d
def fixErf : Nat := 0x120dd750429b6d11ae3a914fed7fd8688281341d7587cea2e7342b06199cc416180eb39f0b24

/-- The terms z^k / k! of a series from `term` on, each with its number. -/
def expTerms (z : Nat) : Nat → Nat → Nat → List (Nat × Nat)
  | 0, _, _ => []
  | n + 1, k, term => (k, term) :: expTerms z n (k + 1) (fixMul term z / (k + 1))

/-- e^z for z below 256: the series at z / 256, squared eight times. -/
def fixExp (z : Nat) : Nat :=
  let t := sumBy (·.2) (expTerms (z / 256) 64 0 fixOne)
  (List.range 8).foldl (fun x _ => fixMul x x) t

/-- The alternating sum of every second term of the series: the sine of an angle up to pi / 2. -/
def fixSin (z : Nat) : Nat :=
  let l := expTerms z 80 0 fixOne
  let part := fun (r : Nat) => sumBy (fun p => if p.1 % 4 = r then p.2 else 0) l
  part 1 - part 3

/-- The fraction bits of log2 of a number in [1, 2), most significant first. -/
def fixLog2 : Nat → Nat → Nat → Nat
  | 0, _, acc => acc
  | n + 1, x, acc =>
    let y := fixMul x x
    if y < 2 * fixOne then fixLog2 n y (2 * acc) else fixLog2 n (y / 2) (2 * acc + 1)

/-- The terms z^(2n + 1) / n! / (2n + 1) of the error function: even and odd ones summed. -/
def erfSums (z2 : Nat) : Nat → Nat → Nat → Nat × Nat → Nat × Nat
  | 0, _, _, acc => acc
  | n + 1, k, term, acc =>
    let t := term / (2 * k + 1)
    erfSums z2 n (k + 1) (fixMul term z2 / (k + 1)) (if k % 2 = 0 then (acc.1 + t, acc.2) else (acc.1, acc.2 + t))

/-- A magnitude m × 2^e in fixed point, at most `cap`. -/
def fixOf (m : Nat) (e : Int) (cap : Nat) : Nat :=
  if 0 ≤ e + 300 then min cap (m * 2 ^ (e + 300).toNat) else m / 2 ^ (-(e + 300)).toNat

/-- sin(pi × r) for r in [0, 2) in fixed point: whether it is negative, and its magnitude. -/
def fixSinPi (r : Nat) : Bool × Nat :=
  let x := r % fixOne
  let y := if fixOne < 2 * x then fixOne - x else x
  (decide (fixOne ≤ r) && decide (x ≠ 0), fixSin (fixMul fixPi y))

/-- A close approximation sign × mag × 2^exp of a special function of a finite operand; `none` where the function has no
finite value in FP32's range. -/
def specialOf (vopc : Nat) (s : Bool) (m : Nat) (e : Int) : Option (Bool × Nat × Int) :=
  match vopc with
  | 0x13 =>
    let x := fixOf m e (256 * fixOne)
    if !s && decide (128 * fixOne ≤ x) then none
    else
      let z : Int := if s then -(x : Int) else x
      let f := (z % (fixOne : Int)).toNat
      some (false, fixExp (fixMul f fixLn2), z / (fixOne : Int) - 300)
  | 0x14 =>
    if s || m == 0 then none
    else
      let l := Nat.log2 m
      let y : Int := ((l : Int) + e) * (2 ^ 160 : Nat) + fixLog2 160 (m * 2 ^ (300 - l)) 0
      some (decide (y < 0), y.natAbs, -160)
  | 0x15 | 0x16 =>
    let r := m * 2 ^ (e + 300).toNat % (2 * fixOne)
    let r := if s then (2 * fixOne - r) % (2 * fixOne) else r
    let p := fixSinPi (if vopc = 0x15 then r else (r + fixOne / 2) % (2 * fixOne))
    some (p.1, p.2, -300)
  | 0x17 =>
    let x := fixExp (2 * fixOf m e (64 * fixOne))
    some (s, (x - fixOne) * fixOne / (x + fixOne), -300)
  | _ =>
    let z := fixOf m e (8 * fixOne)
    let p := erfSums (fixMul z z) 400 0 z (0, 0)
    some (s, fixMul fixErf (p.1 - p.2), -300)

/-- The FP32 codes within 2 ulp of sign × mag × 2^exp, where an ulp is that of the value's own binade (DEDUCED, log 2); 2^-40
ulp allows for the approximation. -/
def ulpCodes (s : Bool) (mag : Nat) (exp : Int) : List Nat :=
  let e := min exp (-160)
  let y := scaledTo s mag exp e
  let ulp := 2 ^ (max ((Nat.log2 mag : Int) + exp) (-126) - 23 - e).toNat
  let c := toF32 (.fin s mag exp)
  let at_ : Int := if 2 ^ 31 ≤ c then -((c - 2 ^ 31 : Nat) : Int) else c
  (List.range 13).flatMap fun i =>
    let k := at_ + i - 6
    (if k = 0 then [0, 2 ^ 31] else if 0 < k then [k.toNat] else [2 ^ 31 + k.natAbs]).filter fun c => match ofF32 c with
      | .fin n m x => decide ((scaledTo n m x e - y).natAbs * 2 ^ 40 ≤ (2 * 2 ^ 40 + 1) * ulp)
      | _ => false

/-- The canonical code of a format's NaN in place of any other of its NaN codes (R36). -/
def canonCode (fmt c : Nat) : Nat := if decodeFmt (fmtOf fmt) c = .nan then nanCode fmt else c

/-- A special function of an FP32 code (R82, R83). A result that the manual does not bound, of a NaN, an infinity or an
operand without a finite result, is free (log 2). -/
def specialF32 (vopc c : Nat) : Nat :=
  let c := canonCode 0 c
  let pick := (Config.special vopc (BitVec.ofNat 32 c)).toNat
  match ofF32 c with
  | .fin s m e =>
    (match specialOf vopc s m e with
      | some y =>
        let l := ulpCodes y.1 y.2.1 y.2.2
        nth 0 l (pick % l.length)
      | none => canonCode 0 pick)
  | _ => canonCode 0 pick

end Sys2Proof.Machine
end

