-- ==== Sys2Proof/Machine/Coding.lean ====
section
/-! DEFINITION. What the FFT, LDPC and polar engines compute (R240 to R246): discrete Fourier transforms in fixed point, the
LDPC codes by their parity checks, polar codes by their transform. The numbers that only the tables of TS 38.212 hold are free
constants of Config; its procedures are PRESUMED (log 6). -/

namespace Sys2Proof.Machine

/-! ## Discrete Fourier transforms (R241) -/

/-- cos(2 pi m / n) and sin(2 pi m / n) with 300 fraction bits. -/
def twiddle (n m : Nat) : Int × Int :=
  let part := fun (k : Nat) =>
    let p := fixSinPi (k % (4 * n) * fixOne / (2 * n))
    if p.1 then -(p.2 : Int) else (p.2 : Int)
  (part (4 * m + n), part (4 * m))

/-- x / 2^sh to the nearest integer, ties to even; x is known to far fewer than 200 of its last bits, so a value that close to
a tie is one. -/
def roundFix (x : Int) (sh : Nat) : Int :=
  let u : Int := (2 ^ sh : Nat)
  let q := x / u
  let d := 2 * (x - q * u) - u
  if d.natAbs ≤ 2 ^ 200 then q + q % 2 else if d < 0 then q else q + 1

/-- Bin k of the transform of a list of complex samples, with 300 fraction bits. -/
def dftBin (n : Nat) (inv : Bool) (x : List (Int × Int)) (k : Nat) : Int × Int :=
  x.zipIdx.foldl (fun (a : Int × Int) p =>
    let w := twiddle n (k * p.2 % n)
    let sn := if inv then -w.2 else w.2
    (a.1 + (p.1.1 * w.1 + p.1.2 * sn), a.2 + (p.1.2 * w.1 - p.1.1 * sn))) (0, 0)

/-- A bin divided by 2^e and rounded convergently. -/
def scaleBin (e : Nat) (b : Int × Int) : Int × Int := (roundFix b.1 (300 + e), roundFix b.2 (300 + e))

/-! ## Linear equations over bits -/

/-- One step of the elimination of unknown `u`: the equations taken, each with its unknown, and those left. An equation is a
number: bit v its coefficient of unknown v, bit `m` its right side. -/
def elimStep (p : List (Nat × Nat) × List Nat) (u : Nat) : List (Nat × Nat) × List Nat :=
  match p.2.find? (·.testBit u) with
  | none => p
  | some r =>
    let f := fun (x : Nat) => if x.testBit u then x ^^^ r else x
    ((u, r) :: p.1.map (fun q => (q.1, f q.2)), ((p.2.map f).filter (· != 0)))

/-- A solution of equations in `m` unknowns. -/
def solveBits (m : Nat) (eqs : List Nat) : List Bool :=
  let taken := ((List.range m).foldl elimStep ([], eqs)).1
  (List.range m).map fun u => match taken.find? (·.1 == u) with
    | some q => q.2.testBit m
    | none => false

/-! ## LDPC codes (R242, R244, R245) -/

/-- The set of shift values of a lifting size, 0 to 7 for a = 2, 3, 5, 7, 9, 11, 13 and 15. -/
def liftSet (z : Nat) : Nat :=
  (findFrom (fun a => (List.range 8).any fun j => a * 2 ^ j == z) [2, 3, 5, 7, 9, 11, 13, 15] 0).getD 0

/-- Rows and systematic columns of a base graph, 1 or 2. -/
def bgRows (bg2 : Bool) : Nat := if bg2 then 42 else 46
def bgCols (bg2 : Bool) : Nat := if bg2 then 10 else 22

/-- The entries of a row of a base graph: column and shift. -/
def bgRow (bg2 : Bool) (z r : Nat) : List (Nat × Nat) := Config.ldpcRow (bn bg2) (liftSet z) r

/-- The bits of a code word that parity check `lane` of row `r` joins. -/
def checkBits (bg2 : Bool) (z r lane : Nat) : List Nat := (bgRow bg2 z r).map fun e => e.1 * z + (lane + e.2) % z

/-- Whether every parity check of a code word holds. -/
def parityOk (bg2 : Bool) (z : Nat) (c : List Bool) : Bool :=
  (List.range (bgRows bg2)).all fun r => (List.range z).all fun l =>
    (checkBits bg2 z r l).foldl (fun p i => p != nth false c i) false == false

/-- The code word of information bits: the parity bits that fulfil every check. -/
def ldpcWord (bg2 : Bool) (z : Nat) (info : List Bool) : List Bool :=
  let k := bgCols bg2 * z
  let m := bgRows bg2 * z
  let eqs := (List.range (bgRows bg2)).flatMap fun r => (List.range z).map fun l =>
    (checkBits bg2 z r l).foldl (fun (x : Nat) i =>
      if i < k then (if nth false info i then x ^^^ 2 ^ m else x) else x ^^^ 2 ^ (i - k)) 0
  info ++ solveBits m eqs

/-- What a parity check tells each of its bits from the others: the smallest magnitude less the offset, with the product of the
signs. -/
def minSum (q : List Int) : List Int :=
  q.zipIdx.map fun p =>
    let others := (q.zipIdx.filter fun o => o.2 != p.2).map (·.1)
    let mag := minBy 127 Int.natAbs others - Config.ldpcOffset
    if (others.filter (· < 0)).length % 2 = 1 then -(mag : Int) else (mag : Int)

/-- One check of layered decoding: the soft values, and what the check told its bits last time. -/
def ldpcCheck (bg2 : Bool) (z r lane : Nat) (l told : List Int) : List Int × List Int :=
  let at_ := checkBits bg2 z r lane
  let q := at_.zipIdx.map fun p => nth 0 l p.1 - nth 0 told p.2
  let m := minSum q
  ((at_.zip (q.zip m)).foldl (fun l p => l.set p.1 (clampInt (-Config.ldpcLimit) Config.ldpcLimit (p.2.1 + p.2.2))) l, m)

/-- One iteration: every row, every check of it; what each check told its bits is kept in order. -/
def ldpcIteration (bg2 : Bool) (z : Nat) (l : List Int) (told : List (List Int)) : List Int × List (List Int) :=
  (List.range (bgRows bg2 * z)).foldl (fun (a : List Int × List (List Int)) i =>
    let c := ldpcCheck bg2 z (i / z) (i % z) a.1 (nth [] told i)
    (c.1, a.2 ++ [c.2])) (l, [])

/-- Layered offset min-sum decoding of a block of `kp` bits: at most `iters` iterations, until every parity check, and with
CB_CRC the CRC24B, holds (R244). The bits, the iterations made, whether it stopped. -/
def ldpcDecode (bg2 : Bool) (z kp : Nat) (cb : Bool) (done : Nat) (l : List Int) (told : List (List Int)) : Nat → List Bool × Nat × Bool
  | 0 => (l.map (decide <| · < 0), done, false)
  | iters + 1 =>
    let a := ldpcIteration bg2 z l told
    let c := a.1.map (decide <| · < 0)
    if parityOk bg2 z c && (!cb || crcBits 24 0x800063 (c.take kp) == 0) then (c, done + 1, true)
    else ldpcDecode bg2 z kp cb (done + 1) a.1 a.2 iters

/-! ## Polar codes (R246; TS 38.212 5.3.1 and 5.4.1) -/

/-- A block to code: mother code length, bits with their CRC, coded bits, parity-check bits and those among them of least row
weight, and whether the input and the coded bits are interleaved. -/
structure PolarCode where
  n : Nat
  k : Nat
  e : Nat
  pc : Nat
  wm : Nat
  inner : Bool
  outer : Bool
  deriving DecidableEq, Repr

/-- Mother code length of `k` bits in `e` coded bits, at most 2^nMax. -/
def polarLen (k e nMax : Nat) : Nat :=
  let c := ceilLog2 e
  let n1 := if 8 * e ≤ 9 * 2 ^ (c - 1) ∧ 16 * k < 9 * e then c - 1 else c
  2 ^ max 5 (min (min n1 (ceilLog2 (8 * k))) nMax)

/-- The sub-block interleaver: the coded bit that goes to place `i`. -/
def polarSub (n i : Nat) : Nat :=
  nth 0 [0, 1, 2, 4, 3, 5, 6, 7, 8, 16, 9, 17, 10, 18, 11, 19, 12, 20, 13, 21, 14, 22, 15, 23, 24, 25, 26, 28, 27, 29, 30, 31]
    (32 * i / n) * (n / 32) + i % (n / 32)

/-- Whether a code punctures, when it sends fewer than `n` bits; else it shortens. -/
def PolarCode.punctures (c : PolarCode) : Bool := decide (16 * c.k ≤ 7 * c.e)

/-- Indices that rate matching takes from the information set. -/
def PolarCode.barred (c : PolarCode) : List Nat :=
  if c.n ≤ c.e then []
  else if c.punctures then
    (List.range (c.n - c.e)).map (polarSub c.n)
      ++ List.range (if 3 * c.n ≤ 4 * c.e then (3 * c.n - 2 * c.e + 3) / 4 else (9 * c.n - 4 * c.e + 15) / 16)
  else (List.range (c.n - c.e)).map fun i => polarSub c.n (c.e + i)

/-- Indices below `n` by reliability, least first; the order of 1,024 is a table of the standard. -/
def polarOrder (n : Nat) : List Nat := ((List.range 1024).map Config.polarRank).filter (· < n)

/-- The information set with its parity-check bits, least reliable first. -/
def PolarCode.info (c : PolarCode) : List Nat :=
  let l := (polarOrder c.n).filter fun i => !(c.barred.contains i)
  l.drop (l.length - (c.k + c.pc))

/-- Bits of 1 in a number below 1,024. -/
def ones (x : Nat) : Nat := count (fun i => x.testBit i) 10

/-- The indices of the parity-check bits: the least reliable, and of the rest those of least row weight, the most reliable of
them. -/
def PolarCode.checks (c : PolarCode) : List Nat :=
  let l := c.info
  let rest := l.drop c.pc
  let least := minBy 10 ones rest
  l.take (c.pc - c.wm) ++ ((rest.filter fun i => ones i == least).reverse.take c.wm)

/-- One index of the input of the transform: the cyclic register, the bits left, and what is placed. -/
def polarPlace (info checks : List Nat) (a : List Bool × List Bool × List Bool) (i : Nat) : List Bool × List Bool × List Bool :=
  let y := a.1.drop 1 ++ a.1.take 1
  if !(info.contains i) then (y, a.2.1, a.2.2 ++ [false])
  else if checks.contains i then (y, a.2.1, a.2.2 ++ [nth false y 0])
  else
    let b := nth false a.2.1 0
    ((nth false y 0 != b) :: y.drop 1, a.2.1.drop 1, a.2.2 ++ [b])

/-- The transform: m stages on a list of 2^m bits. -/
def polarStage : Nat → List Bool → List Bool
  | 0, l => l
  | m + 1, l =>
    let a := polarStage m (l.take (2 ^ m))
    let b := polarStage m (l.drop (2 ^ m))
    a.zipWith (· != ·) b ++ b

/-- Interleaving of the bits with their CRC; the pattern of 164 is a table of the standard. -/
def polarInner (k : Nat) : List Nat :=
  ((List.range 164).map Config.polarShuffle).filterMap fun i => if 164 - k ≤ i ∧ i < 164 then some (i - (164 - k)) else none

/-- Interleaving of the coded bits: rows of falling length are written, columns read. -/
def polarOuter (e : Nat) : List Nat :=
  let t := (least (fun t => decide (2 * e ≤ t * (t + 1))) (e + 1)).getD e
  let start := fun (i : Nat) => i * t - i * (i - 1) / 2
  (List.range t).flatMap fun j => ((List.range (t - j)).map fun i => start i + j).filter (· < e)

/-- Coded bits of a block with its CRC. -/
def PolarCode.encode (c : PolarCode) (l : List Bool) : List Bool :=
  let l := if c.inner then (polarInner c.k).map (nth false l) else l
  let u := ((List.range c.n).foldl (polarPlace c.info c.checks) (List.replicate 5 false, l, [])).2.2
  let d := polarStage (ceilLog2 c.n) u
  let y := (List.range c.n).map fun i => nth false d (polarSub c.n i)
  let f := (List.range c.e).map fun i =>
    nth false y (if c.n ≤ c.e then i % c.n else if c.punctures then i + c.n - c.e else i)
  if c.outer then (polarOuter c.e).map (nth false f) else f

/-- The channel's CRC: width and generator (R246). -/
def polarCrc (chan a : Nat) : Nat × Nat :=
  if chan = 2 then (if a ≤ 19 then (6, 0x21) else (11, 0x621)) else (24, 0xB2B117)

/-- The CRC of a payload: of DCI over 24 ones before it, the last 16 bits masked with the RNTI. -/
def polarSum (chan a rnti : Nat) (l : List Bool) : Nat :=
  let p := polarCrc chan a
  if chan = 0 then crcBits p.1 p.2 (List.replicate 24 true ++ l) ^^^ rnti else crcBits p.1 p.2 l

/-- Blocks of a payload: two for a large UCI (R246). -/
def polarTwo (chan a e : Nat) : Bool := chan == 2 && (decide (1013 ≤ a) || (decide (360 ≤ a) && decide (1088 ≤ e)))

/-- The code of a channel's block. -/
def polarCode (chan a e : Nat) : PolarCode :=
  let two := polarTwo chan a e
  let k := (if two then (a + 1) / 2 else a) + (polarCrc chan a).1
  let e := if two then e / 2 else e
  let pc := if chan = 2 ∧ 18 ≤ k ∧ k ≤ 25 then 3 else 0
  { n := polarLen k e (if chan = 2 then 10 else 9), k := k, e := e, pc := pc,
    wm := if pc = 3 ∧ 192 + k < e + 3 then 1 else 0, inner := decide (chan < 2), outer := chan == 2 }

/-- Payloads of the blocks of a payload: of two the first is filled with a zero in front when the bits are odd. -/
def polarBlocks (chan a e : Nat) (l : List Bool) : List (List Bool) :=
  if polarTwo chan a e then
    let l := if a % 2 = 1 then false :: l else l
    [l.take ((a + 1) / 2), l.drop ((a + 1) / 2)]
  else [l]

/-- Coded bits of a payload (R246). -/
def polarEncode (chan a e rnti : Nat) (l : List Bool) : List Bool :=
  let c := polarCode chan a e
  (polarBlocks chan a e l).flatMap fun b => c.encode (b ++ natBits (polarCrc chan a).1 (polarSum chan a rnti b))

/-- The payload of a block from the paths of its list decoding, the most likely first: that of the most likely path that
passes its CRC, else the most likely path, and whether one passes (R246). -/
def polarChoose (chan a rnti k : Nat) (paths : List (List Bool)) : List Bool × Bool :=
  let w := (polarCrc chan a).1
  let cut := fun (p : List Bool) => (List.range k).map (nth false p)
  let ok := fun (p : List Bool) => polarSum chan a rnti ((cut p).take (k - w)) == bitsNat ((cut p).drop (k - w))
  match paths.find? ok with
  | some p => ((cut p).take (k - w), true)
  | none => ((cut (nth [] paths 0)).take (k - w), false)

/-- CRC-aided list decoding of a payload with a list of `size` (R246): which paths the list holds is the engine's (log 2). -/
def polarDecode (chan a e rnti size : Nat) (llrs : List Int) : List Bool × Bool :=
  let c := polarCode chan a e
  let two := polarTwo chan a e
  let one := fun (i : Nat) =>
    polarChoose chan a rnti c.k ((Config.polarPaths c.n c.k c.e size ((llrs.drop (i * c.e)).take c.e)).take size)
  if two then
    let p := one 0
    let q := one 1
    ((if a % 2 = 1 then p.1.drop 1 else p.1) ++ q.1, p.2 && q.2)
  else one 0

end Sys2Proof.Machine
end

