-- ==== Sys2Proof/Machine/Regs.lean ====
section
/-! DEFINITION. The BAR0 page map (R459), the registers of every page with their access masks and reset values, and
the reading and storing of a stored register. -/

namespace Sys2Proof.Machine

/-- Page kinds (R459, R468). -/
inductive PageKind where
  | chip | fault | time | runord | pwr | life | stage | stgh | clus | hbmc | hash | glink | fabric | rdsp
  | fft | ldpc | polar | chirp | eth | tmgr | host | mbox | vf | optm | dbg
  deriving DecidableEq, Repr

/-- A page: its kind, its instance number (R467) and its BAR0 address. -/
structure Page where
  kind : PageKind
  inst : Nat
  base : Nat
  deriving DecidableEq, Repr

/-- BAR0 address of a page (R459, R263). -/
def pageAddr (k : PageKind) (i : Nat) : Nat :=
  match k with
  | .chip => 0
  | .fault => 0x10000
  | .time => 0x20000
  | .runord => 0x30000
  | .pwr => 0x40000
  | .life => 0x50000
  | .stage => 0x80000 + i * 0x1000
  | .stgh => 0x90000
  | .clus => 0x100000 + i / 36 * 0x40000 + i % 36 * 0x1000
  | .hbmc => 0x200000 + i / 32 * 0x20000 + i % 32 * 0x1000
  | .hash => 0x300000
  | .glink => 0x400000 + i * 0x1000
  | .fabric => 0x430000
  | .rdsp =>
    if i % 136 < 128 then 0x500000 + i / 136 * 0x80000 + i % 136 * 0x1000
    else 0x680000 + i / 136 * 0x8000 + (i % 136 - 128) * 0x1000
  | .fft => 0x600000 + i * 0x10000
  | .ldpc => 0x601000 + i * 0x10000
  | .polar => 0x602000 + i * 0x10000
  | .chirp => 0x603000 + i * 0x10000
  | .eth => 0x700000 + i * 0x1000
  | .tmgr => 0x710000 + i * 0x1000
  | .host => 0x800000
  | .mbox => 0x801000
  | .vf => 0x810000 + i * 0x1000
  | .optm => 0x910000 + i * 0x100
  | .dbg => 0xA00000

/-- The page of an instance. -/
def pageAt (k : PageKind) (i : Nat) : Page := ⟨k, i, pageAddr k i⟩

/-- The page kind and instance of a 4 KiB page number, `none` for a hole; OPTM pages apart. -/
def pageNumber (p : Nat) : Option (PageKind × Nat) :=
  if p = 0 then some (.chip, 0)
  else if p = 0x10 then some (.fault, 0)
  else if p = 0x20 then some (.time, 0)
  else if p = 0x30 then some (.runord, 0)
  else if p = 0x40 then some (.pwr, 0)
  else if p = 0x50 then some (.life, 0)
  else if 0x80 ≤ p ∧ p < 0x86 then some (.stage, p - 0x80)
  else if p = 0x90 then some (.stgh, 0)
  else if 0x100 ≤ p ∧ p < 0x200 ∧ p % 0x40 < 36 then some (.clus, (p - 0x100) / 0x40 * 36 + p % 0x40)
  else if 0x200 ≤ p ∧ p < 0x300 then some (.hbmc, p - 0x200)
  else if p = 0x300 then some (.hash, 0)
  else if 0x400 ≤ p ∧ p < 0x430 then some (.glink, p - 0x400)
  else if p = 0x430 then some (.fabric, 0)
  else if 0x500 ≤ p ∧ p < 0x600 then some (.rdsp, (p - 0x500) / 0x80 * 136 + p % 0x80)
  else if p = 0x600 ∨ p = 0x610 then some (.fft, (p - 0x600) / 0x10)
  else if p = 0x601 ∨ p = 0x611 then some (.ldpc, (p - 0x600) / 0x10)
  else if p = 0x602 ∨ p = 0x612 then some (.polar, (p - 0x600) / 0x10)
  else if p = 0x603 ∨ p = 0x613 then some (.chirp, (p - 0x600) / 0x10)
  else if 0x680 ≤ p ∧ p < 0x690 then some (.rdsp, (p - 0x680) / 8 * 136 + 128 + p % 8)
  else if 0x700 ≤ p ∧ p < 0x710 then some (.eth, p - 0x700)
  else if 0x710 ≤ p ∧ p < 0x720 then some (.tmgr, p - 0x710)
  else if p = 0x800 then some (.host, 0)
  else if p = 0x801 then some (.mbox, 0)
  else if 0x811 ≤ p ∧ p < 0x910 then some (.vf, p - 0x810)
  else if p = 0xA00 then some (.dbg, 0)
  else none

/-- The page that holds a BAR0 address and the offset in it; `none` for a hole (R459, R460). -/
def pageOf (a : Nat) : Option (Page × Nat) :=
  if 0x910000 ≤ a ∧ a < 0x913000 then some (pageAt .optm ((a - 0x910000) / 0x100), a % 0x100)
  else (pageNumber (a / 0x1000)).map fun x => (pageAt x.1 x.2, a % 0x1000)

/-- Block type codes (R468). -/
def typeCode : PageKind → Nat
  | .chip => 0x01
  | .fault => 0x02
  | .time => 0x03
  | .runord => 0x04
  | .pwr => 0x05
  | .life => 0x06
  | .stage => 0x08
  | .stgh => 0x09
  | .clus => 0x10
  | .hbmc => 0x18
  | .hash => 0x19
  | .glink => 0x20
  | .fabric => 0x21
  | .rdsp => 0x28
  | .fft => 0x29
  | .ldpc => 0x2A
  | .polar => 0x2B
  | .chirp => 0x2C
  | .eth => 0x30
  | .tmgr => 0x31
  | .host => 0x38
  | .vf => 0x39
  | .mbox => 0x3A
  | .optm => 0x40
  | .dbg => 0x48

/-- `PG_CAPS` of each page, as its owning chapter gives it (R466, R471 and the chapters' register sections). -/
def pageCaps : PageKind → Word
  | .chip => 0x0000000E
  | .fault => 0x001A0100
  | .time => 0x01081008
  | .runord => 0x01CC0C40
  | .pwr => 0x00050138
  | .life => 0x00000080
  | .stage => 0x00101000
  | .stgh => 0x00000820
  | .clus => 0x0430210D
  | .hbmc => 0x02100030
  | .hash => 0x00080100
  | .glink => 0x0400040A
  | .fabric => 0x10004008
  | .rdsp => 0x04102020
  | .fft => 0x00000018
  | .ldpc => 0x00081020
  | .polar => 0x00000008
  | .chirp => 0x00008004
  | .eth => 0x10801004
  | .tmgr => 0x00004020
  | .host => 0x001200FF
  | .vf => 0x00120010
  | .mbox => 0x00000080
  | .optm => 0x0000000A
  | .dbg => 0x00000005

/-- The die that carries a page's unit: 0 to 3 Q0 to Q3, 4 E0, 5 E1 (R19). -/
def pageDie : PageKind → Nat → Nat
  | .clus, i => i / 36
  | .hbmc, i => i / 64
  | .stage, i => i
  | .rdsp, i => 4 + i / 136
  | .fft, i | .ldpc, i | .polar, i | .chirp, i => 4 + i
  | .glink, i | .optm, i => if i < 24 then 4 else 5
  | .eth, i | .tmgr, i => if i < 8 then 4 else 5
  | _, _ => 4

/-- The unit index within the die (R19). -/
def pageUnit : PageKind → Nat → Nat
  | .clus, i => i % 36
  | .hbmc, i => i % 64
  | .rdsp, i => i % 136
  | .glink, i | .optm, i => i % 24
  | .eth, i | .tmgr, i => i % 8
  | .vf, i => i
  | _, _ => 0

/-- The domain of a page (chapter 15, Units and domains): quarters 0 to 3, tiles 4 and 5, stacks 6 to 13, link groups 14
to 25. -/
def pageDomain : PageKind → Nat → Nat
  | .clus, i => i / 36
  | .stage, i => i
  | .hbmc, i => 6 + i / 32
  | .glink, i | .optm, i => 14 + i / 4
  | .rdsp, i => 4 + i / 136
  | .fft, i | .ldpc, i | .polar, i | .chirp, i => 4 + i
  | .eth, i | .tmgr, i => if i < 8 then 4 else 5
  | _, _ => 4

/-- Role of a register in a pair of R12. -/
inductive PairRole where
  | none
  | lo
  | hi
  deriving DecidableEq, Repr

/-- A register, or an array of `n` of them `stride` apart: the bits a write stores, the bits a written 1 clears, the
reset value, and its place in a pair. -/
structure RegSpec where
  off : Nat
  n : Nat
  stride : Nat
  rw : Word
  w1c : Word
  reset : Word
  pair : PairRole
  deriving DecidableEq, Repr

/-- Registers of the CHIP page (R29, R203, R448). -/
def chipRegs : List RegSpec := [
  -- CHIP_INFO
  ⟨0x040, 1, 4, 0, 0, 0, .none⟩,
  -- DMAP_GEN
  ⟨0x044, 1, 4, 0, 0, 0, .none⟩,
  -- DMAP_ADDR
  ⟨0x048, 1, 4, 0xFFFFFFFF, 0, 0, .none⟩,
  -- DMAP_DATA
  ⟨0x04C, 1, 4, 0, 0, 0, .none⟩,
  -- DMAP_SNAPGEN
  ⟨0x050, 1, 4, 0, 0, 0, .none⟩,
  -- WINGS
  ⟨0x054, 1, 4, 0, 0, 0, .none⟩,
  -- WINGS_E
  ⟨0x058, 1, 4, 0, 0, 0, .none⟩,
  -- ACTIVE_CL
  ⟨0x05C, 1, 4, 0, 0, 0, .none⟩,
  -- DMAP_DIG0-7
  ⟨0x060, 8, 4, 0, 0, 0, .none⟩,
  -- MODE_LOCK
  ⟨0x080, 1, 4, 0x1, 0, 0, .none⟩,
  -- FW_VER
  ⟨0x084, 1, 4, 0, 0, 0, .none⟩,
  -- JOB_CHIPS
  ⟨0x088, 1, 4, 0x7FFF, 0, 0x1, .none⟩,
  -- PB_WRITTEN
  ⟨0x08C, 1, 4, 0, 0, 0, .none⟩,
  -- PB_PLACECHG
  ⟨0x090, 1, 4, 0, 0, 0, .none⟩,
  -- UND_CTRL
  ⟨0x094, 1, 4, 0xFF03, 0, 0, .none⟩,
  -- UND_PEER
  ⟨0x098, 1, 4, 0x3FFF, 0, 0, .none⟩,
  -- UND_STAT
  ⟨0x09C, 1, 4, 0, 0, 0, .none⟩,
  -- UND_PROMOTE
  ⟨0x0A0, 1, 4, 0xFFFF, 0, 0x100, .none⟩,
  -- UND_MATCH
  ⟨0x0A4, 1, 4, 0, 0, 0, .none⟩,
  -- UND_MISS
  ⟨0x0A8, 1, 4, 0, 0, 0, .none⟩,
  -- UND_COMPARED
  ⟨0x0AC, 1, 4, 0, 0, 0, .none⟩,
  -- LC_STATE
  ⟨0x0C0, 1, 4, 0, 0, 0, .none⟩,
  -- BOOT_STAT
  ⟨0x0C4, 1, 4, 0, 0, 0, .none⟩,
  -- BOOT_MS
  ⟨0x0C8, 1, 4, 0, 0, 0, .none⟩,
  -- LC_NONCE0-7
  ⟨0x0D0, 8, 4, 0, 0, 0, .none⟩,
  -- LC_TOKEN_LO
  ⟨0x0F0, 1, 4, 0xFFFFFFFF, 0, 0, .lo⟩,
  -- LC_TOKEN_HI
  ⟨0x0F4, 1, 4, 0xFFFFFFFF, 0, 0, .hi⟩,
  -- LC_REQ
  ⟨0x0F8, 1, 4, 0, 0, 0, .none⟩,
  -- LC_RESULT
  ⟨0x0FC, 1, 4, 0, 0, 0, .none⟩,
  -- FWU_ADDR_LO
  ⟨0x100, 1, 4, 0xFFFFF000, 0, 0, .lo⟩,
  -- FWU_ADDR_HI
  ⟨0x104, 1, 4, 0xFFFFFFFF, 0, 0, .hi⟩,
  -- FWU_BYTES
  ⟨0x108, 1, 4, 0x3FFFFFF, 0, 0, .none⟩,
  -- FWU_CTRL
  ⟨0x10C, 1, 4, 0, 0, 0, .none⟩,
  -- FWU_STAT
  ⟨0x110, 1, 4, 0, 0, 0, .none⟩,
  -- FWU_SVN
  ⟨0x114, 1, 4, 0, 0, 0, .none⟩]

/-- Registers of the FAULT page (R415, R416). -/
def faultRegs : List RegSpec := [
  -- FAULT_CTRL
  ⟨0x040, 1, 4, 0x7FF, 0, 0x8, .none⟩,
  -- FAULT_STAT
  ⟨0x044, 1, 4, 0, 0, 0, .none⟩,
  -- DOM_FAULT
  ⟨0x048, 1, 4, 0, 0, 0, .none⟩,
  -- FQ_COUNT
  ⟨0x04C, 1, 4, 0, 0, 0, .none⟩,
  -- FQ_SRC
  ⟨0x050, 1, 4, 0, 0, 0, .none⟩,
  -- FQ_PAGE
  ⟨0x054, 1, 4, 0, 0, 0, .none⟩,
  -- FQ_INFO
  ⟨0x058, 1, 4, 0, 0, 0, .none⟩,
  -- FQ_TIME
  ⟨0x05C, 1, 4, 0, 0, 0, .none⟩,
  -- FQ_LOST
  ⟨0x060, 1, 4, 0, 0, 0, .none⟩,
  -- ALERT_PEND
  ⟨0x064, 1, 4, 0, 0x3F, 0, .none⟩,
  -- ALERT_MASK
  ⟨0x068, 1, 4, 0x3F, 0, 0, .none⟩,
  -- HS_CTRL
  ⟨0x070, 1, 4, 0x3FF03FF, 0, 0xC8012C, .none⟩,
  -- EXP_MAX
  ⟨0x074, 1, 4, 0xFF, 0, 0x4, .none⟩,
  -- EXP_WIN
  ⟨0x078, 1, 4, 0xFFFF, 0, 0x5A0, .none⟩,
  -- EXP_USED
  ⟨0x07C, 1, 4, 0, 0, 0, .none⟩,
  -- HS_CHIP
  ⟨0x080, 1, 4, 0, 0, 0x3E8, .none⟩,
  -- TJ_WARN
  ⟨0x084, 1, 4, 0xFF, 0, 0x69, .none⟩,
  -- TJ_TRIP
  ⟨0x088, 1, 4, 0, 0, 0x78, .none⟩,
  -- TJ_MAX
  ⟨0x08C, 1, 4, 0, 0, 0, .none⟩,
  -- MON_SEL
  ⟨0x090, 1, 4, 0xFF7F01FF, 0, 0, .none⟩,
  -- MON_MARGIN
  ⟨0x094, 1, 4, 0, 0, 0, .none⟩,
  -- MON_AGE
  ⟨0x098, 1, 4, 0, 0, 0, .none⟩,
  -- MON_TEMP
  ⟨0x09C, 1, 4, 0, 0, 0, .none⟩,
  -- MON_DROOP
  ⟨0x0A0, 1, 4, 0, 0, 0, .none⟩,
  -- HS_SEL
  ⟨0x0B0, 1, 4, 0xFFFF, 0, 0, .none⟩,
  -- HS_DATA
  ⟨0x0B4, 1, 4, 0, 0, 0, .none⟩]

/-- Registers of the TIME page (R309, R310). -/
def timeRegs : List RegSpec := [
  -- TB_FRAC
  ⟨0x100, 8, 0x40, 0, 0, 0, .none⟩,
  -- TB_NS
  ⟨0x104, 8, 0x40, 0, 0, 0, .none⟩,
  -- TB_SEC_LO
  ⟨0x108, 8, 0x40, 0, 0, 0, .none⟩,
  -- TB_SEC_HI
  ⟨0x10C, 8, 0x40, 0, 0, 0, .none⟩,
  -- TB_INC_LO
  ⟨0x110, 8, 0x40, 0xFFFFFFFF, 0, 0, .lo⟩,
  -- TB_INC_HI
  ⟨0x114, 8, 0x40, 0xFF, 0, 0x1, .hi⟩,
  -- TB_ADJ_LO
  ⟨0x118, 8, 0x40, 0xFFFFFFFF, 0, 0, .lo⟩,
  -- TB_ADJ_HI
  ⟨0x11C, 8, 0x40, 0xFFFFFFFF, 0, 0, .hi⟩,
  -- TB_SET_NS
  ⟨0x120, 8, 0x40, 0x3FFFFFFF, 0, 0, .none⟩,
  -- TB_SET_SEC_LO
  ⟨0x124, 8, 0x40, 0xFFFFFFFF, 0, 0, .lo⟩,
  -- TB_SET_SEC_HI
  ⟨0x128, 8, 0x40, 0xFFFF, 0, 0, .hi⟩,
  -- TB_CMD
  ⟨0x12C, 8, 0x40, 0, 0, 0, .none⟩,
  -- TB_STEPS
  ⟨0x130, 8, 0x40, 0, 0, 0, .none⟩,
  -- TB_T64_LO
  ⟨0x134, 8, 0x40, 0, 0, 0, .lo⟩,
  -- TB_T64_HI
  ⟨0x138, 8, 0x40, 0, 0, 0, .hi⟩,
  -- LTC_CTRL
  ⟨0x300, 1, 4, 0x3, 0, 0x1, .none⟩,
  -- LTC_NS
  ⟨0x304, 1, 4, 0, 0, 0, .none⟩,
  -- LTC_FRAC
  ⟨0x308, 1, 4, 0, 0, 0, .none⟩,
  -- LTC_INC
  ⟨0x30C, 1, 4, 0xFFFFFFFF, 0, 0x1000000, .none⟩,
  -- LTC_SET
  ⟨0x310, 1, 4, 0, 0, 0, .none⟩,
  -- TPO_CTRL
  ⟨0x400, 16, 0x20, 0x73, 0, 0, .none⟩,
  -- TPO_START_NS
  ⟨0x404, 16, 0x20, 0x3FFFFFFF, 0, 0, .none⟩,
  -- TPO_START_SEC_LO
  ⟨0x408, 16, 0x20, 0xFFFFFFFF, 0, 0, .lo⟩,
  -- TPO_START_SEC_HI
  ⟨0x40C, 16, 0x20, 0xFFFF, 0, 0, .hi⟩,
  -- TPO_PERIOD
  ⟨0x410, 16, 0x20, 0xFFFFFFFF, 0, 0, .none⟩,
  -- TPO_WIDTH
  ⟨0x414, 16, 0x20, 0xFFFFFFFF, 0, 0x4, .none⟩,
  -- TPO_STAT
  ⟨0x418, 16, 0x20, 0, 0x2, 0, .none⟩,
  -- TCI_CTRL
  ⟨0x600, 8, 0x20, 0x77, 0, 0, .none⟩,
  -- TCI_NS
  ⟨0x604, 8, 0x20, 0, 0, 0, .none⟩,
  -- TCI_SEC_LO
  ⟨0x608, 8, 0x20, 0, 0, 0, .none⟩,
  -- TCI_SEC_HI
  ⟨0x60C, 8, 0x20, 0, 0, 0, .none⟩,
  -- TCI_LTC
  ⟨0x610, 8, 0x20, 0, 0, 0, .none⟩,
  -- TCI_STAT
  ⟨0x614, 8, 0x20, 0, 0x20, 0, .none⟩,
  -- PTP_CTRL
  ⟨0x800, 1, 4, 0xFFFF0007, 0, 0, .none⟩,
  -- PTP_DOM
  ⟨0x810, 8, 4, 0xFF0F, 0, 0, .none⟩,
  -- PTPQ_BASE_LO
  ⟨0x840, 1, 4, 0xFFFFF800, 0, 0, .lo⟩,
  -- PTPQ_BASE_HI
  ⟨0x844, 1, 4, 0xFFFFFFFF, 0, 0, .hi⟩,
  -- PTPQ_SIZE
  ⟨0x848, 1, 4, 0x11F, 0, 0x6, .none⟩,
  -- PTPQ_TAIL
  ⟨0x84C, 1, 4, 0, 0, 0, .none⟩,
  -- PTPQ_HEAD
  ⟨0x850, 1, 4, 0xFFFFFFFF, 0, 0, .none⟩,
  -- TXTS_INFO
  ⟨0x860, 1, 4, 0, 0, 0, .none⟩,
  -- TXTS_NS
  ⟨0x864, 1, 4, 0, 0, 0, .none⟩,
  -- TXTS_SEC_LO
  ⟨0x868, 1, 4, 0, 0, 0, .none⟩,
  -- TXTS_SEC_HI
  ⟨0x86C, 1, 4, 0, 0, 0, .none⟩,
  -- TXTS_FRAC
  ⟨0x870, 1, 4, 0, 0, 0, .none⟩,
  -- SYNCE_CTRL
  ⟨0x900, 2, 4, 0x3F3, 0, 0, .none⟩]

/-- Registers of the RUNORD page (R174 to R176). -/
def runordRegs : List RegSpec := [
  -- RO_CTRL
  ⟨0x040, 1, 4, 0xF077, 0, 0x6003, .none⟩,
  -- RO_STAT
  ⟨0x044, 1, 4, 0, 0, 0, .none⟩,
  -- RO_ALIGN
  ⟨0x048, 1, 4, 0x1FFFF, 0, 0, .none⟩,
  -- RO_PERIODS_LO
  ⟨0x04C, 1, 4, 0, 0, 0, .lo⟩,
  -- RO_PERIODS_HI
  ⟨0x050, 1, 4, 0, 0, 0, .hi⟩,
  -- RO_REALIGN
  ⟨0x054, 1, 4, 0, 0, 0, .none⟩,
  -- RO_TBL_ADDR
  ⟨0x058, 1, 4, 0x3F0FFF, 0, 0, .none⟩,
  -- RO_TBL_DATA
  ⟨0x05C, 1, 4, 0, 0, 0, .none⟩,
  -- RO_BIND_ADDR
  ⟨0x060, 1, 4, 0x1FF, 0, 0, .none⟩,
  -- RO_BIND_DATA
  ⟨0x064, 1, 4, 0, 0, 0, .none⟩,
  -- RO_BORROW_LO
  ⟨0x068, 1, 4, 0, 0, 0, .lo⟩,
  -- RO_BORROW_HI
  ⟨0x06C, 1, 4, 0, 0, 0, .hi⟩,
  -- RO_YIELDS
  ⟨0x070, 1, 4, 0, 0, 0, .none⟩,
  -- RO_OVERRUN
  ⟨0x074, 1, 4, 0, 0, 0, .none⟩,
  -- P_CFG
  ⟨0x100, 16, 0x40, 0xFFFF00F1, 0, 0, .none⟩,
  -- P_RESERVE
  ⟨0x104, 16, 0x40, 0xFFFFFFFF, 0, 0, .none⟩,
  -- P_CAP
  ⟨0x108, 16, 0x40, 0xFFFFFFFF, 0, 0xFFFFFFFF, .none⟩,
  -- P_BUDGET
  ⟨0x10C, 16, 0x40, 0, 0, 0, .none⟩,
  -- P_LOAD
  ⟨0x110, 16, 0x40, 0, 0, 0, .none⟩,
  -- P_RUNLEN
  ⟨0x114, 16, 0x40, 0, 0, 0, .none⟩,
  -- P_MISS
  ⟨0x118, 16, 0x40, 0, 0, 0, .none⟩,
  -- P_CUT
  ⟨0x11C, 16, 0x40, 0, 0, 0, .none⟩,
  -- P_LATE
  ⟨0x120, 16, 0x40, 0, 0, 0, .none⟩,
  -- P_REFUSED
  ⟨0x124, 16, 0x40, 0, 0, 0, .none⟩,
  -- P_FB_LO
  ⟨0x128, 16, 0x40, 0xFFFFFFC0, 0, 0, .lo⟩,
  -- P_FB_HI
  ⟨0x12C, 16, 0x40, 0xFFFFFFFF, 0, 0, .hi⟩,
  -- P_FB_FAIL
  ⟨0x130, 16, 0x40, 0, 0, 0, .none⟩,
  -- RO_SHARE
  ⟨0x800, 256, 4, 0xFFFFFFFF, 0, 0x10001, .none⟩]

/-- Registers of the PWR page (R432, R433). -/
def pwrRegs : List RegSpec := [
  -- PWR_CTRL
  ⟨0x040, 1, 4, 0xF, 0, 0xD, .none⟩,
  -- PWR_STAT
  ⟨0x044, 1, 4, 0, 0, 0, .none⟩,
  -- VIN_POWER
  ⟨0x048, 1, 4, 0, 0, 0, .none⟩,
  -- VIN_CURRENT
  ⟨0x04C, 1, 4, 0, 0, 0, .none⟩,
  -- TDP_W
  ⟨0x050, 1, 4, 0xFFF, 0, 0x834, .none⟩,
  -- EDC
  ⟨0x054, 1, 4, 0xF0FFF, 0, 0x50A28, .none⟩,
  -- QOP
  ⟨0x058, 1, 4, 0, 0, 0, .none⟩,
  -- OP_FLOOR
  ⟨0x05C, 1, 4, 0x7, 0, 0x4, .none⟩,
  -- CEIL
  ⟨0x060, 1, 4, 0, 0, 0x8888, .none⟩,
  -- DIM_IDLE
  ⟨0x064, 1, 4, 0xFFFF, 0, 0x400, .none⟩,
  -- PWR_RST
  ⟨0x068, 1, 4, 0, 0, 0, .none⟩,
  -- RST_STAT
  ⟨0x06C, 1, 4, 0, 0, 0, .none⟩,
  -- DOM_RST
  ⟨0x070, 1, 4, 0, 0, 0, .none⟩,
  -- RST_CAUSE
  ⟨0x074, 1, 4, 0, 0, 0, .none⟩,
  -- CNT_WARM
  ⟨0x078, 1, 4, 0, 0, 0, .none⟩,
  -- CNT_DOM
  ⟨0x07C, 1, 4, 0, 0, 0, .none⟩,
  -- CNT_UNIT
  ⟨0x080, 1, 4, 0, 0, 0, .none⟩,
  -- LIMIT_US_LO
  ⟨0x084, 1, 4, 0, 0, 0, .lo⟩,
  -- LIMIT_US_HI
  ⟨0x088, 1, 4, 0, 0, 0, .hi⟩,
  -- OP_CHANGES
  ⟨0x08C, 1, 4, 0, 0, 0, .none⟩,
  -- EDC_EVENTS
  ⟨0x090, 1, 4, 0, 0, 0, .none⟩,
  -- CL_PWR_SEL
  ⟨0x0A0, 1, 4, 0xFF, 0, 0, .none⟩,
  -- CL_PWR
  ⟨0x0A4, 1, 4, 0, 0, 0, .none⟩,
  -- CL_WAKE_US
  ⟨0x0A8, 1, 4, 0, 0, 0, .none⟩]

/-- Registers of the LIFE page (R418). -/
def lifeRegs : List RegSpec := [
  -- LOG_STAT
  ⟨0x040, 1, 4, 0, 0, 0x6401, .none⟩,
  -- EV_POS
  ⟨0x044, 1, 4, 0, 0, 0, .none⟩,
  -- EV_DROPPED
  ⟨0x048, 1, 4, 0, 0, 0, .none⟩,
  -- SNAP_POS
  ⟨0x04C, 1, 4, 0, 0, 0, .none⟩,
  -- DAY_POS
  ⟨0x050, 1, 4, 0, 0, 0, .none⟩,
  -- POH_LO
  ⟨0x054, 1, 4, 0, 0, 0, .lo⟩,
  -- POH_HI
  ⟨0x058, 1, 4, 0, 0, 0, .hi⟩,
  -- BOOTS
  ⟨0x05C, 1, 4, 0, 0, 0, .none⟩,
  -- RD_ADDR
  ⟨0x060, 1, 4, 0x7FFFFFC, 0, 0, .none⟩,
  -- RD_DATA
  ⟨0x064, 1, 4, 0, 0, 0, .none⟩,
  -- SNAP_NOW
  ⟨0x068, 1, 4, 0, 0, 0, .none⟩]

/-- Registers of the STAGE pages (R152, R153). -/
def stageRegs : List RegSpec := [
  -- SM_CTRL
  ⟨0x040, 1, 4, 0x7F1, 0, 0x31, .none⟩,
  -- READY_CNT
  ⟨0x044, 1, 4, 0, 0, 0, .none⟩,
  -- PLAYING_CNT
  ⟨0x048, 1, 4, 0, 0, 0, .none⟩,
  -- GRAPHS_OPEN
  ⟨0x04C, 1, 4, 0, 0, 0, .none⟩,
  -- ACCEPTED_LO
  ⟨0x050, 1, 4, 0, 0, 0, .lo⟩,
  -- ACCEPTED_HI
  ⟨0x054, 1, 4, 0, 0, 0, .hi⟩,
  -- RELEASED_LO
  ⟨0x058, 1, 4, 0, 0, 0, .lo⟩,
  -- RELEASED_HI
  ⟨0x05C, 1, 4, 0, 0, 0, .hi⟩,
  -- RERUNS
  ⟨0x060, 1, 4, 0, 0, 0, .none⟩,
  -- DEDUP_DISC
  ⟨0x064, 1, 4, 0, 0, 0, .none⟩,
  -- REJECTS
  ⟨0x068, 1, 4, 0, 0, 0, .none⟩,
  -- PREEMPT_REQ
  ⟨0x06C, 1, 4, 0, 0, 0, .none⟩,
  -- SPEC_LINES_LO
  ⟨0x070, 1, 4, 0, 0, 0, .lo⟩,
  -- SPEC_LINES_HI
  ⟨0x074, 1, 4, 0, 0, 0, .hi⟩,
  -- SPEC_CANCEL
  ⟨0x078, 1, 4, 0, 0, 0, .none⟩,
  -- RETURNED
  ⟨0x07C, 1, 4, 0, 0, 0, .none⟩,
  -- PB_POS_LO
  ⟨0x080, 1, 4, 0, 0, 0, .lo⟩,
  -- PB_POS_HI
  ⟨0x084, 1, 4, 0, 0, 0, .hi⟩,
  -- PB_FREE
  ⟨0x088, 1, 4, 0, 0, 0, .none⟩,
  -- TAIL_USED
  ⟨0x08C, 1, 4, 0, 0, 0, .none⟩,
  -- RETURN_PEND
  ⟨0x090, 1, 4, 0, 0, 0, .none⟩]

/-- Registers of the STGH page (R124). -/
def stghRegs : List RegSpec := [
  -- TWD_MS
  ⟨0x040, 1, 4, 0x3FFF, 0, 0x64, .none⟩,
  -- CWD_MS
  ⟨0x044, 1, 4, 0xFF, 0, 0xA, .none⟩,
  -- RPT_VER
  ⟨0x048, 1, 4, 0, 0, 0, .none⟩,
  -- RPT_COUNT
  ⟨0x04C, 1, 4, 0, 0, 0xE, .none⟩,
  -- THR_BUSY
  ⟨0x050, 1, 4, 0, 0, 0, .none⟩,
  -- CALLQ_DEPTH
  ⟨0x054, 1, 4, 0, 0, 0, .none⟩,
  -- TWD_EXP
  ⟨0x058, 1, 4, 0, 0, 0, .none⟩,
  -- CORE_RST
  ⟨0x05C, 1, 4, 0, 0, 0, .none⟩,
  -- CALLS_LO
  ⟨0x060, 1, 4, 0, 0, 0, .lo⟩,
  -- CALLS_HI
  ⟨0x064, 1, 4, 0, 0, 0, .hi⟩,
  -- CORE_EN
  ⟨0x068, 1, 4, 0, 0, 0xFFFFFFFF, .none⟩]

/-- Registers of the CLUS pages (R89, R125). -/
def clusRegs : List RegSpec := [
  -- CL_STATE
  ⟨0x040, 1, 4, 0, 0, 0, .none⟩,
  -- CU_MAP
  ⟨0x044, 1, 4, 0, 0, 0, .none⟩,
  -- CTX_STAT
  ⟨0x048, 1, 4, 0, 0, 0, .none⟩,
  -- ISSUE_CYC_LO
  ⟨0x060, 1, 4, 0, 0, 0, .lo⟩,
  -- ISSUE_CYC_HI
  ⟨0x064, 1, 4, 0, 0, 0, .hi⟩,
  -- FILLER_CYC_LO
  ⟨0x068, 1, 4, 0, 0, 0, .lo⟩,
  -- FILLER_CYC_HI
  ⟨0x06C, 1, 4, 0, 0, 0, .hi⟩,
  -- BEATS
  ⟨0x070, 1, 4, 0, 0, 0, .none⟩,
  -- PREEMPTS
  ⟨0x074, 1, 4, 0, 0, 0, .none⟩,
  -- BANK_STALL
  ⟨0x078, 1, 4, 0, 0, 0, .none⟩,
  -- WRCOLL
  ⟨0x07C, 1, 4, 0, 0, 0, .none⟩,
  -- NUM_SAT
  ⟨0x080, 1, 4, 0, 0, 0, .none⟩,
  -- NUM_FLUSH
  ⟨0x084, 1, 4, 0, 0, 0, .none⟩,
  -- NUM_FBS
  ⟨0x088, 1, 4, 0, 0, 0, .none⟩,
  -- NUM_ZBLK
  ⟨0x08C, 1, 4, 0, 0, 0, .none⟩,
  -- NUM_NAN
  ⟨0x090, 1, 4, 0, 0, 0, .none⟩,
  -- NUM_WIDE
  ⟨0x094, 1, 4, 0, 0, 0, .none⟩,
  -- CNT_CLR
  ⟨0x098, 1, 4, 0, 0, 0, .none⟩,
  -- RESIDUE_ERR
  ⟨0x09C, 1, 4, 0, 0, 0, .none⟩,
  -- SEQ_STAT
  ⟨0x0A0, 1, 4, 0, 0, 0, .none⟩,
  -- SEQ_POS
  ⟨0x0A4, 1, 4, 0, 0, 0, .none⟩,
  -- SEQ_DISP_LO
  ⟨0x0A8, 1, 4, 0, 0, 0, .lo⟩,
  -- SEQ_DISP_HI
  ⟨0x0AC, 1, 4, 0, 0, 0, .hi⟩]

/-- Registers of the HBMC pages (R328, R329). -/
def hbmcRegs : List RegSpec := [
  -- HC_STATE
  ⟨0x040, 1, 4, 0, 0, 0, .none⟩,
  -- RD_LINES_LO
  ⟨0x044, 1, 4, 0, 0, 0, .lo⟩,
  -- RD_LINES_HI
  ⟨0x048, 1, 4, 0, 0, 0, .hi⟩,
  -- WR_LINES_LO
  ⟨0x04C, 1, 4, 0, 0, 0, .lo⟩,
  -- WR_LINES_HI
  ⟨0x050, 1, 4, 0, 0, 0, .hi⟩,
  -- SPEC_RD_LO
  ⟨0x054, 1, 4, 0, 0, 0, .lo⟩,
  -- SPEC_RD_HI
  ⟨0x058, 1, 4, 0, 0, 0, .hi⟩,
  -- SCRUB_LINES_LO
  ⟨0x05C, 1, 4, 0, 0, 0, .lo⟩,
  -- SCRUB_LINES_HI
  ⟨0x060, 1, 4, 0, 0, 0, .hi⟩,
  -- CE_SINGLE
  ⟨0x064, 1, 4, 0, 0, 0, .none⟩,
  -- CE_ADJ
  ⟨0x068, 1, 4, 0, 0, 0, .none⟩,
  -- UE
  ⟨0x06C, 1, 4, 0, 0, 0, .none⟩,
  -- POISON_RD
  ⟨0x070, 1, 4, 0, 0, 0, .none⟩,
  -- ECC_LAST
  ⟨0x074, 1, 4, 0, 0, 0x3F80, .none⟩,
  -- REPAIRS
  ⟨0x078, 1, 4, 0, 0, 0, .none⟩,
  -- REPAIR_LEFT
  ⟨0x07C, 1, 4, 0, 0, 0x4, .none⟩,
  -- REPAIR_N
  ⟨0x080, 1, 4, 0xFF, 0, 0x4, .none⟩,
  -- CNT_CLR
  ⟨0x084, 1, 4, 0, 0, 0, .none⟩,
  -- STK_ID0-3
  ⟨0x090, 4, 4, 0, 0, 0, .none⟩]

/-- Registers of the HASH page (R327). -/
def hashRegs : List RegSpec := [
  -- XL_ADDR_LO
  ⟨0x040, 1, 4, 0xFFFFFFFF, 0, 0, .lo⟩,
  -- XL_ADDR_HI
  ⟨0x044, 1, 4, 0xFFFFFFFF, 0, 0, .hi⟩,
  -- XL_RESULT
  ⟨0x048, 1, 4, 0, 0, 0, .none⟩,
  -- XL_LA
  ⟨0x04C, 1, 4, 0, 0, 0, .none⟩,
  -- RSV_BASE_LO
  ⟨0x050, 1, 4, 0, 0, 0x80000000, .lo⟩,
  -- RSV_BASE_HI
  ⟨0x054, 1, 4, 0, 0, 0xBF, .hi⟩,
  -- WIPE_STAT
  ⟨0x058, 1, 4, 0, 0, 0, .none⟩,
  -- WIPE_LAST_US
  ⟨0x05C, 1, 4, 0, 0, 0, .none⟩,
  -- SCRUB_HRS
  ⟨0x060, 1, 4, 0xFF, 0, 0x18, .none⟩,
  -- CS_SCRUB_MS
  ⟨0x064, 1, 4, 0xFFFF, 0, 0x3E8, .none⟩,
  -- SCRUB_PASS
  ⟨0x068, 1, 4, 0, 0, 0, .none⟩,
  -- POISON_LINES
  ⟨0x06C, 1, 4, 0, 0, 0, .none⟩]

/-- Registers of the GLINK pages (R369, R370). -/
def glinkRegs : List RegSpec := [
  -- GL_CTRL
  ⟨0x040, 1, 4, 0xF3, 0, 0x1, .none⟩,
  -- GL_STAT
  ⟨0x044, 1, 4, 0, 0, 0, .none⟩,
  -- LANE_MAP
  ⟨0x048, 1, 4, 0, 0, 0x25FF, .none⟩,
  -- LANE_MAP_RX
  ⟨0x04C, 1, 4, 0, 0, 0x25FF, .none⟩,
  -- PEER
  ⟨0x050, 1, 4, 0, 0, 0, .none⟩,
  -- DAMP_PEN
  ⟨0x054, 1, 4, 0, 0, 0, .none⟩,
  -- FLITS_TX_LO
  ⟨0x058, 1, 4, 0, 0, 0, .lo⟩,
  -- FLITS_TX_HI
  ⟨0x05C, 1, 4, 0, 0, 0, .hi⟩,
  -- FLITS_RX_LO
  ⟨0x060, 1, 4, 0, 0, 0, .lo⟩,
  -- FLITS_RX_HI
  ⟨0x064, 1, 4, 0, 0, 0, .hi⟩,
  -- FEC_CORR
  ⟨0x068, 1, 4, 0, 0, 0, .none⟩,
  -- FEC_UNCORR
  ⟨0x06C, 1, 4, 0, 0, 0, .none⟩,
  -- CRC_ERR
  ⟨0x070, 1, 4, 0, 0, 0, .none⟩,
  -- REPLAYS
  ⟨0x074, 1, 4, 0, 0, 0, .none⟩,
  -- RETRAINS
  ⟨0x078, 1, 4, 0, 0, 0, .none⟩,
  -- FLAPS
  ⟨0x07C, 1, 4, 0, 0, 0, .none⟩,
  -- SPARES
  ⟨0x080, 1, 4, 0, 0, 0, .none⟩,
  -- CNT_CLR
  ⟨0x084, 1, 4, 0, 0, 0, .none⟩,
  -- LANE_ERR
  ⟨0x0C0, 10, 4, 0, 0, 0, .none⟩]

/-- Registers of the FABRIC page (R371). -/
def fabricRegs : List RegSpec := [
  -- FAB_NODE
  ⟨0x040, 1, 4, 0x80003FFF, 0, 0, .none⟩,
  -- FAB_CTRL
  ⟨0x044, 1, 4, 0x7, 0, 0x7, .none⟩,
  -- E2E_TO_US
  ⟨0x048, 1, 4, 0xFF, 0, 0x8, .none⟩,
  -- E2E_RETRY_MAX
  ⟨0x04C, 1, 4, 0xF, 0, 0x8, .none⟩,
  -- MIR_LOSS_US
  ⟨0x050, 1, 4, 0xFFFF, 0, 0x64, .none⟩,
  -- WITNESS
  ⟨0x054, 1, 4, 0xBFFFBFFF, 0, 0, .none⟩,
  -- FAB_ALIAS
  ⟨0x058, 1, 4, 0, 0, 0, .none⟩,
  -- RT_ADDR
  ⟨0x05C, 1, 4, 0x3FFF, 0, 0, .none⟩,
  -- RT_DATA_LO
  ⟨0x060, 1, 4, 0x3FFFFFFF, 0, 0x3FFFFFFF, .lo⟩,
  -- RT_DATA_HI
  ⟨0x064, 1, 4, 0x3FFFF, 0, 0x3FFFF, .hi⟩,
  -- LOST_ADDR
  ⟨0x068, 1, 4, 0x1FF, 0, 0, .none⟩,
  -- LOST_DATA
  ⟨0x06C, 1, 4, 0, 0, 0, .none⟩,
  -- REVIVE
  ⟨0x070, 1, 4, 0, 0, 0, .none⟩,
  -- RD_OUT
  ⟨0x074, 1, 4, 0, 0, 0, .none⟩,
  -- UNACKED
  ⟨0x078, 1, 4, 0, 0, 0, .none⟩,
  -- TAGS_HELD
  ⟨0x07C, 1, 4, 0, 0, 0, .none⟩,
  -- E2E_RETX
  ⟨0x080, 1, 4, 0, 0, 0, .none⟩,
  -- E2E_DUP
  ⟨0x084, 1, 4, 0, 0, 0, .none⟩,
  -- REORD_DROP
  ⟨0x088, 1, 4, 0, 0, 0, .none⟩,
  -- NODES_LOST
  ⟨0x08C, 1, 4, 0, 0, 0, .none⟩,
  -- TAG_BUSY
  ⟨0x090, 1, 4, 0, 0, 0, .none⟩,
  -- TAKEOVERS
  ⟨0x094, 1, 4, 0, 0, 0, .none⟩,
  -- SPEC_RD_LO
  ⟨0x098, 1, 4, 0, 0, 0, .lo⟩,
  -- SPEC_RD_HI
  ⟨0x09C, 1, 4, 0, 0, 0, .hi⟩,
  -- REM_RD_LO
  ⟨0x0A0, 1, 4, 0, 0, 0, .lo⟩,
  -- REM_RD_HI
  ⟨0x0A4, 1, 4, 0, 0, 0, .hi⟩,
  -- FWD_LO
  ⟨0x0A8, 1, 4, 0, 0, 0, .lo⟩,
  -- FWD_HI
  ⟨0x0AC, 1, 4, 0, 0, 0, .hi⟩,
  -- CNT_CLR
  ⟨0x0B0, 1, 4, 0, 0, 0, .none⟩,
  -- GRP_N
  ⟨0x400, 64, 0x10, 0x7FFF, 0, 0, .none⟩,
  -- GRP_LIST_LO
  ⟨0x404, 64, 0x10, 0xFFFFFFFF, 0, 0, .lo⟩,
  -- GRP_LIST_HI
  ⟨0x408, 64, 0x10, 0xFFFFFFFF, 0, 0, .hi⟩,
  -- GRP_STAT
  ⟨0x40C, 64, 0x10, 0, 0, 0, .none⟩]

/-- Registers of the RDSP pages (R229, R230). -/
def rdspRegs : List RegSpec := [
  -- DSP_STATE
  ⟨0x040, 1, 4, 0, 0, 0, .none⟩,
  -- DSP_CTRL
  ⟨0x044, 1, 4, 0x73, 0, 0, .none⟩,
  -- DSP_STAT
  ⟨0x048, 1, 4, 0, 0x3C, 0, .none⟩,
  -- DSP_PC
  ⟨0x04C, 1, 4, 0, 0, 0, .none⟩,
  -- HZ_INFO
  ⟨0x050, 1, 4, 0, 0, 0, .none⟩,
  -- IRQ_PEND
  ⟨0x054, 1, 4, 0, 0, 0, .none⟩,
  -- TCMP_LO
  ⟨0x058, 1, 4, 0xFFFFFFFF, 0, 0, .lo⟩,
  -- TCMP_HI
  ⟨0x05C, 1, 4, 0xFFFFFFFF, 0, 0, .hi⟩,
  -- PMEM_ADDR
  ⟨0x060, 1, 4, 0xFFFC, 0, 0, .none⟩,
  -- PMEM_DATA
  ⟨0x064, 1, 4, 0, 0, 0, .none⟩,
  -- CYC_LO
  ⟨0x070, 1, 4, 0, 0, 0, .lo⟩,
  -- CYC_HI
  ⟨0x074, 1, 4, 0, 0, 0, .hi⟩,
  -- BUNDLES
  ⟨0x078, 1, 4, 0, 0, 0, .none⟩,
  -- STALL_CYC
  ⟨0x07C, 1, 4, 0, 0, 0, .none⟩,
  -- WAW_CNT
  ⟨0x080, 1, 4, 0, 0, 0, .none⟩,
  -- IRQ_CNT
  ⟨0x084, 1, 4, 0, 0, 0, .none⟩,
  -- HZ_CNT
  ⟨0x088, 1, 4, 0, 0, 0, .none⟩,
  -- CNT_CLR
  ⟨0x090, 1, 4, 0, 0, 0, .none⟩]

/-- Registers of the registers of every accelerator page (R264). -/
def accelRegs : List RegSpec := [
  -- ENG_EN
  ⟨0x040, 1, 4, 0, 0, 0, .none⟩,
  -- ENG_EN2
  ⟨0x044, 1, 4, 0, 0, 0, .none⟩,
  -- JOBS_LO
  ⟨0x048, 1, 4, 0, 0, 0, .lo⟩,
  -- JOBS_HI
  ⟨0x04C, 1, 4, 0, 0, 0, .hi⟩,
  -- BUSY_LO
  ⟨0x050, 1, 4, 0, 0, 0, .lo⟩,
  -- BUSY_HI
  ⟨0x054, 1, 4, 0, 0, 0, .hi⟩,
  -- ITEMS_FAIL
  ⟨0x058, 1, 4, 0, 0, 0, .none⟩,
  -- MALFORMED
  ⟨0x05C, 1, 4, 0, 0, 0, .none⟩,
  -- ENG_ERR
  ⟨0x060, 1, 4, 0, 0, 0, .none⟩,
  -- CNT_CLR
  ⟨0x064, 1, 4, 0, 0, 0, .none⟩]

/-- Registers of the further registers of a CHIRP page (R265, R266). -/
def chirpRegs : List RegSpec := [
  -- CH_CTRL
  ⟨0x080, 1, 4, 0xFF7FFF, 0, 0x3028A6, .none⟩,
  -- RING_BASE_LO
  ⟨0x100, 4, 0x40, 0xFFFFFFC0, 0, 0, .lo⟩,
  -- RING_BASE_HI
  ⟨0x104, 4, 0x40, 0xFFFFFFFF, 0, 0, .hi⟩,
  -- RING_SIZE
  ⟨0x108, 4, 0x40, 0x1F, 0, 0x8, .none⟩,
  -- RING_TAIL
  ⟨0x10C, 4, 0x40, 0, 0, 0, .none⟩,
  -- RING_HEAD
  ⟨0x110, 4, 0x40, 0xFFFFFFFF, 0, 0, .none⟩,
  -- DETECT
  ⟨0x114, 4, 0x40, 0, 0, 0, .none⟩,
  -- FALSE_DET
  ⟨0x118, 4, 0x40, 0, 0, 0, .none⟩,
  -- UPSTAGED
  ⟨0x11C, 4, 0x40, 0, 0, 0, .none⟩,
  -- SAT_ABORT
  ⟨0x120, 4, 0x40, 0, 0, 0, .none⟩,
  -- OVERLAP_LOSS
  ⟨0x124, 4, 0x40, 0, 0, 0, .none⟩,
  -- BUSY_LOSS
  ⟨0x128, 4, 0x40, 0, 0, 0, .none⟩,
  -- PAY_OK
  ⟨0x12C, 4, 0x40, 0, 0, 0, .none⟩,
  -- PAY_CRC_FAIL
  ⟨0x130, 4, 0x40, 0, 0, 0, .none⟩,
  -- PILOT_LOST
  ⟨0x134, 4, 0x40, 0, 0, 0, .none⟩,
  -- RING_DROP
  ⟨0x138, 4, 0x40, 0, 0, 0, .none⟩,
  -- GAPS
  ⟨0x13C, 4, 0x40, 0, 0, 0, .none⟩,
  -- CH_CFG
  ⟨0x800, 512, 4, 0xFFFF007F, 0, 0, .none⟩]

/-- Registers of the ETH pages (R286, R288). -/
def ethRegs : List RegSpec := [
  -- ETH_CTRL
  ⟨0x040, 1, 4, 0x11FF3, 0, 0x11000, .none⟩,
  -- ETH_STAT
  ⟨0x044, 1, 4, 0, 0, 0, .none⟩,
  -- TS_RX_ADJ
  ⟨0x048, 1, 4, 0xFFFF, 0, 0, .none⟩,
  -- TS_TX_ADJ
  ⟨0x04C, 1, 4, 0xFFFF, 0, 0, .none⟩,
  -- RX_FRAMES_LO
  ⟨0x100, 4, 0x40, 0, 0, 0, .lo⟩,
  -- RX_FRAMES_HI
  ⟨0x104, 4, 0x40, 0, 0, 0, .hi⟩,
  -- RX_BYTES_LO
  ⟨0x108, 4, 0x40, 0, 0, 0, .lo⟩,
  -- RX_BYTES_HI
  ⟨0x10C, 4, 0x40, 0, 0, 0, .hi⟩,
  -- TX_FRAMES_LO
  ⟨0x110, 4, 0x40, 0, 0, 0, .lo⟩,
  -- TX_FRAMES_HI
  ⟨0x114, 4, 0x40, 0, 0, 0, .hi⟩,
  -- TX_BYTES_LO
  ⟨0x118, 4, 0x40, 0, 0, 0, .lo⟩,
  -- TX_BYTES_HI
  ⟨0x11C, 4, 0x40, 0, 0, 0, .hi⟩,
  -- RX_ERR
  ⟨0x120, 4, 0x40, 0, 0, 0, .none⟩,
  -- RX_CTRL
  ⟨0x124, 4, 0x40, 0, 0, 0, .none⟩,
  -- RX_NOMATCH
  ⟨0x128, 4, 0x40, 0, 0, 0, .none⟩,
  -- RX_BUF
  ⟨0x12C, 4, 0x40, 0, 0, 0, .none⟩,
  -- FEC_CORR
  ⟨0x130, 4, 0x40, 0, 0, 0, .none⟩,
  -- FEC_UNCORR
  ⟨0x134, 4, 0x40, 0, 0, 0, .none⟩,
  -- RX_FULL
  ⟨0x138, 4, 0x40, 0, 0, 0, .none⟩,
  -- RXQ_CTRL
  ⟨0x200, 16, 0x40, 0x7FFFFF, 0, 0, .none⟩,
  -- RXQ_BASE_LO
  ⟨0x204, 16, 0x40, 0xFFFFFFC0, 0, 0, .lo⟩,
  -- RXQ_BASE_HI
  ⟨0x208, 16, 0x40, 0xFFFFFFFF, 0, 0, .hi⟩,
  -- RXQ_SIZE
  ⟨0x20C, 16, 0x40, 0xF1F, 0, 0xB06, .none⟩,
  -- RXQ_TAIL
  ⟨0x210, 16, 0x40, 0, 0, 0, .none⟩,
  -- RXQ_HEAD
  ⟨0x214, 16, 0x40, 0xFFFFFFFF, 0, 0, .none⟩,
  -- RXQ_NPRB
  ⟨0x218, 16, 0x40, 0x1FF, 0, 0x111, .none⟩,
  -- SEQ_GAPS
  ⟨0x21C, 16, 0x40, 0, 0, 0, .none⟩,
  -- CLASS_W0
  ⟨0x800, 128, 0x10, 0x7FFFFFF, 0, 0, .none⟩,
  -- CLASS_W1
  ⟨0x804, 128, 0x10, 0xFFFFFFFF, 0, 0, .none⟩,
  -- CLASS_W2
  ⟨0x808, 128, 0x10, 0x3FFF, 0, 0, .none⟩,
  -- CLASS_W3
  ⟨0x80C, 128, 0x10, 0, 0, 0, .none⟩]

/-- Registers of the TMGR pages (R287, R288). -/
def tmgrRegs : List RegSpec := [
  -- TM_CTRL
  ⟨0x040, 1, 4, 0xFF1FFF01, 0, 0x14001401, .none⟩,
  -- TX_LATE
  ⟨0x044, 1, 4, 0, 0, 0, .none⟩,
  -- TX_COMP_SAT
  ⟨0x048, 1, 4, 0, 0, 0, .none⟩,
  -- TX_MALF
  ⟨0x04C, 1, 4, 0, 0, 0, .none⟩,
  -- TXQ_CTRL
  ⟨0x100, 32, 0x20, 0xFFF77F, 0, 0, .none⟩,
  -- TXQ_BASE_LO
  ⟨0x104, 32, 0x20, 0xFFFFFFE0, 0, 0, .lo⟩,
  -- TXQ_BASE_HI
  ⟨0x108, 32, 0x20, 0xFFFFFFFF, 0, 0, .hi⟩,
  -- TXQ_SIZE
  ⟨0x10C, 32, 0x20, 0x1F, 0, 0x6, .none⟩,
  -- TXQ_TAIL
  ⟨0x110, 32, 0x20, 0xFFFFFFFF, 0, 0, .none⟩,
  -- TXQ_HEAD
  ⟨0x114, 32, 0x20, 0, 0, 0, .none⟩,
  -- TXQ_RATE
  ⟨0x118, 32, 0x20, 0x7FFFF, 0, 0, .none⟩,
  -- TXQ_BURST
  ⟨0x11C, 32, 0x20, 0xFFFFFF, 0, 0, .none⟩,
  -- M_CTRL
  ⟨0x800, 64, 0x20, 0xFF3F, 0, 0x20, .none⟩,
  -- M_CIR
  ⟨0x804, 64, 0x20, 0x7FFFF, 0, 0, .none⟩,
  -- M_CBS
  ⟨0x808, 64, 0x20, 0xFFFFFF, 0, 0, .none⟩,
  -- M_PIR
  ⟨0x80C, 64, 0x20, 0x7FFFF, 0, 0, .none⟩,
  -- M_XBS
  ⟨0x810, 64, 0x20, 0xFFFFFF, 0, 0, .none⟩,
  -- M_GREEN
  ⟨0x814, 64, 0x20, 0, 0, 0, .none⟩,
  -- M_YELLOW
  ⟨0x818, 64, 0x20, 0, 0, 0, .none⟩,
  -- M_RED
  ⟨0x81C, 64, 0x20, 0, 0, 0, .none⟩]

/-- Registers of the HOST page (R392). -/
def hostRegs : List RegSpec := [
  -- HOST_STAT
  ⟨0x040, 1, 4, 0, 0, 0, .none⟩,
  -- VF_SEL
  ⟨0x044, 1, 4, 0xFF, 0, 0, .none⟩,
  -- VF_CMD
  ⟨0x048, 1, 4, 0, 0, 0, .none⟩,
  -- VF_CMD_STAT
  ⟨0x04C, 1, 4, 0, 0, 0, .none⟩,
  -- IMG_ADDR_LO
  ⟨0x050, 1, 4, 0xFFFFF000, 0, 0, .lo⟩,
  -- IMG_ADDR_HI
  ⟨0x054, 1, 4, 0xFFFFFFFF, 0, 0, .hi⟩,
  -- IMG_BYTES_LO
  ⟨0x058, 1, 4, 0, 0, 0, .lo⟩,
  -- IMG_BYTES_HI
  ⟨0x05C, 1, 4, 0, 0, 0, .hi⟩,
  -- POOL_EXT
  ⟨0x060, 1, 4, 0, 0, 0, .none⟩,
  -- POOL_QLIM
  ⟨0x064, 1, 4, 0, 0, 0, .none⟩,
  -- EXT_ADDR
  ⟨0x068, 1, 4, 0x3FFF, 0, 0, .none⟩,
  -- EXT_DATA
  ⟨0x06C, 1, 4, 0, 0, 0, .none⟩,
  -- GR_STATE
  ⟨0x080, 1, 4, 0, 0, 0, .none⟩,
  -- GR_GEN
  ⟨0x084, 1, 4, 0, 0, 0, .none⟩,
  -- GR_FPID
  ⟨0x088, 1, 4, 0, 0, 0, .none⟩,
  -- GR_PORT
  ⟨0x08C, 1, 4, 0, 0, 0, .none⟩,
  -- GR_CL0-3
  ⟨0x090, 4, 4, 0, 0, 0, .none⟩,
  -- GR_QLIM
  ⟨0x0A0, 16, 4, 0, 0, 0, .none⟩,
  -- GR_EXTS
  ⟨0x0E0, 1, 4, 0, 0, 0, .none⟩,
  -- PT_FUNC
  ⟨0x200, 16, 0x20, 0, 0, 0, .none⟩,
  -- PT_ACC0
  ⟨0x204, 16, 0x20, 0, 0, 0, .none⟩,
  -- PT_ACC1
  ⟨0x208, 16, 0x20, 0, 0, 0, .none⟩,
  -- PT_DSP0
  ⟨0x20C, 16, 0x20, 0, 0, 0, .none⟩,
  -- PT_DSP1
  ⟨0x210, 16, 0x20, 0, 0, 0, .none⟩,
  -- PT_DSP2
  ⟨0x214, 16, 0x20, 0, 0, 0, .none⟩,
  -- PT_DSP3
  ⟨0x218, 16, 0x20, 0, 0, 0, .none⟩]

/-- Registers of the queue sets of HOST and VF pages (R119). -/
def queueRegs : List RegSpec := [
  -- Q_CTRL
  ⟨0x400, 16, 0x40, 0xFF0F, 0, 0, .none⟩,
  -- Q_STAT
  ⟨0x404, 16, 0x40, 0, 0x6, 0, .none⟩,
  -- Q_BASE_LO
  ⟨0x408, 16, 0x40, 0xFFFFFFC0, 0, 0, .lo⟩,
  -- Q_BASE_HI
  ⟨0x40C, 16, 0x40, 0xFFFFFFFF, 0, 0, .hi⟩,
  -- Q_SIZE
  ⟨0x410, 16, 0x40, 0x1F, 0, 0x6, .none⟩,
  -- Q_TAIL
  ⟨0x414, 16, 0x40, 0xFFFFFFFF, 0, 0, .none⟩,
  -- Q_HEAD
  ⟨0x418, 16, 0x40, 0, 0, 0, .none⟩,
  -- Q_DEPTH
  ⟨0x41C, 16, 0x40, 0, 0, 0, .none⟩,
  -- CQ_BASE_LO
  ⟨0x420, 16, 0x40, 0xFFFFFFC0, 0, 0, .lo⟩,
  -- CQ_BASE_HI
  ⟨0x424, 16, 0x40, 0xFFFFFFFF, 0, 0, .hi⟩,
  -- CQ_SIZE
  ⟨0x428, 16, 0x40, 0x1F, 0, 0x6, .none⟩,
  -- CQ_TAIL
  ⟨0x42C, 16, 0x40, 0, 0, 0, .none⟩,
  -- CQ_HEAD
  ⟨0x430, 16, 0x40, 0xFFFFFFFF, 0, 0, .none⟩,
  -- Q_LIMIT
  ⟨0x434, 16, 0x40, 0, 0, 0, .none⟩,
  -- Q_SEQ_LO
  ⟨0x438, 16, 0x40, 0, 0, 0, .lo⟩,
  -- Q_SEQ_HI
  ⟨0x43C, 16, 0x40, 0, 0, 0, .hi⟩,
  -- MSIX_TABLE
  ⟨0x800, 72, 4, 0xFFFFFFFF, 0, 0, .none⟩,
  -- MSIX_PBA
  ⟨0xA00, 2, 4, 0, 0, 0, .none⟩]

/-- Registers of the MBOX page (R394). -/
def mboxRegs : List RegSpec := [
  -- MB_SEL
  ⟨0x040, 1, 4, 0xFF, 0, 0x1, .none⟩,
  -- MB_TT_DB
  ⟨0x044, 1, 4, 0, 0, 0, .none⟩,
  -- MB_STAT
  ⟨0x048, 1, 4, 0, 0, 0, .none⟩,
  -- MB_PEND
  ⟨0x060, 8, 4, 0, 0, 0, .none⟩,
  -- MB_TM
  ⟨0x100, 32, 4, 0, 0, 0, .none⟩,
  -- MB_TT
  ⟨0x180, 32, 4, 0, 0, 0, .none⟩]

/-- Registers of the VF pages (R393). -/
def vfRegs : List RegSpec := [
  -- VF_STATE
  ⟨0x040, 1, 4, 0, 0, 0, .none⟩,
  -- VF_GEN
  ⟨0x044, 1, 4, 0, 0, 0, .none⟩,
  -- VF_GEN_DISC
  ⟨0x048, 1, 4, 0, 0, 0, .none⟩,
  -- VF_RES
  ⟨0x04C, 1, 4, 0, 0, 0, .none⟩,
  -- MB_TM_DB
  ⟨0x050, 1, 4, 0, 0, 0, .none⟩,
  -- MB_STAT
  ⟨0x054, 1, 4, 0, 0, 0, .none⟩,
  -- MB_TM
  ⟨0x100, 32, 4, 0, 0, 0, .none⟩,
  -- MB_TT
  ⟨0x180, 32, 4, 0, 0, 0, .none⟩]

/-- Registers of the OPTM pages (R372). -/
def optmRegs : List RegSpec := [
  -- OM_CTRL
  ⟨0x040, 1, 4, 0xFF01, 0, 0xA01, .none⟩,
  -- OM_STAT
  ⟨0x044, 1, 4, 0, 0, 0, .none⟩,
  -- OM_TEMP_VCC
  ⟨0x048, 1, 4, 0, 0, 0, .none⟩,
  -- OM_ON_HRS
  ⟨0x04C, 1, 4, 0, 0, 0, .none⟩,
  -- OM_LIFE_LEFT
  ⟨0x050, 1, 4, 0, 0, 0xFFFFFF, .none⟩,
  -- OM_RATED_HRS
  ⟨0x054, 1, 4, 0xFFFFFF, 0, 0xC350, .none⟩,
  -- OM_EOL
  ⟨0x058, 1, 4, 0xFFFF00FF, 0, 0x2D00032, .none⟩,
  -- OM_ID0-13
  ⟨0x060, 14, 4, 0, 0, 0, .none⟩,
  -- OM_LANE
  ⟨0x0A0, 10, 4, 0, 0, 0, .none⟩]

/-- Registers of the DBG page (R471). -/
def dbgRegs : List RegSpec := [
  -- DBG_STAT
  ⟨0x040, 1, 4, 0, 0, 0, .none⟩,
  -- DBG_REFUSED
  ⟨0x044, 1, 4, 0, 0, 0, .none⟩]

/-- Registers of the common page header (R465, R466). The words that a register table lists as reserved and does not name (here
0x02C, 0x038 and 0x03C, and 0x08C of the RDSP pages) are taken as undefined offsets: they read 0 either way, and whether a
narrow write there is one to a register (R7) or to no register (R9) the manual leaves open (DESIGN CHOICE, log 54). -/
def headerRegs : List RegSpec := [
  -- PG_ID
  ⟨0x000, 1, 4, 0, 0, 0, .none⟩,
  -- PG_CAPS
  ⟨0x004, 1, 4, 0, 0, 0, .none⟩,
  -- PG_CTRL
  ⟨0x008, 1, 4, 0xC, 0, 0x1, .none⟩,
  -- PG_STAT
  ⟨0x00C, 1, 4, 0, 0, 0, .none⟩,
  -- PG_ERR_FIRST
  ⟨0x010, 1, 4, 0, 0x80000000, 0, .none⟩,
  -- PG_ERR_INFO
  ⟨0x014, 1, 4, 0, 0, 0, .none⟩,
  -- PG_ERR_OVF
  ⟨0x018, 1, 4, 0, 0x1, 0, .none⟩,
  -- PG_ERR_MASK
  ⟨0x01C, 1, 4, 0xFFFFFFFF, 0, 0, .none⟩,
  -- PG_UID0
  ⟨0x020, 1, 4, 0, 0, 0, .none⟩,
  -- PG_UID1
  ⟨0x024, 1, 4, 0, 0, 0, .none⟩,
  -- PG_UID2
  ⟨0x028, 1, 4, 0, 0, 0, .none⟩,
  -- PG_SEV_N
  ⟨0x030, 1, 4, 0xFF, 0, 0xA, .none⟩,
  -- PG_SEV_WIN
  ⟨0x034, 1, 4, 0xFFFFFFFF, 0, 0x3938700, .none⟩]
/-- The registers of a page kind beside the header. -/
def kindRegs : PageKind → List RegSpec
  | .chip => chipRegs
  | .fault => faultRegs
  | .time => timeRegs
  | .runord => runordRegs
  | .pwr => pwrRegs
  | .life => lifeRegs
  | .stage => stageRegs
  | .stgh => stghRegs
  | .clus => clusRegs
  | .hbmc => hbmcRegs
  | .hash => hashRegs
  | .glink => glinkRegs
  | .fabric => fabricRegs
  | .rdsp => rdspRegs
  | .fft | .ldpc | .polar => accelRegs
  | .chirp => accelRegs ++ chirpRegs
  | .eth => ethRegs
  | .tmgr => tmgrRegs
  | .host => hostRegs ++ queueRegs
  | .mbox => mboxRegs
  | .vf => vfRegs ++ queueRegs
  | .optm => optmRegs
  | .dbg => dbgRegs

/-- Whether an array of registers has one at `off`. -/
def RegSpec.covers (r : RegSpec) (off : Nat) : Bool :=
  decide (r.off ≤ off) && decide ((off - r.off) % r.stride = 0) && decide ((off - r.off) / r.stride < r.n)

/-- The register at an offset of a page; `none` for an undefined offset (R9). -/
def regSpec (k : PageKind) (off : Nat) : Option RegSpec :=
  if off < 0x40 then headerRegs.find? (·.covers off) else (kindRegs k).find? (·.covers off)

/-- The register at a BAR0 address. -/
def regAt (a : Nat) : Option RegSpec := (pageOf a).bind fun x => regSpec x.1.kind x.2

/-- Reset value of the register at a BAR0 address, 0 where there is none. -/
def regReset (a : Nat) : Word := ((regAt a).map (·.reset)).getD 0

/-! ## Stored registers -/

/-- The stored value of the register at a BAR0 address. -/
def State.rg (s : State) (a : Nat) : Word := Tbl.get (regReset a) s.regs a

/-- `s` with a register's stored value replaced. -/
def State.setRg (s : State) (a : Nat) (v : Word) : State :=
  { s with regs := Tbl.set (regReset a) s.regs a v }

/-- The register at offset `off` of a page. -/
def State.pr (s : State) (k : PageKind) (i off : Nat) : Word := s.rg (pageAddr k i + off)

/-- Store at offset `off` of a page. -/
def State.setPr (s : State) (k : PageKind) (i off : Nat) (v : Word) : State := s.setRg (pageAddr k i + off) v

/-- Add to a saturating counter. -/
def State.bump (s : State) (k : PageKind) (i off n : Nat) : State := s.setPr k i off (satAdd (s.pr k i off) n)

/-- The number a stored pair holds. -/
def State.pair (s : State) (a : Nat) : Nat := (s.rg a).toNat + 2 ^ 32 * (s.rg (a + 4)).toNat

/-- Store a pair. -/
def State.setPair (s : State) (a x : Nat) : State :=
  (s.setRg a (BitVec.ofNat 32 x)).setRg (a + 4) (BitVec.ofNat 32 (x / 2 ^ 32))

/-- Add to a saturating 64-bit counter. -/
def State.bump64 (s : State) (k : PageKind) (i off n : Nat) : State :=
  s.setPair (pageAddr k i + off) (min (s.pair (pageAddr k i + off) + n) (2 ^ 64 - 1))

/-- Clear registers of a page to their reset values. -/
def State.clearRegs (s : State) (k : PageKind) (i : Nat) (offs : List Nat) : State :=
  offs.foldl (fun s o => s.setPr k i o (regReset (pageAddr k i + o))) s

/-- Offsets from `lo` up to `hi`, 4 apart. -/
def offsets (lo hi : Nat) : List Nat := (List.range ((hi - lo) / 4 + 1)).map fun i => lo + 4 * i

/-- What a write stores in a register by the access types of its bits alone (R8, R10). -/
def RegSpec.store (r : RegSpec) (old v : Word) : Word := (old &&& ~~~r.rw &&& ~~~(r.w1c &&& v)) ||| (v &&& r.rw)

/-- Store a written value in the register at a BAR0 address by the access types of its bits. -/
def State.storeAt (s : State) (a : Nat) (v : Word) : State :=
  match regAt a with
  | some r => s.setRg a (r.store (s.rg a) v)
  | none => s

/-- `s` with what a 32-bit register read returned. -/
def State.answer (s : State) (v : Word) : State := { s with rdata := v.setWidth 64 }

end Sys2Proof.Machine
end

