-- ==== Sys2Proof/Machine/Map.lean ====
section
/-! DEFINITION. The disabled-unit map, its logical tables, its image and digest, and bring-in (R20 to R30, R473, R474). -/

namespace Sys2Proof.Machine

/-- Unit classes of the map. -/
def clsCluster : Nat := 0
def clsUnit : Nat := 1
def clsVoice : Nat := 2
def clsDsp : Nat := 3
def clsEngine : Nat := 4
def clsCrc : Nat := 5

/-- Key of a unit. -/
def unitKey (cls i : Nat) : Nat := cls * 65536 + i

/-- Active clusters per quarter of an order code (R1): variant 0, 1, 2. -/
def activePerQuarter (v : Nat) : Nat := if v = 1 then 28 else if v = 2 then 24 else 32

/-- State at manufacture (R22; which physical units are spare is log 4). A sub-unit of a DISABLED cluster is DISABLED
(R21). -/
def shipState (v cls i : Nat) : UState :=
  let cl := fun (k : Nat) =>
    if k % 36 < activePerQuarter v then UState.active else if 32 ≤ k % 36 then .spare else .disabled
  if cls = clsCluster then cl i
  else if cls = clsUnit then (if cl (i / 13) = .disabled then .disabled else if i % 13 = 12 then .spare else .active)
  else if cls = clsVoice then
    (if cl (i / 33 / 13) = .disabled then .disabled else if i % 33 = 32 then .spare else .active)
  else if cls = clsDsp then (if i % 136 < 128 then .active else .spare)
  else .active

/-- State of a unit in a map (R20). -/
def DMap.st (v : Nat) (m : DMap) (cls i : Nat) : UState := Tbl.get (shipState v cls i) m.units (unitKey cls i)

/-- Set a unit's state. -/
def DMap.setSt (v : Nat) (m : DMap) (cls i : Nat) (x : UState) : DMap :=
  { m with units := Tbl.set (shipState v cls i) m.units (unitKey cls i) x }

/-- Logical cluster to physical cluster of the quarter, 255 if absent (R23, R27). -/
def DMap.cl (v : Nat) (m : DMap) (q i : Nat) : Nat :=
  Tbl.get (if i < activePerQuarter v then i else 255) m.clLog (q * 32 + i)

/-- Logical DSP core to physical core of the tile, 255 if absent. -/
def DMap.core (m : DMap) (e i : Nat) : Nat := Tbl.get i m.dspLog (e * 128 + i)

/-- Logical chorus unit of a physical cluster to its physical unit, 13 if none. -/
def DMap.cu (m : DMap) (cl u : Nat) : Nat := Tbl.get u m.cuLog (cl * 12 + u)

/-- Logical voice of a physical chorus unit (index cl × 13 + u) to its physical voice, 33 if none. -/
def DMap.vo (m : DMap) (cu v : Nat) : Nat := Tbl.get v m.voLog (cu * 32 + v)

/-- Set the physical unit of a logical position of a class. -/
def DMap.setLog (v : Nat) (m : DMap) (cls pos x : Nat) : DMap :=
  if cls = clsCluster then
    { m with clLog := Tbl.set (if pos % 32 < activePerQuarter v then pos % 32 else 255) m.clLog pos x }
  else if cls = clsUnit then { m with cuLog := Tbl.set (pos % 12) m.cuLog pos x }
  else if cls = clsVoice then { m with voLog := Tbl.set (pos % 32) m.voLog pos x }
  else if cls = clsDsp then { m with dspLog := Tbl.set (pos % 128) m.dspLog pos x }
  else m

/-- The logical position that a physical unit of a class fills, if any. -/
def DMap.posOf (v : Nat) (m : DMap) (cls i : Nat) : Option Nat :=
  if cls = clsCluster then (least (fun l => m.cl v (i / 36) l == i % 36) 32).map (i / 36 * 32 + ·)
  else if cls = clsUnit then (least (fun l => m.cu (i / 13) l == i % 13) 12).map (i / 13 * 12 + ·)
  else if cls = clsVoice then (least (fun l => m.vo (i / 33) l == i % 33) 32).map (i / 33 * 32 + ·)
  else if cls = clsDsp then (least (fun l => m.core (i / 136) l == i % 136) 128).map (i / 136 * 128 + ·)
  else none

/-- What an absent logical position of a class holds. -/
def absentCode (cls : Nat) : Nat := if cls = clsUnit then 13 else if cls = clsVoice then 33 else 255

/-- Physical units of the scope of a class that unit `i` belongs to: first index and number (R22). -/
def scopeOf (cls i : Nat) : Nat × Nat :=
  if cls = clsCluster then (i / 36 * 36, 36)
  else if cls = clsUnit then (i / 13 * 13, 13)
  else if cls = clsVoice then (i / 33 * 33, 33)
  else if cls = clsDsp then (i / 136 * 136, 136)
  else (i, 0)

/-- The SPARE unit of lowest physical index in the scope of a unit (R24). -/
def DMap.spareFor (v : Nat) (m : DMap) (cls i : Nat) : Option Nat :=
  let sc := scopeOf cls i
  (least (fun k => m.st v cls (sc.1 + k) == .spare) sc.2).map (sc.1 + ·)

/-- The die of a unit, 0 to 5: the scope within which one bring-in runs at a time (R24). -/
def unitDie (cls i : Nat) : Nat :=
  if cls = clsCluster then i / 36
  else if cls = clsUnit then i / 13 / 36
  else if cls = clsVoice then i / 33 / 13 / 36
  else if cls = clsDsp then 4 + i / 136
  else if cls = clsEngine then 4 + i / 84
  else 4 + i / 8

/-! ## Image and digest (R27, R28) -/

/-- Code of a unit state. -/
def ustateCode : UState → Nat
  | .active => 0
  | .spare => 1
  | .disabled => 2
  | .retired => 3

/-- `n` state entries of a class from unit `i`, packed four to a byte (R27). -/
def packStates (v : Nat) (m : DMap) (cls i n : Nat) : List Byte :=
  (List.range ((n + 3) / 4)).map fun b =>
    BitVec.ofNat 8 (sumBy (fun j => if 4 * b + j < n then ustateCode (m.st v cls (i + 4 * b + j)) * 4 ^ j else 0)
      [0, 1, 2, 3])

/-- The image of a map (R27), 16,460 bytes. -/
def mapImage (v : Nat) (m : DMap) : List Byte :=
  [0x01, 0x00, 0x06, 0x00, BitVec.ofNat 8 (4 * activePerQuarter v), 0, 0, 0]
    ++ packStates v m clsCrc 0 16 ++ [0, 0, 0, 0]
    ++ packStates v m clsCluster 0 144
    ++ packStates v m clsUnit 0 1872
    ++ packStates v m clsVoice 0 61776
    ++ packStates v m clsDsp 0 272
    ++ packStates v m clsEngine 0 168 ++ [0, 0]
    ++ (List.range 128).map (fun k => BitVec.ofNat 8 (m.cl v (k / 32) (k % 32)))
    ++ (List.range 256).map (fun k => BitVec.ofNat 8 (m.core (k / 128) (k % 128)))

/-- The disabled-map digest (R28). -/
def mapDigest (v : Nat) (m : DMap) : BitVec 256 := sha3 (mapImage v m)

/-- Word of an image at a byte offset; 0 at or beyond 0x404C (R29). -/
def imageWord (v : Nat) (m : DMap) (off : Nat) : Word :=
  if off < 0x404C then BitVec.ofNat 32 (leNat (((mapImage v m).drop off).take 4)) else 0

/-! ## The device's map -/

/-- The map that the device shows: the fused map until phase 6 applies the in-service map (R474). -/
def State.curMap (s : State) : DMap := if s.map.applied then s.map.svc else s.map.fused

/-- State of a unit. -/
def State.unitSt (s : State) (cls i : Nat) : UState := s.curMap.st s.sec.variant cls i

/-- Physical cluster (q × 36 + c) of logical cluster q × 32 + i, if present. -/
def State.physCl (s : State) (l : Nat) : Option Nat :=
  let c := s.curMap.cl s.sec.variant (l / 32) (l % 32)
  if c < 36 then some (l / 32 * 36 + c) else none

/-- Logical cluster of a physical cluster. -/
def State.logCl (s : State) (k : Nat) : Option Nat := s.curMap.posOf s.sec.variant clsCluster k

/-- Physical DSP core (e × 136 + n) of logical core e × 128 + i, if present. -/
def State.physCore (s : State) (l : Nat) : Option Nat :=
  let n := s.curMap.core (l / 128) (l % 128)
  if n < 136 then some (l / 128 * 136 + n) else none

/-- Logical core of a physical core. -/
def State.logCore (s : State) (k : Nat) : Option Nat := s.curMap.posOf s.sec.variant clsDsp k

/-- SPARE units of a class among `n` from index `i` (R474). -/
def State.spares (s : State) (cls i n : Nat) : Nat := count (fun k => s.unitSt cls (i + k) == .spare) n

/-- Active clusters of a quarter that hold a logical index (R474). -/
def State.activeIn (s : State) (q : Nat) : Nat :=
  count (fun l => match s.physCl (q * 32 + l) with
    | some k => s.unitSt clsCluster k == .active
    | none => false) 32

/-- A change of the in-service map: the new map, `DMAP_GEN` one higher (R29, R474). -/
def State.withMap (s : State) (m : DMap) : State :=
  let s' := { s with map := { s.map with svc := m } }
  s'.setPr .chip 0 0x044 (s.pr .chip 0 0x044 + 1)

/-- Latch a snapshot of the in-service map (R29, R30). One latched before phase 6 has applied that map takes the map that the
device shows then, the fused one: R474 speaks of the three count registers alone (DESIGN CHOICE, log 56). -/
def State.latchSnap (s : State) : State :=
  let s' := { s with map := { s.map with snap := s.curMap } }
  s'.setPr .chip 0 0x050 (s.pr .chip 0 0x044)

/-- Logical indices given to the ACTIVE units in ascending physical order (R23). -/
def DMap.assign (v : Nat) (m : DMap) : DMap :=
  let cl := fun (m : DMap) (q : Nat) =>
    let act := (List.range 36).filter fun c => m.st v clsCluster (q * 36 + c) == .active
    (List.range (activePerQuarter v)).foldl (fun m i => m.setLog v clsCluster (q * 32 + i) (nth 255 act i)) m
  let co := fun (m : DMap) (e : Nat) =>
    let act := (List.range 136).filter fun n => m.st v clsDsp (e * 136 + n) == .active
    (List.range 128).foldl (fun m i => m.setLog v clsDsp (e * 128 + i) (nth 255 act i)) m
  [0, 1].foldl co ([0, 1, 2, 3].foldl cl m)

end Sys2Proof.Machine
end

