-- ==== Sys2Proof/Machine/Flags.lean ====
section
/-! DEFINITION. Fault sources: their default severities, counting, classification, latching, queueing and the fault pins
(R396 to R404, R411, R415, R417, R469). The automatic action of a FATAL event is in Retire. -/

namespace Sys2Proof.Machine

/-! ## Times of the bases (R6, R290) -/

/-- A time base. -/
def State.base (s : State) (b : Nat) : TBase := nth {} s.time.bases b

/-- A base as the time replicas of a die hold it (R299): the master's state, but for a copy that differs. -/
def State.baseOn (s : State) (die b : Nat) : TBase :=
  match Tbl.get none s.time.copies die with
  | some c => nth {} c.1 b
  | none => s.base b

/-- T64 form and 32-bit timestamp of a base on a die. -/
def State.t64On (s : State) (die b : Nat) : Nat := ((s.baseOn die b).sec * 1000000000 + (s.baseOn die b).ns) % 2 ^ 64
def State.ts32On (s : State) (die b : Nat) : Nat := s.t64On die b % 2 ^ 32

/-- T64 form of a base's time: (seconds × 10^9 + ns) mod 2^64. -/
def State.t64 (s : State) (b : Nat) : Nat := ((s.base b).sec * 1000000000 + (s.base b).ns) % 2 ^ 64

/-- 32-bit timestamp of a base (R6). -/
def State.ts32 (s : State) (b : Nat) : Nat := s.t64 b % 2 ^ 32

/-! ## Severities -/

/-- Default severity of a source (0 NOTE, 1 MINOR, 2 MAJOR, 3 FATAL): the source tables of the chapters; index 0x00 is the
register access error, MINOR on every page (R469). -/
def defaultSev (k : PageKind) (i : Nat) : Nat :=
  match k, i with
  | _, 0 => 1
  | .clus, 1 => 0
  | .clus, 2 => 2
  | .clus, 3 => 2
  | .clus, 4 => 2
  | .clus, 5 => 2
  | .clus, 6 => 1
  | .clus, 7 => 1
  | .clus, 8 => 0
  | .clus, 9 => 2
  | .stgh, 2 => 2
  | .stage, 1 => 2
  | .stage, 4 => 2
  | .runord, 1 => 0
  | .runord, 2 => 0
  | .chip, 0x13 => 0
  | .chip, 0x14 => 2
  | .chip, 0x15 => 0
  | .chip, 0x19 => 2
  | .chip, 0x1A => 0
  | .chip, 0x1D => 0
  | .rdsp, 1 => 0
  | .rdsp, 2 => 2
  | .rdsp, 3 => 2
  | .chirp, 4 => 0
  | .chirp, 5 => 1
  | .fft, 1 | .ldpc, 1 | .polar, 1 | .chirp, 1 => 0
  | .fft, 2 | .ldpc, 2 | .polar, 2 | .chirp, 2 => 2
  | .fft, 3 | .ldpc, 3 | .polar, 3 | .chirp, 3 => 2
  | .eth, 2 => 0
  | .eth, 4 => 0
  | .tmgr, 1 => 0
  | .time, 1 => 0
  | .time, 3 => 0
  | .time, 4 => 0
  | .time, 5 => 0
  | .time, 6 => 0
  | .hbmc, 1 => 0
  | .hbmc, 2 => 0
  | .hbmc, 3 => 2
  | .hbmc, 4 => 0
  | .hbmc, 5 => 2
  | .hbmc, 6 => 0
  | .hash, 1 => 2
  | .glink, 1 => 0
  | .glink, 2 => 0
  | .fabric, 1 => 0
  | .fabric, 2 => 2
  | .fabric, 4 => 0
  | .optm, 1 => 0
  | .host, 2 => 2
  | .host, 3 => 2
  | .host, 4 => 2
  | .vf, 2 => 0
  | .vf, 3 => 0
  | .fault, 1 => 0
  | .fault, 2 => 3
  | .fault, 4 => 2
  | .fault, 5 => 0
  | .fault, 8 => 0
  | .fault, 9 => 2
  | .fault, 10 => 2
  | .life, 1 => 0
  | .life, 2 => 2
  | .pwr, 1 => 0
  | .pwr, 3 => 2
  | .pwr, 4 => 2
  | .pwr, 5 => 0
  | .pwr, 6 => 0
  | .dbg, 1 => 0
  | _, _ => 1

/-- Key of a source: page address / 256 × 32 + source index. -/
def srcKey (p : Page) (i : Nat) : Nat := p.base / 256 * 32 + i

/-- Counts of a source (R397). -/
def State.srcCount (s : State) (key : Nat) : SrcCount := Tbl.get {} s.flt.counts key

/-- Events of a source in its 16 buckets. -/
def SrcCount.sum (c : SrcCount) : Nat := c.buckets.foldl (· + ·) 0

/-- Whether index `i` of a page is masked (R400). -/
def State.masked (s : State) (p : Page) (i : Nat) : Bool := fld (s.rg (p.base + 0x01C)) i 1 == 1

/-- Whether a source is severe (R397, R400). -/
def State.severe (s : State) (p : Page) (i : Nat) : Bool :=
  !s.masked p i && decide (fld (s.rg (p.base + 0x030)) 0 8 ≤ (s.srcCount (srcKey p i)).sum)

/-- Whether any source of a page is severe. -/
def State.anySevere (s : State) (p : Page) : Bool := (List.range 32).any fun i => s.severe p i

/-! ## Fault queue, records and pins -/

/-- Set bits of ALERT_PEND (R404); each newly set cause is sent as a PLDM event (R414). -/
def State.alert (s : State) (n : Nat) : State :=
  let old := s.pr .fault 0 0x064
  let s' := s.setPr .fault 0 0x064 (setFld old n 1 1)
  if fld old n 1 = 1 then s' else { s' with out := .mctp 2 [BitVec.ofNat 8 n] :: s'.out }

/-- Log an event record (R411): it waits to be written. -/
def State.logEvent (s : State) (p : Page) (src kind sev : Nat) (info : Word) (detail : Nat) : State :=
  let r : EvRec :=
    { src := src, kind := kind, sev := sev, info := info, page := p.base / 256,
      count := if src = 0 then 0 else (s.srcCount (srcKey p (src % 32))).total, detail := detail,
      time := s.t64 (fld (s.pr .fault 0 0x040) 8 3) }
  { s with life := { s.life with pend := s.life.pend ++ [r] } }

/-- Drive a pulse on FAULT_N (R403): its minimum starts, or starts again. -/
def State.pulse (s : State) : State := { s with flt := { s.flt with inMin := true, pulseAt := s.time.clk } }

/-- Set FAULT_CTRL.HOLD (R403). -/
def State.hold (s : State) : State := s.setPr .fault 0 0x040 (s.pr .fault 0 0x040 ||| 1)

/-- Enter the fault queue, or be lost (R417). -/
def State.enqueue (s : State) (e : FqEntry) : State :=
  if s.flt.fq.length < 256 then { s with flt := { s.flt with fq := s.flt.fq ++ [e] } }
  else (s.bump .fault 0 0x060 1).alert 4

/-- Latch an unmasked event in the page header (R399). -/
def State.latchErr (s : State) (p : Page) (src : Nat) (info : Word) : State :=
  let first := s.rg (p.base + 0x010)
  if fld first 31 1 = 0 then
    (s.setRg (p.base + 0x010) (BitVec.ofNat 32 (2 ^ 31 + src))).setRg (p.base + 0x014) info
  else
    let ovf := s.rg (p.base + 0x018)
    s.setRg (p.base + 0x018) (setFld (setFld ovf 0 1 1) 16 16 (min (fld ovf 16 16 + 1) 0xFFFF))

/-- What an event does by its effective severity (R398): queue entry and record, PLDM event, pin. -/
def State.report (s : State) (p : Page) (src sev : Nat) (info : Word) : State :=
  if sev = 0 then s
  else
    let t := s.ts32 (fld (s.pr .fault 0 0x040) 8 3)
    let s := s.enqueue { src := src, sev := sev, change := false, page := p.base / 256, info := info, time := t }
    let s := s.logEvent p src (if src = 0x0202 then 3 else 1) sev info 0
    let s := if 2 ≤ sev then { s with out := .mctp 3 (leBytes 2 src ++ leBytes 1 sev ++ leBytes 4 info.toNat) :: s.out } else s
    if sev = 3 then s.pulse.hold
    else if sev = 2 ∧ fld (s.rg (p.base + 0x008)) 2 2 ≠ 1 then s.pulse
    else s

/-- A source's change into the severe state is queued and logged as an event of its own (R398). -/
def State.reportChange (s : State) (p : Page) (src sev : Nat) (info : Word) : State :=
  let t := s.ts32 (fld (s.pr .fault 0 0x040) 8 3)
  let s := s.enqueue { src := src, sev := sev, change := true, page := p.base / 256, info := info, time := t }
  s.logEvent p src 2 sev info 0

/-- Unit classes of R407 and the unit that a source names, with whether the score counts the event (C). -/
def unitOfSource (p : Page) (i : Nat) (info : Word) : Option (Nat × Nat × Bool) :=
  match p.kind with
  | .clus => some (1, p.inst, i == 1)
  | .rdsp => some (2, p.inst, i == 1)
  | .hbmc => some (4, p.inst, i == 1 || i == 2)
  | .glink => if fld info 0 4 < 10 then some (5, p.inst * 10 + fld info 0 4, false) else some (6, p.inst, false)
  | .fft | .ldpc | .polar | .chirp =>
    let k := fld info 0 8
    if k = 0xFF then none
    else match fld info 8 3 with
      | 0 => some (3, p.inst * 84 + k, i == 1)
      | 1 => some (3, p.inst * 84 + 24 + k, i == 1)
      | 2 => some (3, p.inst * 84 + 56 + k, i == 1)
      | 3 => some (3, p.inst * 84 + 72 + k, i == 1)
      | 4 => some (7, p.inst * 8 + k, i == 1)
      | _ => some (3, p.inst * 84 + 80 + k, i == 1)
  | _ => none

/-- Count an event toward a unit's score: at most 200 can be seen (R407). -/
def State.scoreEvent (s : State) (cls u : Nat) : State :=
  { s with flt := { s.flt with events := Tbl.upd [] s.flt.events (unitKey cls u) fun l => (s.time.clk :: l).take 200 } }

/-- Count a change into the severe state toward a unit's score: at most 4 can be seen (R407). -/
def State.scoreChange (s : State) (cls u : Nat) : State :=
  { s with flt := { s.flt with changes := Tbl.upd [] s.flt.changes (unitKey cls u) fun l => (s.time.clk :: l).take 4 } }

/-- Count one event of a source (R397). -/
def State.countSrc (s : State) (key : Nat) : State :=
  { s with flt := { s.flt with counts := Tbl.upd {} s.flt.counts key fun c =>
      { buckets := match c.buckets with
          | [] => [1]
          | b :: t => (b + 1) :: t,
        total := c.total + 1 } } }

/-- An event of source index `i` on a page: counted, and unless masked classified, latched and reported (R397 to R400).
Answers the effective severity (4 when masked) and whether the source became severe. -/
def State.event (s : State) (p : Page) (i : Nat) (info : Word) : State × Nat × Bool :=
  let src := typeCode p.kind * 256 + i
  let was := s.severe p i
  let s := s.countSrc (srcKey p i)
  let s := match unitOfSource p i info with
    | some (c, u, true) => s.scoreEvent c u
    | _ => s
  if s.masked p i then (s, 4, false)
  else
    let now := s.severe p i
    let sev := min 3 (defaultSev p.kind i + bn now)
    let change := now && !was
    let full := decide (256 < s.flt.fq.length + bn (decide (0 < sev)) + bn change)
    let s := s.latchErr p src info
    let s := s.report p src sev info
    let s := if change then
        let s := s.reportChange p src sev info
        match unitOfSource p i info with
        | some (c, u, _) => s.scoreChange c u
        | none => s
      else s
    ({ s with flt := { s.flt with lostArmed := s.flt.lostArmed && !full } }, sev, change)

/-- An event, with source 0x0201 for the first entry that a full queue loses (R417). -/
def State.raise0 (s : State) (p : Page) (i : Nat) (info : Word) : State × Nat × Bool :=
  let armed := s.flt.lostArmed
  let (s', sev, ch) := s.event p i info
  if armed && !s'.flt.lostArmed then (((s'.event (pageAt .fault 0) 1 0).1), sev, ch) else (s', sev, ch)

/-- An event with the actions it calls for noted: `settle` takes them at the end of the command. -/
def State.raise (s : State) (p : Page) (i : Nat) (info : Word) : State :=
  let (s', sev, ch) := s.raise0 p i info
  let acts := (if sev = 3 ∧ ¬(p.kind = .fault ∧ i = 2) then [DueAct.fatal p.base i info] else [])
    ++ (if ch then [DueAct.evaluate] else [])
  { s' with flt := { s'.flt with due := s'.flt.due ++ acts } }

/-- Whether a domain is in fault state (R402). -/
def State.domFault (s : State) (d : Nat) : Bool := fld (s.pr .fault 0 0x048) d 1 == 1

end Sys2Proof.Machine
end

