-- ==== Sys2Proof/Machine/HostOps.lean ====
section
/-! DEFINITION. Functions, grants, mailboxes and interrupts as the other units use them (R374 to R388). -/

namespace Sys2Proof.Machine

/-- A function before anything touched it: the PF is never DARK (R378). -/
def fnReset (v : Nat) : Fn := if v = 0 then { st := .live } else {}

/-- A function. -/
def State.fnOf (s : State) (v : Nat) : Fn := Tbl.get (fnReset v) s.hst.fns v

/-- Replace a function. -/
def State.setFn (s : State) (v : Nat) (f : Fn) : State :=
  { s with hst := { s.hst with fns := Tbl.set (fnReset v) s.hst.fns v f } }

/-- Page of a function's registers (R119). -/
def fnPage (v : Nat) : Page := if v = 0 then pageAt .host 0 else pageAt .vf v

/-- Address of register `off` of queue `q` of function `v` (R119). -/
def qreg (v q off : Nat) : Nat := (fnPage v).base + 0x400 + q * 0x40 + off

/-- Owner and SPEC_OK of an extent (R379). -/
def State.extent (s : State) (e : Nat) : Option (Nat × Bool) := Tbl.get none s.hst.exts e

/-- Whether function `v` owns every extent of `n` bytes at HBM offset `off` (R313, R379). -/
def State.ownsHbm (s : State) (v off n : Nat) : Bool :=
  decide (0 < n) && decide (off + n ≤ 0xBF80000000) &&
    (List.range ((off + n - 1) / 2 ^ 26 - off / 2 ^ 26 + 1)).all fun i =>
      match s.extent (off / 2 ^ 26 + i) with
      | some (o, _) => o == v
      | none => false

/-- SPEC_OK of the page at an HBM offset (R136, R379). -/
def State.specOk (s : State) (off : Nat) : Bool :=
  match s.extent (off / 2 ^ 26) with
  | some (_, ok) => ok
  | none => false

/-- Grant of a radio partition (R379). -/
def State.part (s : State) (p : Nat) : PartGrant := Tbl.get {} s.hst.parts p

/-- Partitions a function holds. -/
def State.partsOf (s : State) (v : Nat) : List Nat :=
  (List.range 16).filter fun p => (s.part p).valid && (s.part p).func == v

/-- Whether logical cluster q × 32 + i is in the grant of function `v`. -/
def State.hasCl (s : State) (v l : Nat) : Bool := (s.fnOf v).cl.getLsbD l

/-- Limit of queue `q` of function `v` (R119, R379). -/
def State.qlimit (s : State) (v q : Nat) : Nat := Tbl.get 0 (s.fnOf v).qlim q

/-- Send an MSI-X vector (R376). -/
def State.msix (s : State) (v n : Nat) : State := { s with out := .msix v n :: s.out }

/-- Send or discard a message by its recorded generation (R386). -/
def State.genMsix (s : State) (v n gen : Nat) : State :=
  if gen = (s.fnOf v).gen.toNat then s.msix v n
  else if v = 0 then s
  else (s.setPr .vf v 0x048 (satAdd (s.pr .vf v 0x048) 1)).raise (pageAt .vf v) 3 (BitVec.ofNat 32 v)

/-- A change of a VF's state: the PF gets vector 17, and the VF when it enters LIVE or INTERMISSION (R376). -/
def State.setFnState (s : State) (v : Nat) (x : FnState) : State :=
  let s := (s.setFn v { s.fnOf v with st := x }).msix 0 17
  if x = .live ∨ x = .intermission then s.msix v 17 else s

/-! ## Mailboxes (R387) -/

/-- Raise the mailbox overrun: OVR and source 0x3902. -/
def State.mbOverrun (s : State) (v : Nat) : State :=
  let f := s.fnOf v
  (s.setFn v { f with mb := { f.mb with ovr := true } }).raise (pageAt .vf v) 2 (BitVec.ofNat 32 v)

/-- A doorbell with a count of 0 or above 128 only sets OVR. -/
def State.mbBadCount (s : State) (v : Nat) : State :=
  let f := s.fnOf v
  s.setFn v { f with mb := { f.mb with ovr := true } }

/-- The tenant's TM doorbell: PEND, count and generation recorded, vector 16 to the manager. -/
def State.mbRingTm (s : State) (v count : Nat) : State :=
  let f := s.fnOf v
  if f.mb.tmPend then s.mbOverrun v
  else if count = 0 ∨ 128 < count then s.mbBadCount v
  else (s.setFn v { f with mb := { f.mb with tmPend := true, tmCount := count, tmGen := f.gen.toNat } }).msix 0 16

/-- The manager's TT doorbell: vector 16 to the tenant. -/
def State.mbRingTt (s : State) (v count : Nat) : State :=
  let f := s.fnOf v
  if f.mb.ttPend then s.mbOverrun v
  else if count = 0 ∨ 128 < count then s.mbBadCount v
  else (s.setFn v { f with mb := { f.mb with ttPend := true, ttCount := count, ttGen := f.gen.toNat } }).msix v 16

/-- Store word `i` of the TM slot; while PEND is 1 the write is ignored and overruns. -/
def State.mbStoreTm (s : State) (v i : Nat) (w : Word) : State :=
  let f := s.fnOf v
  if f.mb.tmPend then s.mbOverrun v else s.setFn v { f with mb := { f.mb with tm := Tbl.set 0 f.mb.tm i w } }

/-- Store word `i` of the TT slot. -/
def State.mbStoreTt (s : State) (v i : Nat) (w : Word) : State :=
  let f := s.fnOf v
  if f.mb.ttPend then s.mbOverrun v else s.setFn v { f with mb := { f.mb with tt := Tbl.set 0 f.mb.tt i w } }

/-- Fill bytes of a slot's words from byte `i` on. -/
def fillSlot (t : Tbl Word) (i : Nat) (bytes : List Byte) : Tbl Word :=
  bytes.zipIdx.foldl (fun t p =>
    let k := i + p.2
    Tbl.upd 0 t (k / 4) fun w => setFld w (8 * (k % 4)) 8 p.1.toNat) t

/-- A fabric write of bytes to v's TT slot, or of its doorbell at + 0x80 (R388). -/
def State.mbFabric (s : State) (v off : Nat) (bytes : List Byte) : State :=
  let f := s.fnOf v
  if v = 0 ∨ f.st = .striking then s
  else if off < 0x80 then
    (if f.mb.ttPend then s.mbOverrun v
     else s.setFn v { f with mb := { f.mb with tt := fillSlot f.mb.tt off (bytes.take (0x80 - off)) } })
  else if off = 0x80 ∧ bytes.length = 4 then s.mbRingTt v (leNat (bytes.take 1))
  else s

end Sys2Proof.Machine
end

