-- ==== Sys2Proof/Machine/Mem.lean ====
section
/-! DEFINITION. Memory as the engines reach it: the (72,64) code and poison (R316 to R319, R476), HBM and its address map
(R312 to R315), the cluster stores (R84), and a reader's and writer's view of them. -/

namespace Sys2Proof.Machine

/-! ## Parts of the state by index -/

/-- A sequencer. -/
def State.seqOf (s : State) (i : Nat) : Seq := Tbl.get {} s.seqs i

/-- Replace a sequencer. -/
def State.setSeq (s : State) (i : Nat) (x : Seq) : State := { s with seqs := Tbl.set {} s.seqs i x }

/-- A physical cluster. -/
def State.clOf (s : State) (k : Nat) : Cluster := Tbl.get {} s.cls k

/-- Replace a cluster. -/
def State.setCl (s : State) (k : Nat) (x : Cluster) : State := { s with cls := Tbl.set {} s.cls k x }

/-- A chorus unit by its logical position. -/
def State.cuOf (s : State) (k u : Nat) : ChorusUnit := Tbl.get {} (s.clOf k).units u

/-- Replace a chorus unit. -/
def State.setCu (s : State) (k u : Nat) (x : ChorusUnit) : State :=
  s.setCl k { s.clOf k with units := Tbl.set {} (s.clOf k).units u x }

/-- An HBM channel controller. -/
def State.hcOf (s : State) (i : Nat) : HbmCh := Tbl.get {} s.hc i

/-- Replace a channel controller. -/
def State.setHc (s : State) (i : Nat) (x : HbmCh) : State := { s with hc := Tbl.set {} s.hc i x }

/-- An accepted item. -/
def State.itemOf (s : State) (i : Nat) : Option Item := Tbl.look s.work.items i

/-- Replace an item. -/
def State.setItem (s : State) (i : Nat) (x : Item) : State :=
  { s with work := { s.work with items := Tbl.put s.work.items i x } }

/-- A task of an item. -/
def State.taskOf (s : State) (i t : Nat) : Option Task := (s.itemOf i).bind fun x => x.tasks[t]?

/-- Replace a task. -/
def State.setTask (s : State) (i t : Nat) (x : Task) : State :=
  match s.itemOf i with
  | some it => s.setItem i { it with tasks := it.tasks.set t x }
  | none => s

/-! ## The (72,64) code (R316, R317) -/

/-- What the decoder makes of a stored word. -/
inductive Ecc where
  | good
  | single (p : Nat)
  | pair (p : Nat)
  | bad (p : Nat)
  deriving DecidableEq, Repr

/-- Outcome of one or two erring positions; adjacent ones are corrected. -/
def eccFew : List Nat → Ecc
  | [] => .good
  | [p] => .single p
  | p :: q :: _ => if q = p + 1 then .pair p else .bad p

/-- An array as the decoder leaves it after words have been read. -/
structure Checked where
  mem : Memory
  ecc : Tbl (List Nat)
  free : Nat
  found : List (Nat × Ecc)
  deriving DecidableEq, Repr

/-- Check word `w` (address div 8). Three or more erring positions are uncorrectable, or miscorrected: the word then
holds a value that the manual does not give (log 2). -/
def Checked.word (c : Checked) (w : Nat) : Checked :=
  let l := Tbl.get [] c.ecc w
  if l.length ≤ 2 then { c with found := c.found ++ [(w, eccFew l)] }
  else match Config.syndrome l with
    | none => { c with found := c.found ++ [(w, .bad (nth 0 l 0))] }
    | some f =>
      { mem := c.mem.putNum (8 * w) 8 ((Config.freeWord c.free).toNat + 2 ^ 32 * (Config.freeWord (c.free + 1)).toNat),
        ecc := Tbl.set [] c.ecc w (f.take 2), free := c.free + 2,
        found := c.found ++ [(w, if f.length = 1 then .single (nth 0 f 0) else .pair (nth 0 f 0))] }

/-- Check `n` words. -/
def Checked.words (c : Checked) (w : Nat) : Nat → Checked
  | 0 => c
  | n + 1 => Checked.words (c.word w) (w + 1) n

/-- Whether a found outcome is an uncorrectable one. -/
def Ecc.isBad : Ecc → Bool
  | .bad _ => true
  | _ => false

/-- Whether a found outcome is a corrected one. -/
def Ecc.fixed : Ecc → Bool
  | .single _ | .pair _ => true
  | _ => false

/-- Toggle the positions that a command says have newly failed in a line's 576 bits (R316). -/
def flipBits (e : Tbl (List Nat)) (w0 : Nat) (flips : List (Fin 576)) : Tbl (List Nat) :=
  flips.foldl (fun e f =>
    let w := w0 + f.val / 72
    let l := Tbl.get [] e w
    Tbl.set [] e w (if l.contains (f.val % 72) then l.erase (f.val % 72) else addSorted (f.val % 72) l)) e

/-- Forget the errors of `n` words. -/
def clearEcc (e : Tbl (List Nat)) (w : Nat) : Nat → Tbl (List Nat)
  | 0 => e
  | n + 1 => clearEcc (Tbl.set [] e w []) (w + 1) n

/-! ## HBM addresses (R314, R315) -/

/-- Device channel c of an HBM offset (R314). -/
def hbmChan (a : Nat) : Nat :=
  let g := a / 65536
  (a / 256 % 256) ^^^ ((g ^^^ (g / 256) ^^^ (g / 65536)) % 256)

/-- Page instance s × 32 + ch of an HBM offset. -/
def hbmInst (a : Nat) : Nat := hbmChan a % 8 * 32 + hbmChan a / 8

/-- Channel-local address LA of an HBM offset. -/
def hbmLa (a : Nat) : Nat := a / 65536 * 256 + a % 256

/-- The HBM offset of an LA of a channel instance: the map is one-to-one. -/
def hbmOffset (inst la : Nat) : Nat :=
  let g := la / 256
  let c := inst % 32 * 8 + inst / 32
  g * 65536 + (c ^^^ ((g ^^^ (g / 256) ^^^ (g / 65536)) % 256)) * 256 + la % 256

/-- Row of one bank and pseudo-channel that an LA lies in (R315). -/
def rowOf (la : Nat) : Nat := bits la 15 17 * 32 + bits la 8 5

/-- `PG_ERR_INFO` of an HBMC source (R330). -/
def hbmInfo (la : Nat) : Word :=
  BitVec.ofNat 32 (bits la 15 17 + bits la 8 1 * 2 ^ 17 + bits la 9 4 * 2 ^ 18
    + (bits la 6 2 + 4 * bits la 13 2) * 2 ^ 22)

/-- Size of the HBM window (R313). -/
def hbmSize : Nat := 0xC000000000

/-- Size of a cluster store (R84). -/
def csSize : Nat := 0x300000

/-- Whether a channel's accesses wait: a reset of its quarter, of its stack or of its controller runs (R324, R429). -/
def State.hbmHeld (s : State) (inst : Nat) : Bool :=
  s.rst.doms.contains (inst / 64) || s.rst.doms.contains (6 + inst / 32)
    || s.rst.units.contains (pageAddr .hbmc inst / 256)

/-- Whether any channel of `n` bytes at `off` waits. -/
def State.hbmWaits (s : State) (off n : Nat) : Bool :=
  (List.range ((off + n - 1) / 256 - off / 256 + 1)).any fun i => s.hbmHeld (hbmInst ((off / 256 + i) * 256))

/-! ## HBM lines -/

/-- Track an erring row (R322): `n` more corrected reads, an uncorrectable one counting as many as start a repair; a row
that reaches `REPAIR_N` goes into repair. -/
def State.noteRow (s : State) (inst row n : Nat) : State :=
  let h := s.hcOf inst
  let old := ((h.rows.find? fun p => p.1 == row).map (·.2)).getD (List.replicate 16 0)
  let new := match old with
    | [] => [n]
    | b :: t => (b + n) :: t
  let rows := ((row, new) :: h.rows.filter fun p => p.1 != row).take 64
  let start := decide (fld (s.pr .hbmc inst 0x080) 0 8 ≤ new.foldl (· + ·) 0) && h.repair.isNone
  s.setHc inst { h with rows := rows, repair := if start then some ⟨row, false⟩ else h.repair }

/-- Record `ECC_LAST` (R329). -/
def State.eccLast (s : State) (inst p q kind : Nat) : State :=
  s.setPr .hbmc inst 0x074 (BitVec.ofNat 32 (p + 128 * q + 16384 * kind))

/-- Counters, source and row tracking of one word's outcome in an HBM line (R317, R328). -/
def State.hbmWord (s : State) (f : Nat × Ecc) : State :=
  let a := 8 * f.1
  let inst := hbmInst a
  match f.2 with
  | .good => s
  | .single p =>
    (((s.bump .hbmc inst 0x064 1).eccLast inst p 0x7F 1).noteRow inst (rowOf (hbmLa a)) 1).raise
      (pageAt .hbmc inst) 1 (hbmInfo (hbmLa a))
  | .pair p =>
    (((s.bump .hbmc inst 0x068 1).eccLast inst p (p + 1) 2).noteRow inst (rowOf (hbmLa a)) 1).raise
      (pageAt .hbmc inst) 2 (hbmInfo (hbmLa a))
  | .bad p => s.eccLast inst p 0x7F 3

/-- Poison an HBM line at an uncorrectable error (R317, R322). -/
def State.hbmPoison (s : State) (line : Nat) : State :=
  let a := 64 * line
  let inst := hbmInst a
  let s := { s with poison := addSorted line s.poison }
  ((s.bump .hbmc inst 0x06C 1).noteRow inst (rowOf (hbmLa a)) 255).raise (pageAt .hbmc inst) 3 (hbmInfo (hbmLa a))

/-- Check `n` words of an HBM line from word `w` (address div 8) of it: the events of each, the line poisoned by an
uncorrectable one, and whether all are good or corrected. -/
def State.hbmCheck (s : State) (w n : Nat) : State × Bool :=
  let c := Checked.words { mem := s.hbm, ecc := s.ecc, free := s.free, found := [] } w n
  let s := { s with hbm := c.mem, ecc := c.ecc, free := c.free }
  let s := c.found.foldl State.hbmWord s
  if c.found.any fun f => f.2.isBad then (s.hbmPoison (w / 8), false)
  else
    (if c.found.any fun f => f.2.fixed then { s with wb := addSorted (w / 8) s.wb } else s, true)

/-- Whether the stack of a channel is in fault state: it answers every access with a poison response (R402). -/
def State.stackFault (s : State) (inst : Nat) : Bool := s.domFault (6 + inst / 32)

/-- Read a whole HBM line (R317, R319): its bytes, or `none` for poison. -/
def State.hbmLineRead (s : State) (line : Nat) (spec : Bool) : State × Option (List Byte) :=
  let inst := hbmInst (64 * line)
  if s.stackFault inst then (s, none)
  else
    let s := s.bump64 .hbmc inst (if spec then 0x054 else 0x044) 1
    if s.poison.contains line then (s.bump .hbmc inst 0x070 1, none)
    else
      let (s, ok) := s.hbmCheck (8 * line) 8
      (s, if ok then some (s.hbm.read (64 * line) 64) else none)

/-- Write a whole HBM line (R319): clean, or carrying poison. Answers false for a poison response. -/
def State.hbmLineWrite (s : State) (line : Nat) (data : List Byte) (poison : Bool) : State × Bool :=
  let inst := hbmInst (64 * line)
  if s.stackFault inst then (s, false)
  else
    let s := s.bump64 .hbmc inst 0x04C 1
    ({ s with hbm := s.hbm.write (64 * line) (data.take 64),
              ecc := clearEcc s.ecc (8 * line) 8,
              poison := if poison then addSorted line s.poison else s.poison.erase line,
              wb := s.wb.erase line }, true)

/-- Words of a line that a write of `n` bytes at byte `first` touches in part: their numbers. -/
def partWords (first n : Nat) : List Nat :=
  (List.range 8).filter fun i =>
    let lo := max first (8 * i)
    let hi := min (first + n) (8 * i + 8)
    decide (lo < hi) && decide (hi - lo < 8)

/-- Words of a line that a write of `n` bytes at byte `first` touches. -/
def touchedWords (first n : Nat) : List Nat :=
  (List.range 8).filter fun i => decide (max first (8 * i) < min (first + n) (8 * i + 8))

/-- Write part of an HBM line (R319, R476): not applied to a poisoned line. Answers false for a poison response. -/
def State.hbmPartWrite (s : State) (line first : Nat) (data : List Byte) : State × Bool :=
  let inst := hbmInst (64 * line)
  if s.stackFault inst then (s, false)
  else
    let s := s.bump64 .hbmc inst 0x04C 1
    if s.poison.contains line then (s, false)
    else
      let (s, ok) := (partWords first data.length).foldl
        (fun (p : State × Bool) i => if p.2 then p.1.hbmCheck (8 * line + i) 1 else p) (s, true)
      if ok then
        ({ s with hbm := s.hbm.write (64 * line + first) data,
                  ecc := (touchedWords first data.length).foldl (fun e i => Tbl.set [] e (8 * line + i) []) s.ecc,
                  wb := s.wb.erase line }, true)
      else (s, false)

/-- The lines that `n` bytes at `off` touch, each with its first byte in the line and its bytes. -/
def lineSpans (off n : Nat) : List (Nat × Nat × Nat) :=
  if n = 0 then []
  else (List.range ((off + n - 1) / 64 - off / 64 + 1)).map fun i =>
    let l := off / 64 + i
    let lo := max off (64 * l)
    (l, lo - 64 * l, min (off + n) (64 * l + 64) - lo)

/-- Read `n` bytes of HBM at `off`; `none` for poison. -/
def State.hbmRead (s : State) (off n : Nat) (spec : Bool) : State × Option (List Byte) :=
  (lineSpans off n).foldl (fun (p : State × Option (List Byte)) sp =>
    let (s', r) := p.1.hbmLineRead sp.1 spec
    (s', match p.2, r with
      | some l, some d => some (l ++ (d.drop sp.2.1).take sp.2.2)
      | _, _ => none)) (s, some [])

/-- Write bytes to HBM at `off`, line by line; a line that the write poisons counts as written whole. Answers false if
any line gave a poison response. -/
def State.hbmWrite (s : State) (off : Nat) (data : List Byte) (poison : Bool) : State × Bool :=
  (lineSpans off data.length).foldl (fun (p : State × Bool) sp =>
    let d := (data.drop (64 * sp.1 + sp.2.1 - off)).take sp.2.2
    let (s', ok) :=
      if sp.2.2 = 64 then p.1.hbmLineWrite sp.1 d poison
      else if poison then ({ p.1 with poison := addSorted sp.1 p.1.poison, wb := p.1.wb.erase sp.1 }, true)
      else p.1.hbmPartWrite sp.1 sp.2.1 d
    (s', p.2 && ok)) (s, true)

/-! ## Cluster stores (R84, R317, R319) -/

/-- `PG_ERR_INFO` of a cluster-store source (R92). -/
def csInfo (off : Nat) : Word :=
  BitVec.ofNat 32 (0xF + 0x3F * 16 + off / 64 % 48 * 1024 + off / 64 / 48 * 65536)

/-- Check `n` words of a cluster store from word `w` (address in `store` div 8). -/
def State.csCheck (s : State) (k w n : Nat) : State × Bool :=
  let c := Checked.words { mem := s.store, ecc := s.csEcc, free := s.free, found := [] } w n
  let s := { s with store := c.mem, csEcc := c.ecc, free := c.free }
  let info := csInfo (8 * w - k * csSize)
  let s := c.found.foldl (fun s f => if f.2.fixed then s.raise (pageAt .clus k) 1 info else s) s
  if c.found.any fun f => f.2.isBad then
    (({ s with csPoison := addSorted (w / 8) s.csPoison } : State).raise (pageAt .clus k) 2 info, false)
  else
    -- the corrected line is written back in an unused bank cycle (R318)
    ({ s with csEcc := c.found.foldl (fun e f => if f.2.fixed then Tbl.set [] e f.1 [] else e) s.csEcc }, true)

/-- Read `n` bytes of the store of cluster `k` at `off`; `none` for poison. -/
def State.csRead (s : State) (k off n : Nat) : State × Option (List Byte) :=
  let b := k * csSize
  (lineSpans (b + off) n).foldl (fun (p : State × Option (List Byte)) sp =>
    if p.1.csPoison.contains sp.1 then (p.1, none)
    else
      let (s', ok) := p.1.csCheck k (8 * sp.1) 8
      (s', match p.2 with
        | some l => if ok then some (l ++ s'.store.read (64 * sp.1 + sp.2.1) sp.2.2) else none
        | none => none)) (s, some [])

/-- Write bytes to the store of cluster `k` at `off` for function `v`; a whole line clears poison, a partial write to a
poisoned line is not applied. Answers false for a poison response. -/
def State.csWrite (s : State) (k v off : Nat) (data : List Byte) (poison : Bool) : State × Bool :=
  let b := k * csSize
  let c := s.clOf k
  let lines := (lineSpans off data.length).map fun sp => (v, sp.1)
  let s := s.setCl k { c with written := c.written ++ lines.filter fun x => !(c.written.contains x) }
  (lineSpans (b + off) data.length).foldl (fun (p : State × Bool) sp =>
    let d := (data.drop (64 * sp.1 + sp.2.1 - (b + off))).take sp.2.2
    let s := p.1
    if poison then ({ s with csPoison := addSorted sp.1 s.csPoison }, p.2)
    else if sp.2.2 = 64 then
      ({ s with store := s.store.write (64 * sp.1) d, csPoison := s.csPoison.erase sp.1,
                csEcc := clearEcc s.csEcc (8 * sp.1) 8 }, p.2)
    else if s.csPoison.contains sp.1 then (s, false)
    else
      let (s, ok) := (partWords sp.2.1 sp.2.2).foldl
        (fun (q : State × Bool) i => if q.2 then q.1.csCheck k (8 * sp.1 + i) 1 else q) (s, true)
      if ok then
        ({ s with store := s.store.write (64 * sp.1 + sp.2.1) d,
                  csEcc := (touchedWords sp.2.1 sp.2.2).foldl (fun e i => Tbl.set [] e (8 * sp.1 + i) []) s.csEcc }, p.2)
      else (s, false)) (s, true)

/-- Zero `n` bytes of a store from `off`, whole lines, with poison and errors cleared (R184, R325). -/
def State.csZero (s : State) (k off n : Nat) : State :=
  let a := k * csSize + off
  { s with store := s.store.zero a n,
           csPoison := s.csPoison.filter fun l => !(decide (a / 64 ≤ l) && decide (64 * l < a + n)),
           csEcc := s.csEcc.filter fun p => !(decide (a / 8 ≤ p.1) && decide (8 * p.1 < a + n)) }

/-- Zero `n` bytes of HBM from `off`, whole lines (R325). -/
def State.hbmZero (s : State) (off n : Nat) : State :=
  { s with hbm := s.hbm.zero off n,
           poison := s.poison.filter fun l => !(decide (off / 64 ≤ l) && decide (64 * l < off + n)),
           ecc := s.ecc.filter fun p => !(decide (off / 8 ≤ p.1) && decide (8 * p.1 < off + n)),
           wb := s.wb.filter fun l => !(decide (off / 64 ≤ l) && decide (64 * l < off + n)) }

end Sys2Proof.Machine
end

