-- ==== Sys2Proof/Machine/DspPipe.lean ====
section
/-! DEFINITION. The pipeline and the memories of a radio DSP core (R207, R214 to R216): what is in flight, and the (72,64)
code of its X, Y and program memories (R316). -/

namespace Sys2Proof.Machine

/-- A radio DSP core, by physical index. -/
def State.coreOf (s : State) (k : Nat) : DspCore := Tbl.get {} s.dsp k

/-- Replace a core. -/
def State.setCore (s : State) (k : Nat) (d : DspCore) : State := { s with dsp := Tbl.set {} s.dsp k d }

/-- Key of register `i` in the bank a syllable issues in. -/
def DspCore.key (d : DspCore) (i : Nat) : Nat := bn d.sh * 64 + i

/-- Byte `off` of a core's memories: X from 0, Y from 0x2_0000, program from 0x4_0000. -/
def dspAddr (k off : Nat) : Nat := k * 0x80000 + off

/-- Check the words of `n` bytes of a core's memories (R207, R316): a corrected error raises 0x2801, an uncorrectable one
0x2802 or 0x2803 (R231). The answer is whether all can be used. -/
def State.dspCheck (s : State) (k a n : Nat) : State × Bool :=
  if s.dspEcc.isEmpty then (s, true)
  else
    let c := Checked.words { mem := s.dspMem, ecc := s.dspEcc, free := s.free, found := [] } (a / 8) ((a + n + 7) / 8 - a / 8)
    let s := { s with dspMem := c.mem, dspEcc := c.ecc, free := c.free }
    (c.found.foldl (fun s f =>
      let off := 8 * f.1 % 0x80000
      let info := BitVec.ofNat 32 (off % 0x20000 + 2 ^ 17 * (off / 0x20000))
      if f.2.isBad then s.raise (pageAt .rdsp k) (if off / 0x20000 = 2 then 3 else 2) info
      else if f.2.fixed then s.raise (pageAt .rdsp k) 1 info else s) s,
      c.found.all fun f => !f.2.isBad)

/-- Zero bytes of a core's memories (R184, R473). -/
def State.dspZero (s : State) (a n : Nat) : State :=
  { s with dspMem := s.dspMem.zero a n, dspEcc := s.dspEcc.filter fun e => !(decide (a / 8 ≤ e.1) && decide (8 * e.1 < a + n)) }

/-- What a reset of its domain or unit leaves of a core: the mover's descriptor in progress (R227). -/
def DspCore.afterReset (d : DspCore) : DspCore :=
  if d.moverRun.isNone then {} else { fn := d.fn, item := d.item, task := d.task, moverRun := d.moverRun, moverWrote := d.moverWrote }

/-- Write bytes into a core's memories: a write of part of a 64-bit word first checks the word (R476). -/
def State.dspPut (s : State) (k a : Nat) (data : List Byte) : State × Bool :=
  let n := data.length
  let (s, ok) := if a % 8 = 0 then (s, true) else s.dspCheck k a 1
  let (s, ok') := if (a + n) % 8 = 0 then (s, true) else s.dspCheck k (a + n - 1) 1
  if ok && ok' then
    ({ s with dspMem := s.dspMem.write a data,
              dspEcc := s.dspEcc.filter fun e => !(decide (a / 8 ≤ e.1) && decide (8 * e.1 < a + n)) }, true)
  else (s, false)

/-- Write a result into its bank. -/
def DspCore.land (d : DspCore) (f : Flight) : DspCore :=
  let key := bn f.sh * 64 + f.idx
  match f.cls with
  | .d => { d with d := Tbl.set 0 d.d key (f.val.setWidth 256) }
  | .ac => { d with ac := Tbl.set 0 d.ac key f.val }
  | .p => { d with p := Tbl.set 0 d.p key (f.val.setWidth 32) }
  | .m => { d with m := Tbl.set 0 d.m key (f.val.setWidth 32) }
  | .lc => { d with lc := Tbl.set 0 d.lc key (f.val.setWidth 32) }
  | .imask => { d with imask := f.val.setWidth 8 }

/-- Whether two results are for one register. -/
def Flight.same (f g : Flight) : Bool := f.sh == g.sh && decide (f.cls = g.cls) && f.idx == g.idx

/-- Insert a result in the order in which those of one cycle are written: by slot, then by age (R215). -/
def insertFlight (f : Flight) : List Flight → List Flight
  | [] => [f]
  | g :: t => if f.slot < g.slot ∨ (f.slot = g.slot ∧ f.born < g.born) then f :: g :: t else g :: insertFlight f t

/-- Number of results that another written in the same cycle replaces. -/
def collisions : List Flight → Nat
  | [] => 0
  | f :: t => bn (t.any f.same) + collisions t

/-- The memory accesses of a cycle: loads read, then stores write (R216). The answer is whether the code let all through. -/
def State.memCycle (s : State) (k : Nat) : State × Bool :=
  let d := s.coreOf k
  let now := d.memq.filter fun m => m.at_ == d.cyc
  let (s, ok) := (now.filter fun m => !m.store).foldl (fun (a : State × Bool) m =>
    let (s, ok) := a.1.dspCheck k m.addr m.bytes
    (s, a.2 && ok)) (s, true)
  let loads := (now.filter fun m => !m.store).map fun m =>
    ({ due := d.cyc + 1, born := d.cyc - 1, slot := m.slot, sh := m.sh, cls := m.cls, idx := m.idx,
       val := BitVec.ofNat 640 (s.dspMem.num m.addr m.bytes) } : Flight)
  let (s, ok) := (now.filter (·.store)).foldl (fun (a : State × Bool) m =>
    let (s, ok) := a.1.dspPut k m.addr (leBytes m.bytes m.val.toNat)
    (s, a.2 && ok)) (s, ok)
  (s.setCore k { d with flight := d.flight ++ loads, memq := d.memq.filter fun m => m.at_ != d.cyc }, ok)

/-- The end of an issue cycle for what is in flight: loads read, results are written, stores write (R214 to R216). -/
def State.retireCycle (s : State) (k : Nat) : State × Bool :=
  let (s, ok) := s.memCycle k
  let d := s.coreOf k
  let due := (d.flight.filter fun f => f.due == d.cyc).foldl (fun l f => insertFlight f l) []
  let n := collisions due
  let s := s.setCore k { due.foldl DspCore.land d with flight := d.flight.filter fun f => f.due != d.cyc, cyc := d.cyc + 1 }
  if n = 0 then (s, ok)
  else ((s.bump .rdsp k 0x080 n).setPr .rdsp k 0x048 (setFld (s.pr .rdsp k 0x048) 2 1 1), ok)

/-- Complete the results and stores of every bundle issued. -/
def State.drainCore (s : State) (k : Nat) : Nat → State × Bool
  | 0 => (s, true)
  | fuel + 1 =>
    let d := s.coreOf k
    if d.flight.isEmpty && d.memq.isEmpty then (s, true)
    else
      let (s, ok) := s.retireCycle k
      let (s, ok') := State.drainCore s k fuel
      (s, ok && ok')

/-- Complete the memory accesses of the bundles issued, ahead of the cycles in which their registers are written. -/
def State.drainMem (s : State) (k : Nat) : Nat → State × Bool
  | 0 => (s, true)
  | fuel + 1 =>
    if (s.coreOf k).memq.isEmpty then (s, true)
    else
      let cyc := (s.coreOf k).cyc
      let (s, ok) := s.memCycle k
      let (s, ok') := State.drainMem (s.setCore k { s.coreOf k with cyc := cyc + 1 }) k fuel
      (s.setCore k { s.coreOf k with cyc := cyc }, ok && ok')

/-- A core stops for a reset or a retirement (R227): what is issued completes, the mover's descriptor in progress goes on,
those behind it are discarded. -/
def State.quitCore (s : State) (k : Nat) : State :=
  let s := (s.drainCore k 8).1
  s.setCore k { s.coreOf k with
    playing := false, stopping := false, halted := false, released := false, relIra := false, tret := false, flight := [],
    memq := [], mover := [], ending := none, issued := 0, bundle := [], target := none }

end Sys2Proof.Machine
end

