-- ==== Sys2Proof/Machine/Owners.lean ====
section
/-! DEFINITION. The owner of a scene at an arbiter (R156 to R160). -/

namespace Sys2Proof.Machine

/-- Scenes of a period (R155). -/
def scenesOf (p : Nat) : Nat := if p = 0 then 625 else if p = 1 then 1250 else 2500

/-- Track entry of a bank (R159). -/
def State.roEntry (s : State) (bank track k : Nat) : Nat := Tbl.get 0x10 s.ro.track (bank * 160000 + track * 2500 + k)

/-- Track that a bank binds an arbiter to. -/
def State.roTrack (s : State) (bank arb : Nat) : Nat := Tbl.get 0 s.ro.bind (bank * 460 + arb)

/-- Owner of scene `k` at an arbiter in a bank. -/
def State.roOwner (s : State) (bank arb k : Nat) : Nat := s.roEntry bank (s.roTrack bank arb) k

/-- The active bank, 0 A or 1 B. -/
def State.roBank (s : State) : Nat := bn s.ro.bankB

/-- `RO_CTRL.EN`. -/
def State.roOn (s : State) : Bool := fld (s.pr .runord 0 0x040) 0 1 == 1

/-- No scene of a period is in progress: before the bases run, in an inserted stretch, and between a period's end and the
stretch that follows it. -/
def State.roIdle (s : State) : Bool :=
  !s.time.running || s.ro.realign || decide (scenesOf s.ro.period ≤ s.ro.scene)

/-- Owner code of the current scene at an arbiter (R157, R160, R175). -/
def State.ownerNow (s : State) (arb : Nat) : Nat :=
  if !s.roOn then 0x10 else if s.roIdle then 0x1F else s.roOwner s.roBank arb s.ro.scene

/-- Arbiter of a logical cluster (R158). -/
def arbCl (l : Nat) : Nat := 272 + l

/-- Whether the current scene is the first of a run at an arbiter. -/
def State.runFirst (s : State) (arb : Nat) : Bool :=
  let n := scenesOf s.ro.period
  s.roOwner s.roBank arb s.ro.scene != s.roOwner s.roBank arb ((s.ro.scene + n - 1) % n)

/-- Whether an arbiter other than a cluster's serves an owner code in the current scene (R160): an idle scene nobody, a radio
partition's own scenes it alone as first and open work and maintenance besides. Service there is work-conserving, so open
work and maintenance are served in every scene that is not idle. Before the time bases run there is no scene, and no task. -/
def State.mayServe (s : State) (arb owner : Nat) : Bool :=
  let o := s.ownerNow arb
  !s.time.running || (o != 0x1F && (decide (16 ≤ owner) || o == owner))

/-- The next die from one die toward another (R15, R161): 0 to 3 the quarters, 4 and 5 the edge tiles. Quarters that share no
crossing meet in an intermediate quarter, of which the manual leaves open which (log 2). -/
def hopTo (a b : Nat) : Nat :=
  match a, b with
  | 4, 0 | 4, 2 => 0
  | 4, _ => 1
  | 5, 2 | 5, 0 => 2
  | 5, _ => 3
  | 0, 4 | 1, 4 => 4
  | 2, 5 | 3, 5 => 5
  | 0, 3 => if Config.lowRoute 0 3 then 1 else 2
  | 3, 0 => if Config.lowRoute 3 0 then 1 else 2
  | 1, 2 => if Config.lowRoute 1 2 then 0 else 3
  | 2, 1 => if Config.lowRoute 2 1 then 0 else 3
  | 0, 5 => 2
  | 1, 5 => 3
  | 2, 4 => 0
  | 3, 4 => 1
  | _, _ => b

/-- The arbiter of the crossing from one die to a neighbour (R158). -/
def hopArb (a b : Nat) : Option Nat :=
  (findFrom (fun e => e == (a, b) || e == (b, a)) [(0, 1), (2, 3), (0, 2), (1, 3), (4, 0), (4, 1), (5, 2), (5, 3)] 0).map
    fun k => 2 * k + bn (decide ((a, b) = (1, 0) ∨ (a, b) = (3, 2) ∨ (a, b) = (2, 0) ∨ (a, b) = (3, 1) ∨ (a < 4 ∧ 4 ≤ b)))

/-- The arbiters of the crossings from one die to another, in order. -/
def routeArbs (a b : Nat) : Nat → List Nat
  | 0 => []
  | fuel + 1 => if a = b then [] else (hopArb a (hopTo a b)).toList ++ routeArbs (hopTo a b) b fuel

/-- The die of an issuer of memory accesses: a cluster's mover or sequencer, a call thread on E0, an accelerator, a DSP
core. -/
def orgDie (org : Nat) : Nat :=
  if 6000 ≤ org then 4 + (org - 6000) / 136
  else if 5000 ≤ org then 4 + (org - 5000) / 384
  else if 4000 ≤ org then (if org % 4000 = 144 ∨ org % 4000 = 145 then 4 + (org - 4144) else (org - 4000) % 300 / 36)
  else if 2000 ≤ org ∧ org < 2224 then 4
  else org / 8 % 300 / 36

/-- Weights of a function in force at cluster and crossing arbiters and at link arbiters (R165, R173). -/
def State.sceneW (s : State) (v : Nat) : Nat := fld (Tbl.get 0x00010001 s.ro.share v) 0 16
def State.linkW (s : State) (v : Nat) : Nat := fld (Tbl.get 0x00010001 s.ro.share v) 16 16

/-- A function's use of open and lent scenes over the last 16 periods. -/
def State.useOf (s : State) (v : Nat) : Nat := sumBy id (Tbl.get [] s.ro.use v)

/-- Whether a function is over share beside the functions with pending work, by the weights of an arbiter class (R165). -/
def State.overBy (s : State) (w : Nat → Nat) (fns : List Nat) (v : Nat) : Bool :=
  w v == 0 || decide (w v * sumBy s.useOf (List.range 256) < s.useOf v * sumBy w fns)

/-- Whether an access between two dies crosses now for an owner: a write on the way to memory, a read both ways. -/
def State.mayRoute (s : State) (owner a b : Nat) (write : Bool) : Bool :=
  (routeArbs a b 4).all (s.mayServe · owner) && (write || (routeArbs b a 4).all (s.mayServe · owner))

/-- Whether an issuer's access to `n` bytes of HBM is served in the current scene, at every crossing on its way and at every
channel (R16, R160). -/
def State.mayReach (s : State) (owner die off n : Nat) (write : Bool) : Bool :=
  (List.range ((off + n - 1) / 256 - off / 256 + 1)).all fun i =>
    let c := hbmInst ((off / 256 + i) * 256)
    s.mayServe (16 + c) owner && s.mayRoute owner die (c / 64) write

end Sys2Proof.Machine
end

