-- ==== Sys2Proof/Machine/Send.lean ====
section
/-! DEFINITION. What leaves the node (R338 to R340, R352 to R360): links and their virtual channels, routes, issue of
requests, effect tags, mirroring of a lead's writes (R362), and the global accesses of engines and threads (R96, R346). -/

namespace Sys2Proof.Machine

/-! ## Links -/

/-- A Graner link. -/
def State.linkOf (s : State) (l : Nat) : Link := Tbl.get {} s.links l

/-- Replace a link. -/
def State.setLink (s : State) (l : Nat) (x : Link) : State := { s with links := Tbl.set {} s.links l x }

/-- Whether a link is ACTIVE; the path layer treats every other state as absent (R334). -/
def State.linkActive (s : State) (l : Nat) : Bool := decide (l < 48) && decide ((s.linkOf l).st = .active)

/-- Flits of a transaction of `slots` 16-byte slots (R335; log 20). -/
def flitsOf (slots : Nat) : Nat := (slots + 14) / 15

/-- Flits sent and not acknowledged. -/
def Link.unacked (x : Link) : Nat := (x.txNext + 8191 - x.txAcked) % 4096

/-- Whether a transaction may leave on a link now: credit on its channel and replay space (R338, R340). -/
def Link.fits (x : Link) (m : LinkTx) : Bool :=
  decide (m.slots ≤ Tbl.get 0 x.credit m.vc) && decide (x.unacked + flitsOf m.slots ≤ 1024)

/-- The function whose task a transaction comes from, 256 for traffic of no function. -/
def LinkTx.fn (m : LinkTx) : Nat :=
  match m.own with
  | some (v, _) => v
  | none => 256

/-- The class in which a link's arbiter takes a transaction (R160, R165, R340): 0 the owner's, 1 open work under share and
traffic of no function, 2 open work over share, 3 the class that comes last, `none` where the scene serves it not at all. -/
def State.linkClass (s : State) (l : Nat) (fns : List Nat) (m : LinkTx) : Option Nat :=
  match m.own with
  | some (v, c) =>
    if !s.mayServe (412 + l) c then none
    else if c < 16 then some 0
    else if c = 0x11 then some (if s.ownerNow (412 + l) = 0x11 then 0 else 3)
    else some (if s.overBy s.linkW fns v then 2 else 1)
  | none => if s.mayServe (412 + l) 0x10 then some 1 else none

/-- The request a link's arbiter takes next (R160, R165, R340): of the first class with one, the functions in turn by ascending
number, and a function's requests in the order of their arrival. -/
def State.reqTurn (s : State) (l : Nat) (x : Link) : Option LinkTx :=
  let q := x.txq.filter fun m => m.vc == 0
  let fns := (List.range 256).filter fun v => q.any fun m => m.fn == v
  (List.range 4).findSome? fun c =>
    let here := q.filter fun m => decide (s.linkClass l fns m = some c)
    (here.find? fun m => here.all fun n =>
      decide ((m.fn + 256 - x.rr) % 257 ≤ (n.fn + 256 - x.rr) % 257))

/-- The transaction that a virtual channel sends next, if it fits; an idle scene serves nobody (R160). -/
def State.headOf (s : State) (l : Nat) (x : Link) (vc : Nat) : Option LinkTx :=
  let m := if vc = 0 then s.reqTurn l x
    else if s.mayServe (412 + l) 0x10 then x.txq.find? fun m => m.vc == vc else none
  m.filter x.fits

/-- The transaction the arbiter sends next: RSP, MGT, then REQ and MIR taking turns (R340); the mirror traffic of a pairing
that synchronises is maintenance, behind requests in scenes of any other owner (R362). -/
def State.linkNext (s : State) (l : Nat) (x : Link) : Option LinkTx :=
  let h := s.headOf l x
  let last := decide (s.und.st = .syncing) && s.ownerNow (412 + l) != 0x11
  (h 1).orElse fun _ => (h 3).orElse fun _ => if x.turn && !last then (h 2).orElse fun _ => h 0 else (h 0).orElse fun _ => h 2

/-- Drop the first element that equals `m`. -/
def dropFirst {α : Type} [DecidableEq α] (m : α) : List α → List α
  | [] => []
  | x :: t => if x = m then t else x :: dropFirst m t

/-- Send what a link's scene, credits and replay buffer let it send. -/
def State.pump (s : State) (l : Nat) : Nat → State
  | 0 => s
  | fuel + 1 =>
    let x := s.linkOf l
    if x.st ≠ .active then s
    else match s.linkNext l x with
      | none => s
      | some m =>
        let n := flitsOf m.slots
        let s := s.setLink l { x with txq := dropFirst m x.txq,
                                      credit := Tbl.upd 0 x.credit m.vc (· - m.slots),
                                      txNext := (x.txNext + n) % 4096,
                                      rr := if m.vc = 0 then m.fn else x.rr,
                                      turn := if m.vc = 0 then true else if m.vc = 2 then false else x.turn }
        State.pump ({ (s.bump64 .glink l 0x058 n) with out := m.msg :: s.out }) l fuel

/-- A scene begins: the links send what it serves. -/
def State.pumpAll (s : State) : State :=
  (List.range 48).foldl (fun s l => if (s.linkOf l).txq.isEmpty then s else s.pump l 64) s

/-- Hand a transaction to a link. -/
def State.linkSend (s : State) (l : Nat) (m : LinkTx) : State :=
  let x := s.linkOf l
  (s.setLink l { x with txq := x.txq ++ [m] }).pump l 64

/-! ## Routes (R352, R353) -/

/-- Slot 0 to 7 that a transaction hashes to (R352). -/
def routeSlot (dst off fpid attempt : Nat) : Nat :=
  let k := off / 4096
  let x := k ^^^ (k / 2 ^ 19) ^^^ (k / 2 ^ 38) ^^^ dst ^^^ (fpid * 16384)
  let y := x ^^^ (x / 128) ^^^ (x / 8)
  (y + attempt) % 8

/-- Link in slot `i` of the written entry of a destination, taken over or not (R365). -/
def State.slotOf (s : State) (dst i : Nat) : Nat :=
  bits (Tbl.get (2 ^ 48 - 1) s.fab.route (Tbl.get dst s.fab.moved dst)) (6 * i) 6

/-- Link of the effective table, `none` when the destination is unreachable (R353). -/
def State.linkFor (s : State) (dst off fpid attempt : Nat) : Option Nat :=
  let k := routeSlot dst off fpid attempt
  ((List.range 8).find? fun i => s.linkActive (s.slotOf dst ((k + i) % 8))).map fun i => s.slotOf dst ((k + i) % 8)

/-- This node's number (R371). -/
def State.node (s : State) : Nat := fld (s.pr .fabric 0 0x040) 0 14

/-- Slots of a transaction: the header's two, the tag's one, and its data (R348). -/
def slotsOf (tagged : Bool) (n : Nat) : Nat := 2 + bn tagged + (n + 15) / 16

/-- Send a response or a note toward a node; one that cannot be routed is dropped. -/
def State.sendTo (s : State) (vc dst off fpid attempt slots : Nat) (m : OutMsg) : State :=
  match s.linkFor dst off fpid attempt with
  | some l => s.linkSend l { vc := vc, slots := slots, msg := m }
  | none => s

/-! ## Issue of requests (R354) -/

/-- Transaction type codes (R347). -/
def tyRd : Nat := 1
def tyWr : Nat := 2
def tyAtom : Nat := 3
def tyFlush : Nat := 4
def tyTagrel : Nat := 5
def tyMirw : Nat := 8
def tyMirc : Nat := 9
def tyNote : Nat := 0x0A
def tyRdrsp : Nat := 0x10
def tyAck : Nat := 0x11
def tyAtrsp : Nat := 0x12
def tyErr : Nat := 0x13

/-- The source side of the pair with a destination. -/
def State.srcPair (s : State) (dst : Nat) : PairSrc := Tbl.get {} s.fab.src dst

/-- Replace the source side of a pair. -/
def State.setSrcPair (s : State) (dst : Nat) (p : PairSrc) : State :=
  { s with fab := { s.fab with src := Tbl.set {} s.fab.src dst p } }

/-- A number below 16,384 as a node. -/
def nodeFin (n : Nat) : Fin 16384 := ⟨n % 16384, Nat.mod_lt _ (by decide)⟩

/-- A request with the fields the issuer fills; source, sequence number and epoch are added at issue. -/
def mkReq (dst off n fpid rid : Nat) (data : List Byte) : FabReq :=
  { src := 0, dst := nodeFin dst, seqNo := 0, epoch := 0, attempt := 0, fpid := BitVec.ofNat 16 fpid,
    off := BitVec.ofNat 50 off, bytes := BitVec.ofNat 8 (n - 1), rid := BitVec.ofNat 16 rid, spec := false,
    poison := false, tag := none, aopc := 0, w64 := false, data := data }

/-- Outcome of an issue. -/
inductive Issued where
  | sent
  | wait
  | lost
  deriving DecidableEq, Repr

/-- Requests of this node that are not acknowledged (R354). -/
def State.unackedAll (s : State) : Nat := sumBy (fun p => p.2.unacked.length) s.fab.src

/-- What a request looks like as it leaves. -/
def reqMsg (kind : Nat) (r : FabReq) : OutMsg := .fabric kind r.dst.val r.seqNo.toNat 0 r.data

/-- Virtual channel of a transaction type (R347). -/
def vcOf (kind : Nat) : Nat :=
  if kind = tyMirw ∨ kind = tyMirc then 2 else if kind = tyNote then 3 else if 0x10 ≤ kind then 1 else 0

/-- Transmit a request on the effective table: the link used, 63 while the destination is unreachable (R353). -/
def State.transmit (s : State) (kind : Nat) (r : FabReq) (own : Option (Nat × Nat)) : State × Nat :=
  if fld (s.pr .fabric 0 0x044) 0 1 = 0 then (s, 63)
  else match s.linkFor r.dst.val r.off.toNat r.fpid.toNat r.attempt.toNat with
    | none => (s.raise (pageAt .fabric 0) 5 (BitVec.ofNat 32 (r.dst.val + 63 * 65536)), 63)
    | some l => (s.linkSend l { vc := vcOf kind, slots := slotsOf r.tag.isSome r.data.length, msg := reqMsg kind r, own := own }, l)

/-- Issue a request: numbered, transmitted and kept until acknowledged; waits at the limits of R354, and is answered
NODE_LOST at once to a lost node (R357). -/
def State.issue (s : State) (kind : Nat) (r : FabReq) (origin own : Option (Nat × Nat)) : State × Issued :=
  let dst := r.dst.val
  let p := s.srcPair dst
  if s.fab.lost.contains dst then (s, .lost)
  else if 2048 ≤ p.unacked.length ∨ 65536 ≤ s.unackedAll then (s, .wait)
  else
    let r := { r with src := nodeFin s.node, seqNo := BitVec.ofNat 32 p.seqNo, epoch := p.epoch }
    let (s, l) := s.transmit kind r own
    (s.setSrcPair dst { p with
      seqNo := (p.seqNo + 1) % 2 ^ 32,
      unacked := p.unacked ++ [{ seqNo := p.seqNo, attempt := 0, sends := 1, link := l, req := r, kind := kind,
                                 busy := false, sentAt := s.time.clk, origin := origin, own := own }] }, .sent)

/-! ## Effect tags (R141, R359) -/

/-- The record of a tag of a source at an offset. -/
def State.tagRec (s : State) (src off : Nat) (t : EffTag) : Option TagRec :=
  s.fab.tags.find? fun r => r.src == src && decide (r.tag = t) && r.off == off

/-- Whether the tag table is full (262,144 records). -/
def State.tagsFull (s : State) : Bool := decide (262144 ≤ s.fab.tags.length)

/-- Keep a tag record. -/
def State.keepTag (s : State) (r : TagRec) : State := { s with fab := { s.fab with tags := s.fab.tags ++ [r] } }

/-- A tagged request that finds the table full (R359). -/
def State.tagBusy (s : State) (src : Nat) : State :=
  (s.bump .fabric 0 0x090 1).raise (pageAt .fabric 0) 3 (BitVec.ofNat 32 (src + 63 * 65536))

/-! ## Pairing of an understudy (R196, R197, R362) -/

/-- Role, function and partner of the pairing (R203, R204). -/
def State.undRole (s : State) : Nat := fld (s.pr .chip 0 0x094) 0 2
def State.undFn (s : State) : Nat := fld (s.pr .chip 0 0x094) 8 8
def State.undPeer (s : State) : Nat := fld (s.pr .chip 0 0x098) 0 14

/-- `PG_ERR_INFO` of a pairing source (R205). -/
def State.undInfo (s : State) : Word := BitVec.ofNat 32 (s.undFn + 256 * s.undPeer)

/-- Whether this node leads the shard of function `v` and mirrors its changes (R362). -/
def State.leads (s : State) (v : Nat) : Bool :=
  s.undRole == 1 && s.undFn == v && (decide (s.und.st = .syncing) || decide (s.und.st = .mirroring))

/-- Whether function `v` is compare-only here (R197). -/
def State.compareOnly (s : State) (v : Nat) : Bool :=
  s.undRole == 2 && s.undFn == v
    && !(decide (s.und.st = .none) || decide (s.und.st = .on) || decide (s.und.st = .abandoned))

/-- Whether function `v` ignores doorbells here: an understudy's shard before it goes on, and once abandoned (R197, R201). -/
def State.shut (s : State) (v : Nat) : Bool :=
  s.undRole == 2 && s.undFn == v && !(decide (s.und.st = .none) || decide (s.und.st = .on))

/-- Bytes of an effect tag (R348). -/
def effTagBytes (t : EffTag) : List Byte :=
  leBytes 16 (t.fn.toNat + 2 ^ 8 * t.queue.toNat + 2 ^ 12 * t.seqNo.toNat + 2 ^ 76 * t.task.toNat + 2 ^ 88 * t.xidx.toNat)

/-- The effect tag that bytes spell. -/
def tagOfBytes (b : List Byte) : EffTag :=
  let x := leNat b
  { fn := BitVec.ofNat 8 x, queue := BitVec.ofNat 4 (x / 2 ^ 8), seqNo := BitVec.ofNat 64 (x / 2 ^ 12),
    task := BitVec.ofNat 12 (x / 2 ^ 76), xidx := BitVec.ofNat 32 (x / 2 ^ 88) }

/-- A mirrored tag record (R362; log 26): the tag, its source, status, offset and old value, 35 bytes. -/
def TagRec.bytes (r : TagRec) : List Byte :=
  effTagBytes r.tag ++ leBytes 2 r.src ++ leBytes 1 r.status ++ leBytes 8 r.off ++ leBytes 8 r.old.toNat

/-- The pairing breaks (R196). -/
def State.break (s : State) : State :=
  if s.und.st = .syncing ∨ s.und.st = .mirroring then { s with und := { s.und with st := .broken, current := false } }
  else { s with und := { s.und with current := false } }

/-- The understudy is lost: on the lead the pairing ends (R196). -/
def State.mirrorLost (s : State) : State :=
  ({ s with und := { s.und with st := .none, current := false } } : State).raise (pageAt .chip 0) 0x12 s.undInfo

/-- Whether another request to a node can be issued now. -/
def State.canIssue (s : State) (dst : Nat) : Bool :=
  decide ((s.srcPair dst).unacked.length < 2048) && decide (s.unackedAll < 65536)

/-- Send a mirror transaction, behind those that wait already (R354, R362). -/
def State.mirrorSend (s : State) (kind : Nat) (r : FabReq) (origin : Option (Nat × Nat)) : State :=
  if s.und.outq.isEmpty && s.canIssue s.undPeer then
    match s.issue kind r origin none with
    | (s', .lost) => s'.mirrorLost
    | (s', _) => s'
  else { s with und := { s.und with outq := s.und.outq ++ [(kind, r, origin)] } }

/-- Mirror bytes that changed in HBM (R362): a page not yet copied carries the change in its copy (R363). -/
def State.mirrorW (s : State) (v off : Nat) (data : List Byte) (origin : Option (Nat × Nat)) : State :=
  if s.leads v ∧ (s.und.st = .mirroring ∨ off < s.und.synced) then
    (pieces 256 (data.length / 256 + 1) data).zipIdx.foldl (fun s p =>
      s.mirrorSend tyMirw (mkReq s.undPeer (off + 256 * p.2) p.1.length (s.fnOf v).fpid.toNat 0 p.1) origin) s
  else s

/-- Mirror a record of `n` bytes: prompt-book record, tag record, generation or digest (R362). -/
def State.mirrorC (s : State) (v : Nat) (data : List Byte) : State :=
  if s.leads v then s.mirrorSend tyMirc (mkReq s.undPeer 0 data.length (s.fnOf v).fpid.toNat 0 data) none else s

/-- Issue the mirror transactions that wait, as far as the limits let them. -/
def State.mirrorFlush (s : State) : Nat → State
  | 0 => s
  | fuel + 1 =>
    match s.und.outq with
    | [] => s
    | m :: rest =>
      if s.canIssue s.undPeer then
        match ({ s with und := { s.und with outq := rest } } : State).issue m.1 m.2.1 m.2.2 none with
        | (s', .lost) => s'.mirrorLost
        | (s', _) => State.mirrorFlush s' fuel
      else s

/-- Keep a tag record of function `v` and mirror it. -/
def State.recordTag (s : State) (v : Nat) (r : TagRec) : State := (s.keepTag r).mirrorC v r.bytes

/-! ## Global accesses of tasks (R96, R346) -/

/-- Who accesses: the function, the issuing engine or thread, the expanded index, the item and the task. Issuers:
cluster × 8 + mover, 2,000 + call thread, 4,000 + sequencer, 5,000 + accelerator job, 6,000 + DSP core. -/
structure Who where
  v : Nat
  org : Nat
  x : Nat
  item : Nat
  task : Nat
  deriving DecidableEq, Repr

/-- The function and owner code an access goes by at a link; what firmware and the ports do is no task's (R160, R165). -/
def State.ownOf (s : State) (w : Who) : Option (Nat × Nat) :=
  if 7000 ≤ w.org then none else (s.itemOf w.item).map fun it => (it.fn, it.owner)

/-- Outcome of an access: done, an ending of the task with a status of R146, or not yet. -/
inductive Got where
  | ok (bytes : List Byte)
  | fail (status : Nat)
  | wait
  deriving DecidableEq, Repr

/-- Statuses of R146, R319 and R351. -/
def stMalformed : Nat := 1
def stAccess : Nat := 2
def stWatchdog : Nat := 3
def stCurtain : Nat := 4
def stSkipped : Nat := 5
def stRejected : Nat := 6
def stReturned : Nat := 7
def stLost : Nat := 8
def stPoisoned : Nat := 9
def stNodeLost : Nat := 10

/-- The effect tag of an access (R141). -/
def State.tagFor (s : State) (w : Who) : EffTag :=
  match s.itemOf w.item with
  | some it =>
    { fn := BitVec.ofNat 8 it.fn, queue := BitVec.ofNat 4 it.queue, seqNo := BitVec.ofNat 64 it.seqNo,
      task := BitVec.ofNat 12 w.task, xidx := BitVec.ofNat 32 w.x }
  | none => { fn := BitVec.ofNat 8 w.v, queue := 0, seqNo := 0, task := BitVec.ofNat 12 w.task, xidx := BitVec.ofNat 32 w.x }

/-- Where an offset of this node lies for a task (R313, R346). -/
inductive Place where
  | hbm (off : Nat)
  | host (addr : Nat)
  | mbox (off : Nat)
  | remote (node off : Nat)
  | none
  deriving DecidableEq, Repr

/-- Whether a node number is this node's own for a function: an understudy's shard finds the lead's node here, while it is
compare-only and once it has gone on (R197, R365). -/
def State.isHome (s : State) (v n : Nat) : Bool :=
  n == s.node || (s.undRole == 2 && s.undFn == v && decide (s.und.st ≠ .none) && n == s.undPeer)

/-- Whether a function's host traffic is refused (R446): an IDE stream of the port its grant names is insecure. -/
def State.ideShut (s : State) (v : Nat) : Bool :=
  (List.range 5).any fun k => Tbl.get .none s.hst.ide (5 * bn (s.fnOf v).port + k) == .insecure

/-- A function's host access by way of its port: with ATS enabled there, the translation of each page is requested unless the
4,096-entry cache holds it; a full cache loses its oldest entry (R377; log 63). -/
def State.translate (s : State) (v a n : Nat) : State :=
  if Tbl.get false s.hst.atsOn (bn (s.fnOf v).port) then
    let pages := (List.range ((a + n - 1) / 4096 + 1 - a / 4096)).map fun i => (v, a / 4096 + i)
    let l := pages.foldl (fun l p => if l.contains p then l else l ++ [p]) s.hst.ats
    { s with hst := { s.hst with ats := l.drop (l.length - 4096) } }
  else s

/-- Decode a global address as function `v` reaches it. -/
def State.place (s : State) (v ga : Nat) : Place :=
  let off := ga % 2 ^ 50
  if !s.isHome v (bits ga 50 14) then .remote (bits ga 50 14) off
  else if off < hbmSize then .hbm off
  else if 2 ^ 49 ≤ off then (if s.ideShut v then .none else .host (off - 2 ^ 49))
  else if 0xC010000000 ≤ off ∧ off < 0xC020000000 then .mbox (off - 0xC010000000)
  else .none

/-- Overlay of a compare-only task's own discarded writes on what memory holds (R197). -/
def State.shadowed (s : State) (w : Who) (off : Nat) (l : List Byte) : List Byte :=
  if s.compareOnly w.v then
    l.zipIdx.map fun p =>
      let k := Tbl.get 0 s.und.shadow ((w.item * 4096 + w.task) * 2 ^ 50 + off + p.2)
      if k = 0 then p.1 else BitVec.ofNat 8 (k - 1)
  else l

/-- Keep a compare-only task's write aside (R197). -/
def State.shadowPut (s : State) (w : Who) (off : Nat) (l : List Byte) : State :=
  { s with und := { s.und with
      shadow := l.zipIdx.foldl (fun t p =>
        Tbl.set 0 t ((w.item * 4096 + w.task) * 2 ^ 50 + off + p.2) (p.1.toNat + 1)) s.und.shadow } }

/-- The next read identifier that no outstanding read uses (R360). -/
def State.freeRid (s : State) : Nat :=
  ((List.range 4096).map fun i => (s.fab.nextRid + i) % 65536).find? (fun r => s.fab.reads.all fun o => o.rid != r)
    |>.getD s.fab.nextRid

/-- Chunks of at most 256 bytes of a remote range: address and length. -/
def chunks (ga n : Nat) : List (Nat × Nat) :=
  (List.range ((n + 255) / 256)).map fun i => (ga + 256 * i, min 256 (n - 256 * i))

/-- The issuer of reads that nobody awaits. -/
def orgNone : Nat := 19999

/-- What has landed for an issuer at an address. -/
def State.landedAt (s : State) (org ga : Nat) : Option Landed :=
  s.fab.landed.find? fun l => l.org == org && l.addr == ga

/-- Ask for a chunk of remote bytes unless it has been asked for; answers false if the node is lost. -/
def State.ask (s : State) (w : Who) (spec : Bool) (c : Nat × Nat) : State × Bool :=
  let dst := bits c.1 50 14
  if (s.landedAt w.org c.1).isSome || s.fab.reads.any (fun o => o.org == w.org && o.addr == c.1) then (s, true)
  else if s.fab.lost.contains dst then (s, false)
  else if 4096 ≤ s.fab.reads.length then (s, true)
  else
    let rid := s.freeRid
    let r := { mkReq dst (c.1 % 2 ^ 50) c.2 (s.fnOf w.v).fpid.toNat rid [] with spec := spec }
    match s.issue tyRd r (some (w.org, w.x)) (s.ownOf w) with
    | (s', .sent) =>
      ({ s' with fab := { s'.fab with
          reads := s'.fab.reads ++ [{ rid := rid, dst := dst, org := w.org, addr := c.1, isAtomic := false }],
          nextRid := (rid + 1) % 65536 } }, true)
    | (s', .lost) => (s', false)
    | (s', .wait) => (s', true)

/-- Drop what has landed for an issuer: its operation is over. -/
def State.forget (s : State) (org : Nat) : State :=
  { s with fab := { s.fab with landed := s.fab.landed.filter fun l => l.org != org } }

/-- What an issuer has asked for and not received is not awaited any more: its responses are discarded as they arrive
(R137). -/
def State.dropOrg (s : State) (org : Nat) : State :=
  let s := s.forget org
  { s with fab := { s.fab with reads := s.fab.reads.map fun o => if o.org = org then { o with org := orgNone } else o } }

/-- Read remote bytes: ask for every chunk, and answer once all have landed (R347, R351). -/
def State.remoteRead (s : State) (w : Who) (ga n : Nat) (spec : Bool) : State × Got :=
  let (s, alive) := (chunks ga n).foldl (fun (p : State × Bool) c =>
    let (s', ok) := p.1.ask w spec c
    (s', p.2 && ok)) (s, true)
  let l := (chunks ga n).map fun c => s.landedAt w.org c.1
  match l.find? fun x => match x with
      | some y => y.status != 0
      | none => false with
  | some (some y) => (s, .fail y.status)
  | _ =>
    if !alive then (s, .fail stNodeLost)
    else if l.all Option.isSome then
      (s, .ok (l.flatMap fun x => match x with
        | some y => y.bytes
        | none => []))
    else (s, .wait)

/-- Whether the running order serves a task's access to `n` bytes of HBM, or of host memory (by way of E0), in the current
scene; what firmware and the ports do for themselves is no task's (R160). -/
def State.sceneFor (s : State) (w : Who) (hbm : Option Nat) (n : Nat) (write : Bool) : Bool :=
  match s.itemOf w.item with
  | some it => decide (7000 ≤ w.org) || (match hbm with
    | some off => s.mayReach it.owner (orgDie w.org) off n write
    | none => s.mayRoute it.owner (orgDie w.org) 4 write)
  | none => true

/-- Read `n` bytes at a global address for a task (R96, R319, R346). -/
def State.gRead (s : State) (w : Who) (ga n : Nat) (spec : Bool) : State × Got :=
  if n = 0 then (s, .ok [])
  else match s.place w.v ga with
    | .hbm off =>
      if !s.ownsHbm w.v off n then (s, .fail stAccess)
      else if s.hbmWaits off n || !s.sceneFor w (some off) n false then (s, .wait)
      else
        let (s, r) := s.hbmRead off n spec
        match r with
        | some l => (s, .ok (s.shadowed w off l))
        | none => (s, .fail stPoisoned)
    | .host a =>
      if 2 ^ 49 < a + n then (s, .fail stAccess)
      else if !s.sceneFor w none n false then (s, .wait)
      else (s.translate w.v a n, .ok (s.shadowed w (2 ^ 49 + a) (s.host.read a n)))
    | .mbox _ | .none => (s, .fail stAccess)
    | .remote _ off => if off + n ≤ 2 ^ 50 then s.remoteRead w ga n spec else (s, .fail stAccess)

/-- Whether a local address lies in a page with SPEC_OK = 0 (R136, R346). -/
def State.specOff (s : State) (v ga : Nat) : Bool :=
  match s.place v ga with
  | .hbm off => !s.specOk off
  | _ => true

/-- Apply a local write once per effect tag, or answer from its record (R141, R359). -/
def State.once (s : State) (w : Who) (off : Nat) (tagged : Bool) (f : State → State × Nat) : State × Got :=
  if tagged then
    match s.tagRec s.node off (s.tagFor w) with
    | some r => (s, if r.status = 0 then .ok [] else .fail r.status)
    | none =>
      if s.tagsFull then (s.tagBusy s.node, .wait)
      else
        let (s', st) := f s
        (s'.recordTag w.v { src := s.node, tag := s.tagFor w, off := off, status := st, old := 0 },
          if st = 0 then .ok [] else .fail st)
  else
    let (s', st) := f s
    (s', if st = 0 then .ok [] else .fail st)

/-- Remember a node that holds effect tags of an item (R359). -/
def State.noteTagNode (s : State) (item dst : Nat) : State :=
  match s.itemOf item with
  | some it => s.setItem item { it with tagNodes := addSorted dst it.tagNodes }
  | none => s

/-- Write bytes at a global address for a task: applied here, or issued as WR requests that complete when acknowledged
(R97, R349). `tagged` asks for an effect tag: a mover's write carries it off this node or to a page with SPEC_OK = 0, a call's
write always (R141; log 21). -/
def State.gWrite (s : State) (w : Who) (ga : Nat) (data : List Byte) (poison tagged : Bool) : State × Got :=
  let n := data.length
  if n = 0 then (s, .ok [])
  else match s.place w.v ga with
    | .hbm off =>
      if !s.ownsHbm w.v off n then (s, .fail stAccess)
      else if s.compareOnly w.v then (s.shadowPut w off data, .ok [])
      else if s.hbmWaits off n || !s.sceneFor w (some off) n true then (s, .wait)
      else s.once w off (tagged && (s.specOff w.v ga || (decide (2000 ≤ w.org) && decide (w.org < 2224)))) fun s =>
        let (s, ok) := s.hbmWrite off data poison
        if ok then (s.mirrorW w.v off data (some (w.org, w.x)), 0) else (s, stPoisoned)
    | .host a =>
      if a + n ≤ 2 ^ 49 then
        if s.compareOnly w.v then (s.shadowPut w (2 ^ 49 + a) data, .ok [])
        else if !s.sceneFor w none n true then (s, .wait)
        else s.once w (2 ^ 49 + a) tagged fun s =>
          let s := s.translate w.v a n
          ({ s with host := s.host.write a data }, 0)
      else (s, .fail stAccess)
    | .mbox off =>
      -- a task reaches its own function's slot as any node does (R388)
      let v := off / 0x1000
      if v < 256 ∧ (s.fnOf v).fpid ≠ 0 ∧ (s.fnOf v).fpid = (s.fnOf w.v).fpid ∧ n ≤ 128 then
        if s.compareOnly w.v then (s, .ok []) else s.once w (0xC010000000 + off) tagged fun s => (s.mbFabric v (off % 0x1000) data, 0)
      else (s, .fail stAccess)
    | .none => (s, .fail stAccess)
    | .remote dst off =>
      if 2 ^ 50 < off + n then (s, .fail stAccess)
      else if s.compareOnly w.v then (s.shadowPut w off data, .ok [])
      else if s.fab.lost.contains dst then (s, .fail stNodeLost)
      else if 2048 < (s.srcPair dst).unacked.length + (n + 255) / 256 ∨ 65536 < s.unackedAll + (n + 255) / 256 then
        (s, .wait)
      else
        let s' := (chunks off n).foldl (fun s c =>
          let d := (data.drop (c.1 - off)).take c.2
          let r := { mkReq dst c.1 c.2 (s.fnOf w.v).fpid.toNat 0 d with
            poison := poison, tag := if tagged then some (s.tagFor w) else none }
          (s.issue tyWr r (some (w.org, w.x)) (s.ownOf w)).1) s
        (if tagged then s'.noteTagNode w.item dst else s', .ok [])

/-- Whether an issuer's writes and mirrors of an expanded index are all acknowledged (R97, R349, R362). -/
def State.acked (s : State) (org x : Nat) : Bool :=
  (s.fab.src.all fun p => p.2.unacked.all fun u => u.origin != some (org, x))
    && s.und.outq.all fun m => m.2.2 != some (org, x)

/-! ## Atomics (R108, R350) -/

/-- The new value of an atomic on a word of `n` bytes. -/
def atomNew (aopc n old o0 o1 : Nat) : Nat :=
  let m := 2 ^ (8 * n)
  let le := decide (signed (8 * n) old ≤ signed (8 * n) o0)
  match aopc with
  | 0 => (old + o0) % m
  | 1 => if le then old else o0 % m
  | 2 => if le then o0 % m else old
  | 3 => o0 % m
  | 4 => if old = o0 % m then o1 % m else old
  | 5 => old &&& (o0 % m)
  | 6 => old ||| (o0 % m)
  | 7 => old ^^^ (o0 % m)
  | 9 => min old (o0 % m)
  | 10 => max old (o0 % m)
  | _ => old

/-- The new value of FADD32 (R350), with the arithmetic of R36 and R37. -/
def fadd32 (old o0 : Nat) (add : Nat → Nat → Nat) : Nat := add old (o0 % 2 ^ 32)

/-- Apply an atomic to an HBM word for a function's extent: status (0, ACCESS, POISONED) and old value. -/
def State.hbmAtom (s : State) (v off aopc n o0 o1 : Nat) (add : Nat → Nat → Nat) (origin : Option (Nat × Nat)) :
    State × Nat × Nat :=
  if off % n ≠ 0 then (s, stAccess, 0)
  else
    let (s, r) := s.hbmRead off n false
    match r with
    | none => (s, stPoisoned, 0)
    | some l =>
      let old := leNat l
      let new := if aopc = 8 then fadd32 old o0 add else atomNew aopc n old o0 o1
      let s := { s with hbm := s.hbm.write off (leBytes n new), wb := s.wb.erase (off / 64),
                        ecc := Tbl.set [] s.ecc (off / 8) [] }
      ((s.bump64 .hbmc (hbmInst off) 0x04C 1).mirrorW v off (leBytes n new) origin, 0, old)

end Sys2Proof.Machine
end

