-- ==== Sys2Proof/Machine/Graph.lean ====
section
/-! DEFINITION. The prompt book (R147 to R149), completions (R121, R145), the graph descriptor and its checks (R127 to
R132), radio admission (R166 to R168) and acceptance (R131). -/

namespace Sys2Proof.Machine

/-! ## Places and homes -/

/-- Firmware version (R203): that of the running image. -/
def State.fwVer (s : State) : Word :=
  match s.sec.running with
  | some i => i.version
  | none => 0

/-- 32-bit timestamp of `SM_CTRL.TS_TB` (R153). -/
def State.tsNow (s : State) (die : Nat) : Nat := s.ts32On die (fld (s.pr .stage 0 0x040) 8 3)

/-- PLACE word of a task (R144). -/
def Task.placeWord (t : Task) : Nat :=
  match t.place with
  | none => 0
  | some (l, _) =>
    if t.ty = 1 then l % 32 + 256 * (l / 32)
    else if t.ty = 2 then l % 128 + 256 * (4 + l / 128)
    else 256 * (4 + l)

/-- Home of a function's open graphs: the quarter of its lowest granted logical cluster, Q0 with none (R126). -/
def State.homeOpen (s : State) (v : Nat) : Nat :=
  match least (fun l => s.hasCl v l) 128 with
  | some l => l / 32
  | none => 0

/-- `PG_ERR_INFO` of a STAGE source (R154). -/
def stageInfo (v t : Nat) : Word := BitVec.ofNat 32 (v + 256 * t)

/-! ## The prompt book -/

/-- Records of the prompt book (R147). -/
def bookSize : Nat := 2 ^ 24

/-- Record kinds. -/
def kAccept : Nat := 1
def kCue : Nat := 2
def kDone : Nat := 3
def kRelease : Nat := 4
def kReturn : Nat := 5
def kRerun : Nat := 6
def kReject : Nat := 7
def kCheckpoint : Nat := 8

/-- Position of the next record. -/
def State.pbPos (s : State) : Nat := s.pair (pageAddr .stage 0 + 0x080)

/-- Free records (R152). -/
def State.pbFree (s : State) : Nat := bookSize - s.work.book.length

/-- The 64 bytes of a record (R147). -/
def PbRec.bytes (r : PbRec) : List Byte :=
  let b := leBytes 8 r.seqNo ++ leBytes 1 r.kind ++ leBytes 1 r.fn ++ leBytes 1 (r.queue + 16 * r.mode)
    ++ leBytes 1 r.status ++ leBytes 4 r.task ++ leBytes 4 r.tag ++ leBytes 4 r.gen ++ leBytes 8 r.desc
    ++ leBytes 2 r.attempt ++ leBytes 1 r.cause ++ leBytes 1 r.home ++ leBytes 4 r.place ++ leBytes 4 r.time
    ++ List.replicate 12 0 ++ leBytes 4 r.idx
  b ++ leBytes 4 (crc32c b).toNat

/-- Write a record at the next position, in HBM and among the records not yet free; mirrored by a lead (R362). -/
def State.pbWrite (s : State) (r : PbRec) : State :=
  let pos := s.pbPos
  let r := { r with idx := pos % 2 ^ 32 }
  let (s, _) := s.hbmLineWrite ((0xBF80000000 + pos % bookSize * 64) / 64) r.bytes false
  let s := { s with work := { s.work with book := s.work.book ++ [r] } }
  (s.setPair (pageAddr .stage 0 + 0x080) ((pos + 1) % 2 ^ 64)).mirrorC r.fn r.bytes

/-- A record about an item. -/
def State.recOf (s : State) (it : Item) (kind status task attempt cause place : Nat) : PbRec :=
  { seqNo := it.seqNo, kind := kind, fn := it.fn, queue := it.queue, mode := it.mode, status := status, task := task,
    tag := it.tag, gen := it.gen, desc := it.desc, attempt := attempt, cause := cause, home := it.home, place := place,
    time := s.tsNow it.home, idx := 0 }

/-- Write a record, and a CHECKPOINT record at every 65,536th position (R148). A compare-only item leaves none (R197). -/
def State.journal (s : State) (r : PbRec) : State :=
  if s.compareOnly r.fn then s
  else
  let s := s.pbWrite r
  if s.pbPos % 65536 = 0 then
    s.pbWrite { r with kind := kCheckpoint, status := 0, task := 0xFFFFFFFF, attempt := 0, cause := 0, place := 0 }
  else s

/-- Whether a record's item is out of the book: its RELEASE, RETURN or REJECT is written. -/
def State.recOver (s : State) (r : PbRec) : Bool :=
  r.kind == kCheckpoint || s.work.book.any fun x =>
    x.fn == r.fn && x.queue == r.queue && x.seqNo == r.seqNo && [kRelease, kReturn, kReject].contains x.kind

/-- Free the records at the front of the book whose items are out of it (R148). -/
def State.freeBook (s : State) : State :=
  { s with work := { s.work with book := s.work.book.dropWhile fun r => s.recOver r } }

/-- Drop the tail copy of an item (R149). -/
def State.dropTail (s : State) (it : Item) : State :=
  { s with work := { s.work with tail := s.work.tail.filter fun t =>
      !(t.fn == it.fn && t.queue == it.queue && t.seqNo == it.seqNo) } }

/-! ## Completions (R121, R145) -/

/-- FLAGS of a completion. -/
def Item.flags (it : Item) : Nat :=
  bn it.rerun + 2 * bn it.preempted + 4 * bn (it.billed && !it.billFail) + 8 * bn it.afterWarm

/-- Insert a held completion by its sequence number. -/
def insertCompl (c : Compl) : List Compl → List Compl
  | [] => [c]
  | x :: t => if c.seqNo < x.seqNo then c :: x :: t else x :: insertCompl c t

/-- Hold an item's completion for its queue. A compare-only item has none: it is over (R197). -/
def State.complete (s : State) (it : Item) (status cause deciding : Nat) : State :=
  if s.compareOnly it.fn then
    { s with work := { s.work with
        items := s.work.items.filter fun p => !(p.2.fn == it.fn && p.2.queue == it.queue && p.2.seqNo == it.seqNo) } }
  else
  let c : Compl :=
    { seqNo := it.seqNo, tag := it.tag, status := status, cause := cause, fn := it.fn, queue := it.queue, gen := it.gen,
      task := deciding, tDone := s.tsNow it.home, flags := it.flags }
  { s with work := { s.work with held := Tbl.upd [] s.work.held (it.fn * 16 + it.queue) (insertCompl c) } }

/-- Bytes of a completion record with the generation at its writing (R145). -/
def Compl.bytes (c : Compl) (gen : Nat) : List Byte :=
  leBytes 8 c.seqNo ++ leBytes 4 c.tag ++ leBytes 1 c.status ++ leBytes 1 c.cause ++ leBytes 1 c.fn
    ++ leBytes 1 c.queue ++ leBytes 4 gen ++ leBytes 4 c.task ++ leBytes 4 c.tDone ++ leBytes 1 c.flags
    ++ List.replicate 3 0

/-! ## The running order's budgets (R166 to R168) -/

/-- Period length in ns of a PERIOD code (R155). -/
def periodNs (p : Nat) : Nat := if p = 0 then 31250 else if p = 1 then 62500 else 125000

/-- A running-order time, in ns of RO_TB. -/
def State.roNow (s : State) : Nat := s.t64On 4 s.ro.tb

/-- Period of the current life that holds an instant of RO_TB, counted from the period in progress. -/
def State.periodHolding (s : State) (c : Nat) : Int :=
  let p : Int := periodNs s.ro.period
  let now : Int := s.roNow
  let start := now - (now - s.ro.align) % p
  s.ro.curPeriod + ((c : Int) - start) / p

/-- Admission limits of a partition (R166). -/
def State.limC (s : State) (p : Nat) : Nat := min (Tbl.get 0 s.ro.uc p) (fld (s.rg (pageAddr .runord 0 + 0x108 + 0x40 * p)) 0 16)
def State.limA (s : State) (p : Nat) : Nat := min (Tbl.get 0 s.ro.ua p) (fld (s.rg (pageAddr .runord 0 + 0x108 + 0x40 * p)) 16 16)

/-- Bookings of a partition in a period. -/
def State.lcAt (s : State) (p t : Nat) : Nat := Tbl.get 0 s.ro.lc (p * 2 ^ 32 + t)
def State.laAt (s : State) (p t : Nat) : Nat := Tbl.get 0 s.ro.la (p * 2 ^ 32 + t)

/-- Add to the bookings of a window. -/
def State.book (s : State) (p c a : Nat) (w : Nat × Nat) : State :=
  { s with ro := { s.ro with
      lc := (List.range (w.2 + 1 - w.1)).foldl (fun t i => Tbl.upd 0 t (p * 2 ^ 32 + w.1 + i) (· + c)) s.ro.lc,
      la := (List.range (w.2 + 1 - w.1)).foldl (fun t i => Tbl.upd 0 t (p * 2 ^ 32 + w.1 + i) (· + a)) s.ro.la } }

/-- Take a graph's bookings back from the periods of its window not yet begun (R167). -/
def State.refund (s : State) (it : Item) : State :=
  match it.window with
  | none => s
  | some w =>
    let lo := max w.1 (s.ro.curPeriod + 1)
    let c := it.scenes % 65536
    let a := it.scenes / 65536
    { s with ro := { s.ro with
        lc := (List.range (w.2 + 1 - lo)).foldl (fun t i => Tbl.upd 0 t (it.owner * 2 ^ 32 + lo + i) (· - c)) s.ro.lc,
        la := (List.range (w.2 + 1 - lo)).foldl (fun t i => Tbl.upd 0 t (it.owner * 2 ^ 32 + lo + i) (· - a)) s.ro.la } }

/-- Curtain of a graph in ns of RO_TB (R167). -/
def State.curtainRo (s : State) (it : Item) : Nat :=
  (it.curtain + 2 ^ 65 - s.t64On it.home it.curtainTb + s.roNow) % 2 ^ 64

/-- The window a radio graph would book, or `none` when admission refuses it (R167, R168). A fallback graph is admitted
against `P_RESERVE` (R172). -/
def State.admission (s : State) (it : Item) (fallback : Bool) : Option (Nat × Nat) :=
  let p := it.owner
  let rs := Tbl.get 0 s.ro.reserve p
  let lc := if fallback then fld rs 0 16 else s.limC p
  let la := if fallback then fld rs 16 16 else s.limA p
  let c := it.scenes % 65536
  let a := it.scenes / 65536
  let first := s.ro.curPeriod + 1
  let last := s.periodHolding (s.curtainRo it)
  if fld (s.pr .runord 0 0x040) 0 1 = 0 then none
  else if last < first ∨ (s.ro.curPeriod + 64 : Nat) < last then none
  else
    let l := last.toNat
    let n := l + 1 - first
    let full := (List.range n).any fun i => decide (lc < s.lcAt p (first + i) + c) || decide (la < s.laAt p (first + i) + a)
    let runlen := fld (s.rg (pageAddr .runord 0 + 0x114 + 0x40 * p)) 0 12
    let big := it.tasks.any fun t => t.ty == 1 && decide (runlen ≤ t.scenes % 65536)
    let sumC := sumBy (fun (t : Task) => if t.ty = 2 then 0 else t.scenes % 65536) it.tasks
    let sumA := sumBy (fun (t : Task) => if t.ty = 2 then 0 else t.scenes / 65536) it.tasks
    if full || big || decide (c * n < sumC) || decide (a * n < sumA) then none else some (first, l)

/-! ## The graph descriptor (R127, R128) -/

/-- `n` bytes of a list at an offset as a number. -/
def fb (l : List Byte) (off n : Nat) : Nat := leNat ((l.drop off).take n)

/-- Whether bytes `off` to `off + n - 1` of a list are zero. -/
def zeros (l : List Byte) (off n : Nat) : Bool := ((l.drop off).take n).all (· == 0)

/-- A task of a graph descriptor, before anything happened to it. -/
def parseTask (b : List Byte) (gcls : Nat) (edges : List Nat) : Task :=
  let cls := fb b 1 1 % 8
  { ty := fb b 0 1, cls := if cls = 0 then gcls else cls, flags := fb b 2 1,
    succ := (edges.drop (fb b 4 4)).take (fb b 8 2), affinity := fb b 12 4, entry := fb b 16 8, seed := fb b 24 8,
    scenes := fb b 32 4, pfSrc := fb b 40 8, pfBytes := fb b 48 4, pfDst := fb b 52 4, st := .waiting, dep := 0 }

/-- Whether a task entry passes the checks of cause 0x20. -/
def taskOk (b : List Byte) (nEdges : Nat) : Bool :=
  decide (1 ≤ fb b 0 1) && decide (fb b 0 1 ≤ 3) && decide (fb b 1 1 < 8) && decide (fb b 2 1 < 4) && zeros b 3 1
    && decide (fb b 8 2 ≤ 4096) && decide (fb b 4 4 + fb b 8 2 ≤ nEdges) && zeros b 10 2 && zeros b 36 4 && zeros b 56 8
    && decide (fb b 48 4 ≤ 2 ^ 20) && decide (fb b 48 4 % 64 = 0)

/-- Whether a graph header passes the checks of cause 0x20. -/
def headerOk (b : List Byte) : Bool :=
  let radio := bit (fb b 9 1) 0
  decide (fb b 0 2 = 1) && decide (1 ≤ fb b 2 2) && decide (fb b 2 2 ≤ 4096) && decide (fb b 4 4 ≤ 65536)
    && decide (fb b 8 1 < 8) && decide (fb b 9 1 < 4) && decide (fb b 11 1 < 8) && zeros b 12 4 && zeros b 52 12
    && (if radio then decide (fb b 10 1 < 16) && decide (fb b 16 8 ≠ 0)
        else decide (fb b 10 1 = 16) && decide (fb b 16 8 = 0))

/-- The tasks with no predecessor left are taken away, again and again: what stays is on a cycle (R132). -/
def acyclic (succs : List (List Nat)) : Nat → List Nat → List Nat → Bool
  | 0, _, left => left.isEmpty
  | fuel + 1, deps, left =>
    let ready := left.filter fun i => nth 0 deps i == 0
    if ready.isEmpty then left.isEmpty
    else
      let deps := ready.foldl (fun d i => (nth [] succs i).foldl (fun d j => d.set j (nth 0 d j - 1)) d) deps
      acyclic succs fuel deps (left.filter fun i => !(ready.contains i))

/-- Dependence counts of tasks: the edge entries that name each (R130). -/
def depCounts (n : Nat) (tasks : List Task) : List Nat :=
  tasks.foldl (fun d t => t.succ.foldl (fun d j => d.set j (nth 0 d j + 1)) d) (List.replicate n 0)

/-- Tasks with their seeds (R129) and dependence counts. -/
def finishTasks (seed : Nat) (tasks : List Task) : List Task :=
  let deps := depCounts tasks.length tasks
  tasks.zipIdx.map fun p =>
    let d := nth 0 deps p.2
    { p.1 with
      seed := if p.1.seed = 0 then (srBlock (BitVec.ofNat 64 seed) (BitVec.ofNat 64 (0xFFFF000000000000 + p.2))).toNat
              else p.1.seed,
      dep := d, st := if d = 0 then .ready else .waiting }

/-- A stream's HDR as the Stage Manager reads it (R98): `none` when it is not a valid HDR. -/
def parseHdr (b : List Byte) : Option (Bool × Nat × Nat × Nat × Nat) :=
  if b.length = 64 ∧ fb b 0 1 = 0 ∧ fb b 1 1 % 8 = 0 ∧ fb b 1 1 / 16 = 0 ∧ fb b 16 1 < 2 ∧ 0 < fb b 20 4 then
    some (bit (fb b 16 1) 0, fb b 20 4, fb b 24 4, fb b 28 4, fb b 32 2)
  else none

/-- Offset of the context region (R78). -/
def ctxBase : Nat := 0x2B8000

/-- Whether a stream's declarations pass R98 and R78 for a task of an owner code; ad-lib use apart. -/
def hdrOk (owner : Nat) (h : Bool × Nat × Nat × Nat × Nat) : Bool :=
  let lo := h.2.2.1
  let hi := h.2.2.2.1
  decide (hi ≤ csSize) && decide (lo ≤ hi) && !(owner == 0x10 && decide (ctxBase < hi) && decide (lo < csSize) && decide (lo < hi))

/-- Lowest cause among those that apply. -/
def lowestCause (l : List (Nat × Bool)) : Option Nat := (l.find? (·.2)).map (·.1)

/-- Function of a task's access before anything of it runs. -/
def State.smWho (_s : State) (v item task : Nat) : Who := { v := v, org := 7000, x := 0, item := item, task := task }

/-- The streams' first lines of a graph's tasks: `none` while one has not been read. -/
def State.readHdrs (s : State) (v : Nat) (tasks : List Task) : State × Option (List (Option (Bool × Nat × Nat × Nat × Nat))) :=
  tasks.foldl (fun (p : State × Option (List (Option (Bool × Nat × Nat × Nat × Nat)))) t =>
    if t.ty = 2 then (p.1, p.2.map (· ++ [none]))
    else
      let (s', r) := if t.entry % 64 = 0 then p.1.gRead (p.1.smWho v 0 0) t.entry 64 false else (p.1, .fail stAccess)
      (s', match r, p.2 with
        | .wait, _ => none
        | _, none => none
        | .ok b, some l => some (l ++ [parseHdr b])
        | .fail _, some l => some (l ++ [none]))) (s, some [])

/-- Resources of a graph within the function's grant (cause 0x25). -/
def State.affinityOk (s : State) (v owner : Nat) (script : Bool) (t : Task) : Bool :=
  let pin := bit t.flags 1
  if t.ty = 1 then
    (count (fun l => s.hasCl v l && (s.physCl l).isSome) 128 != 0) &&
    (!pin || (if script then decide (t.affinity < 128)
              else decide (t.affinity < 128) && s.hasCl v t.affinity && (s.physCl t.affinity).isSome))
  else if t.ty = 2 then
    let g := s.part owner
    decide (g.dsp ≠ 0) && (!pin || (decide (t.affinity < 128) && g.dsp.getLsbD t.affinity))
  else true

/-- Check a graph: the lowest cause of R132 that applies, with the window it would book. -/
def State.checkGraph (s : State) (it : Item) (script fallback ok20 : Bool)
    (hdrs : List (Option (Bool × Nat × Nat × Nat × Nat))) : Option Nat × Option (Nat × Nat) :=
  if !ok20 then (some 0x20, none)
  else
    let n := it.tasks.length
    let cyc := !(acyclic (it.tasks.map (·.succ)) n (depCounts n it.tasks) (List.range n))
    let bad22 := (it.tasks.zip hdrs).any fun p => p.1.ty != 2 && match p.2 with
      | none => true
      | some h => if p.1.ty = 1 then !(hdrOk it.owner h) else false
    let bad23 := script && (it.tasks.zip hdrs).any fun p => match p.2 with
      | some h => h.1
      | none => false
    let own := it.radio && !((s.part it.owner).valid && (s.part it.owner).func == it.fn)
    let bad25 := own || it.tasks.any fun t => !(s.affinityOk it.fn it.owner script t)
    let past := it.radio && decide (it.curtain ≤ s.t64On it.home it.curtainTb)
    let bad27 := it.tasks.any fun t => (t.ty == 3 && decide (it.home < 4)) || (t.ty == 2 && !it.radio)
    let win := if it.radio then s.admission it fallback else none
    (lowestCause [(0x21, cyc), (0x22, bad22), (0x23, bad23), (0x24, it.radio && win.isNone), (0x25, bad25), (0x26, past),
      (0x27, bad27)], win)

/-! ## Acceptance (R131, R132) -/

/-- Whether the task of an item runs in SCRIPT mode at an attempt that starts now (R182). -/
def State.scriptNow (s : State) (it : Item) : Bool := it.mode == 1 || fld (s.pr .chip 0 0x080) 0 1 == 1

/-- Whether the lead point of a run of a partition on a logical cluster has passed, and the run is not over (R162). -/
def State.leadPassed (s : State) (p l : Nat) : Bool :=
  let n := scenesOf s.ro.period
  (s.ro.claims.any fun c => c.2.owner == p && c.1 / 2 == l) ||
    (s.roOn && !s.roIdle && (List.range (fld (s.pr .runord 0 0x040) 12 4)).any fun j =>
      s.roOwner s.roBank (arbCl l) ((s.ro.scene + j) % n) == p)

/-- A radio CLUSTER task became READY: late if the lead point of a run of its partition on a cluster of its function's
grant has passed and that run is not over (R162). -/
def State.lateTask (s : State) (it : Item) (t : Task) : State :=
  if it.radio && t.ty == 1 && (List.range 128).any (fun l => s.hasCl it.fn l && s.leadPassed it.owner l) then
    let a := pageAddr .runord 0 + 0x120 + 0x40 * it.owner
    s.setRg a (satAdd (s.rg a) 1)
  else s

/-- How an item comes to be accepted: from its ring, as the fallback of a missed graph (R172), or again, when it stands in a
mirrored book or an image (R193, R197, R200). -/
inductive Source where
  | ring
  | fallback
  | again
  deriving DecidableEq, Repr

/-- Number an item among those accepted. -/
def State.addItem (s : State) (it : Item) : State × Nat :=
  let i := s.work.nextItem
  ({ s with work := { s.work with items := Tbl.put s.work.items i it, nextItem := i + 1 } }, i)

/-- Put a newly accepted item on record; a compare-only item only runs (R197): its ACCEPT record, tail copy, `Q_HEAD`, `Q_SEQ` and counters. -/
def State.recordAccept (s : State) (it : Item) (ring : Bool) : State × Nat :=
  if s.compareOnly it.fn then s.addItem it
  else
  let a := qreg it.fn it.queue 0
  let s := s.setPair (a + 0x38) ((s.pair (a + 0x38) + 1) % 2 ^ 64)
  let s := if ring then s.setRg (a + 0x18) (s.rg (a + 0x18) + 1) else s
  let s := s.journal (s.recOf it kAccept 0 0xFFFFFFFF 0 0 0)
  let s := s.bump64 .stage it.home 0x050 1
  let i := s.work.nextItem
  ({ s with work := { s.work with
      tail := s.work.tail ++ [{ seqNo := it.seqNo, tag := it.tag, fn := it.fn, queue := it.queue, desc := it.desc, gen := it.gen }],
      items := Tbl.put s.work.items i it, nextItem := i + 1, bookWait := false } }, i)

/-- Reject an item (R132): a REJECT record, and a completion with the cause. -/
def State.rejectItem (s : State) (i cause : Nat) : State :=
  match s.itemOf i with
  | none => s
  | some it =>
    let s := s.journal (s.recOf it kReject stRejected 0xFFFFFFFF 0 cause 0)
    let s := s.bump .stage it.home 0x068 1
    let s := s.setItem i { it with rejected := true, released := true, status := stRejected, cause := cause }
    ((s.complete it stRejected cause 0xFFFFFFFF).dropTail it).freeBook

/-- Count a refused admission (R167). -/
def State.countRefused (s : State) (p : Nat) : State :=
  s.setRg (pageAddr .runord 0 + 0x124 + 0x40 * p) (satAdd (s.rg (pageAddr .runord 0 + 0x124 + 0x40 * p)) 1)

/-- An item of a function and queue with the queue's next sequence number. -/
def State.newItem (s : State) (fn q kind mode tag desc : Nat) : Item :=
  { fn := fn, queue := q, seqNo := s.pair (qreg fn q 0x38), tag := tag, kind := kind, mode := mode, desc := desc,
    gen := (s.fnOf fn).gen.toNat, home := s.homeOpen fn }

/-- The item that a graph descriptor describes, from its header and entries. -/
def graphItem (base : Item) (b : List Byte) (home : Nat) (tasks : List Task) : Item :=
  { base with
    radio := bit (fb b 9 1) 0, playbill := bit (fb b 9 1) 1, owner := fb b 10 1, curtainTb := fb b 11 1 % 8,
    curtain := fb b 16 8, seed := fb b 24 8, resultAddr := fb b 32 8, playbillAddr := fb b 40 8, scenes := fb b 48 4,
    home := home, tasks := tasks }

/-- Accept a checked or failing item: on record, then booked and its tasks READY or WAITING, or rejected. Answers the
item and whether it runs. An item accepted again has its record and has passed its checks. -/
def State.takeItem (s : State) (it : Item) (src : Source) (script ok20 : Bool)
    (hdrs : List (Option (Bool × Nat × Nat × Nat × Nat))) : State × Nat × Bool :=
  let (cause, win) := s.checkGraph it script (src == .fallback) ok20 hdrs
  let cause := if src = .again ∧ ok20 then none else cause
  let it := { it with fallback := src == .fallback }
  let (s, i) := if src = .again then s.addItem it else s.recordAccept it (src == .ring)
  match cause with
  | some c =>
    let s := if c = 0x24 then s.countRefused it.owner else s
    (s.rejectItem i c, i, false)
  | none =>
    let s := match win with
      | some w => s.book it.owner (it.scenes % 65536) (it.scenes / 65536) w
      | none => s
    let it := { it with window := win, tasks := finishTasks it.seed it.tasks }
    (it.tasks.foldl (fun s t => if t.st = .ready ∧ src ≠ .again then s.lateTask it t else s) (s.setItem i it), i, true)

/-- Read a graph descriptor and accept its item; `none` while a read has not returned. -/
def State.acceptGraph (s : State) (base : Item) (len : Nat) (src : Source) : State × Option (Nat × Bool) :=
  let w := s.smWho base.fn 0 0
  let fin := fun (s : State) (it : Item) (ok : Bool) (h : List (Option (Bool × Nat × Nat × Nat × Nat))) =>
    let (s, i, runs) := s.takeItem it src (s.scriptNow base) ok h
    (s.forget 7000, some (i, runs))
  let (s, r) := if base.desc % 64 = 0 then s.gRead w base.desc 64 false else (s, .fail stAccess)
  match r with
  | .wait => (s, none)
  | .fail _ => fin s base false []
  | .ok hb =>
    let nT := fb hb 2 2
    let nE := fb hb 4 4
    if !headerOk hb || decide (len < 64 + 64 * nT + 4 * nE) then fin s base false []
    else
      let (s, r) := s.gRead w (base.desc + 64) (64 * nT + 4 * nE) false
      match r with
      | .wait => (s, none)
      | .fail _ => fin s base false []
      | .ok body =>
        let tb := (List.range nT).map fun i => (body.drop (64 * i)).take 64
        let edges := (List.range nE).map fun e => fb body (64 * nT + 4 * e) 4
        let ok := tb.all (fun b => taskOk b nE) && edges.all fun e => decide (e < nT)
        let tasks := tb.map fun b => parseTask b (fb hb 8 1 % 8) edges
        let radio := bit (fb hb 9 1) 0
        let home := if radio then 4 + (s.part (fb hb 10 1)).tile else s.homeOpen base.fn
        let it := graphItem base hb home tasks
        if !ok then fin s it false []
        else
          let (s, hdrs) := s.readHdrs base.fn tasks
          match hdrs with
          | none => (s, none)
          | some h => fin s it true h

/-- The bytes that tell an understudy a raw stream's seed and class (log 26). -/
def SeedRec.bytes (r : SeedRec) : List Byte :=
  leBytes 8 r.seqNo ++ leBytes 1 r.fn ++ leBytes 1 r.queue ++ leBytes 1 r.cls ++ List.replicate 13 0 ++ leBytes 8 r.seed

/-- Read a stream's HDR and accept it as a graph of one CLUSTER task (R118, R132). -/
def State.acceptStream (s : State) (base : Item) (seed cls : Nat) (src : Source) : State × Option (Nat × Bool) :=
  let dcls := fld (s.rg (qreg base.fn base.queue 0)) 1 3
  let t : Task :=
    { ty := 1, cls := if cls = 0 then dcls else cls, flags := 0, succ := [], affinity := 0, entry := base.desc,
      seed := seed, scenes := 0, pfSrc := 0, pfBytes := 0, pfDst := 0, st := .ready, dep := 0 }
  let (s, h) := s.readHdrs base.fn [t]
  match h with
  | none => (s, none)
  | some h =>
    let it := { base with tasks := [t] }
    let (cause, _) := s.checkGraph it (s.scriptNow base) false (decide (cls < 8)) h
    let cause := if src = .again ∧ h != [none] then none else cause
    let s := s.mirrorC base.fn (SeedRec.bytes ⟨base.fn, base.queue, base.seqNo, seed, t.cls⟩)
    let (s, i) := if src = .again then s.addItem it else s.recordAccept it (src == .ring)
    let s := s.forget 7000
    match cause with
    | some c => (s.rejectItem i c, some (i, false))
    | none => (s, some (i, true))

end Sys2Proof.Machine
end

