-- ==== Sys2Proof/Machine/Work.lean ====
section
/-! DEFINITION. Tasks and items: leaving a unit, ending, dependence tokens, result records and playbills, re-runs and
returns (R130, R138 to R144, R188 to R192). -/

namespace Sys2Proof.Machine

/-! ## Leaving a unit -/

/-- Whether a chorus unit's saved context belongs to a task. -/
def ChorusUnit.holds (u : ChorusUnit) (i t : Nat) : Bool := u.ctx == some (i, t)

/-- A chorus unit left with the completed tiles and the spill that `p` and `sp` keep, besides contexts and the fade (R79,
R80). -/
def ChorusUnit.keep (u : ChorusUnit) (p : XDesc → Bool) (sp : Bool) : ChorusUnit :=
  let pipe := u.pipe.filter fun e => e.cmd.any p
  let out := u.readout.filter fun r => p r.2.2
  let spill := if sp then u.spilling else none
  let banks := !pipe.isEmpty || !out.isEmpty || spill.isSome
  { level := u.level, phase := if u.want then 0 else u.phase, credit := u.credit, ctx := u.ctx, pipe := pipe, readout := out,
    fin := u.fin.filter p, bank := if banks then u.bank else 0, acc := if banks then u.acc else [], spilling := spill,
    leaving := if sp then u.leaving else none }

/-- A chorus unit that a task leaves: what another stream, preempted before, still has there stays. -/
def ChorusUnit.idle (u : ChorusUnit) (i t : Nat) : ChorusUnit := u.keep (·.away) (u.leaving != some (i, t))

/-- A chorus unit without what a preempted stream, gone on as the record 300 + k, still has there. -/
def ChorusUnit.dropAway (u : ChorusUnit) (i t : Nat) : ChorusUnit :=
  let mine := u.leaving == some (i, t)
  { u with pipe := u.pipe.filter fun e => e.cmd.all (!·.away), readout := u.readout.filter fun r => !r.2.2.away,
           fin := u.fin.filter (!·.away), spilling := if mine then none else u.spilling,
           leaving := if mine then none else u.leaving }

/-- Discard the saved contexts of a task (R79). -/
def State.dropCtx (s : State) (i t : Nat) : State :=
  { s with cls := s.cls.map fun p =>
      (p.1, { p.2 with
        idleAt := if p.2.units.any fun u => u.2.holds i t then s.time.clk else p.2.idleAt,
        units := p.2.units.map fun u => (u.1, if u.2.holds i t then { u.2 with ctx := none } else u.2) }) }

/-- Drop the calls of a task: those waiting, and those running, which are aborted. -/
def State.dropCalls (s : State) (i t : Nat) : State :=
  { s with sh := { s.sh with
      callq := s.sh.callq.filter fun c => !(c.item == i && c.task == t),
      threads := s.sh.threads.filter fun p => match p.2.call with
        | some c => !(c.item == i && c.task == t)
        | none => true } }

/-- Drop what waits for an accelerator, and discard the results of what runs (R171). -/
def State.dropJobs (s : State) (i t : Nat) : State :=
  { s with acc := s.acc.map fun p =>
      (p.1, { p.2 with queue := p.2.queue.filter fun j => !(j.item == i && j.task == t),
                       run := p.2.run.map fun q =>
                         (q.1, if q.2.item == i && q.2.task == t then { q.2 with task := 5000, sig := none } else q.2) }) }

/-- A sequencer without a stream: SEQ_STAT keeps the last halt and its cause, SEQ_POS the failing line (R116, R125). -/
def Seq.atRest (q : Seq) : Seq :=
  { halted := q.halted, cause := q.cause, pt := { line := match q.ending with
      | some e => e.2.2
      | none => q.pt.line } }

/-- Take a task from its unit, dropping what is in progress there; its run-ahead reads not yet returned are cancelled
(R137). -/
def State.vacate (s : State) (i t : Nat) : State :=
  match s.taskOf i t with
  | none => s
  | some x =>
    let s := match s.itemOf i with
      | some it => if x.ahead = 0 then s else s.bump .stage it.home 0x078 x.ahead
      | none => s
    let s := s.setTask i t { x with place := none, ahead := 0 }
    match x.place with
    | none => s
    | some (l, k) =>
      let s := (s.dropCalls i t).dropJobs i t
      if x.ty = 1 then
        let c := s.clOf k
        let s := s.setCl k { c with placed := none, idleAt := s.time.clk, vec := [], movers := [],
                                    units := c.units.map fun u => (u.1, u.2.idle i t) }
        let s := if k < 300 then s
          else s.setCl (k - 300) { s.clOf (k - 300) with
            units := (s.clOf (k - 300)).units.map fun u => (u.1, u.2.dropAway i t) }
        let s := s.setSeq k (s.seqOf k).atRest
        [0, 1, 2, 3].foldl (fun s m => s.dropOrg (k * 8 + m)) (s.dropOrg (4000 + k))
      else if x.ty = 2 then
        s.quitCore k
      else s.setSeq (144 + l) {}

/-- Whether a completion of a task waits for its home (R140). -/
def State.pendEnd (s : State) (i t : Nat) : Bool := s.work.ends.any fun e => e.1 == i && e.2.1 == t

/-! ## Digests and playbills (R188 to R192) -/

/-- Bytes of a digest, byte 0 first. -/
def digBytes (d : BitVec 256) : List Byte := leBytes 32 d.toNat

/-- Digest of leaf `j` of a region. -/
def leafDigest (j : Nat) (d : List Byte) : BitVec 256 := sha3 (leBytes 8 j ++ d)

/-- Digest of a region (R190); an empty one has the one leaf that the formula begins with (log 35). -/
def regionDigest (role : Nat) (b : List Byte) : BitVec 256 :=
  let leaves := (if b = [] then [[]] else pieces 4096 (b.length / 4096 + 1) b).zipIdx.flatMap fun p => digBytes (leafDigest p.2 p.1)
  sha3 (leBytes 1 role ++ leBytes 8 b.length ++ leaves)

/-- The 24 bytes of a numeric summary (R64). -/
def Numeric.bytes (n : Numeric) : List Byte :=
  leBytes 4 n.sat ++ leBytes 4 n.flush ++ leBytes 4 n.fbs ++ leBytes 4 n.zblk ++ leBytes 4 n.nan ++ leBytes 4 n.wide

/-- Chips of the job (R203). -/
def State.jobChips (s : State) : Nat := fld (s.pr .chip 0 0x088) 0 15

/-- Insert a region by the expanded index of its call. -/
def insertRegion (r : Nat × Nat × BitVec 256) : List (Nat × Nat × BitVec 256) → List (Nat × Nat × BitVec 256)
  | [] => [r]
  | x :: t => if r.1 < x.1 then r :: x :: t else if r.1 = x.1 then r :: t else x :: insertRegion r t

/-- Digest of a task from its program's bytes (R190). -/
def State.taskDigest (s : State) (t : Task) (prog : List Byte) : BitVec 256 :=
  sha3 ([0x50, 0x42] ++ leBytes 2 1 ++ leBytes 1 (bn t.script) ++ leBytes 2 s.jobChips ++ leBytes 8 t.seed
    ++ t.num.bytes ++ digBytes (regionDigest 0 prog) ++ t.regions.flatMap fun r => digBytes r.2.2)

/-- Sequencer of a placed CLUSTER or ACCEL task. -/
def Task.seqIdx (t : Task) : Nat :=
  match t.place with
  | some (l, k) => if t.ty = 3 then 144 + l else k
  | none => 0

/-- The 128 bytes of a playbill (R192). -/
def State.playbill (s : State) (it : Item) (i : Nat) (t : Task) (dig : BitVec 256) : List Byte :=
  let fl := bn it.placeChg + 2 * bn it.resumed + 4 * bn (s.seqOf t.seqIdx).adlib
    + 8 * bn (decide (s.curMap.units ≠ s.map.fused.units))
  leBytes 2 1 ++ leBytes 1 (bn t.script) ++ leBytes 1 fl ++ leBytes 4 i ++ leBytes 8 it.seqNo ++ leBytes 1 it.fn
    ++ leBytes 1 it.queue ++ leBytes 2 t.attempt ++ leBytes 2 s.node ++ leBytes 2 s.jobChips
    ++ leBytes 4 s.fwVer.toNat ++ leBytes 4 (s.fnOf it.fn).gen.toNat ++ leBytes 8 t.seed ++ t.num.bytes
    ++ digBytes (mapDigest s.sec.variant s.curMap) ++ digBytes dig

/-- Send a digest to the understudy, or keep the understudy's own (R198). -/
def State.shareDigest (s : State) (it : Item) (i : Nat) (dig : BitVec 256) : State :=
  if s.leads it.fn then s.mirrorC it.fn (leBytes 8 it.seqNo ++ leBytes 4 i ++ digBytes dig)
  else if s.compareOnly it.fn then
    { s with und := { s.und with own := s.und.own ++ [(it.seqNo, i, dig)] } }
  else s

/-- Who writes a task's playbill. -/
def State.billWho (s : State) (v i t : Nat) : Who := { s.smWho v i t with x := i * 4096 + t + 1 }

/-- The playbill of a task has been written, or its write has failed (R188). -/
def State.billed (s : State) (i t addr : Nat) (ok : Bool) : State :=
  match s.itemOf i, s.taskOf i t with
  | some it, some x =>
    if ok then
      let s := (s.bump .chip 0 0x08C 1).setTask i t { x with playbill := addr, bill := .over }
      let s := if it.placeChg then s.bump .chip 0 0x090 1 else s
      match s.itemOf i with
      | some it => s.setItem i { it with billed := true }
      | none => s
    else
      let s := s.setTask i t { x with bill := .over }
      let s := match s.itemOf i with
        | some it => s.setItem i { it with billFail := true }
        | none => s
      s.raise (pageAt .chip 0) 0x10 (BitVec.ofNat 32 (it.fn + 256 * s.undPeer))
  | _, _ => s

/-- Write the playbill of a task that ends OK and share its digest; answers whether that is over. It is not while the
program's bytes have not been read or a write to another node is not acknowledged. The address of the playbill is kept in
the task, 0 if none was written (R188). -/
def State.writePlaybill (s : State) (i t : Nat) (ok : Bool) : State × Bool :=
  match s.itemOf i, s.taskOf i t with
  | some it, some x =>
    let share := x.script && (s.leads it.fn || s.compareOnly it.fn)
    let w := s.billWho it.fn i t
    let addr := it.playbillAddr + 128 * t
    if x.ty = 2 || !(it.playbill || share) then (s, true)
    else match x.bill with
      | .over => (s, true)
      | .sent => if s.acked w.org w.x then (s.billed i t addr true, true) else (s, false)
      | .none =>
        let (s, r) := s.gRead w x.entry (64 * (s.seqOf x.seqIdx).lines) false
        match r with
        | .wait => (s, false)
        | _ =>
          let prog := match r with
            | .ok b => b
            | _ => []
          let dig := s.taskDigest x prog
          let (s', r) :=
            if !it.playbill then (s, .ok [])
            else if ok then s.gWrite w addr (s.playbill it t x dig) false false else (s, .fail 0)
          match r with
          | .wait => (s', false)
          | r =>
            let s := s'.forget 7000
            let s := if share then s.shareDigest it t dig else s
            if !it.playbill then (s, true)
            else match r with
              | .fail _ => (s.billed i t addr false, true)
              | _ =>
                if s.acked w.org w.x then (s.billed i t addr true, true)
                else (s.setTask i t { x with bill := .sent }, false)
  | _, _ => (s, true)

/-! ## Ending tasks -/

/-- Result record of a task (R144). -/
def resultBytes (i : Nat) (t : Task) (tEnd : Nat) : List Byte :=
  leBytes 4 i ++ leBytes 1 t.status ++ leBytes 1 t.cause ++ leBytes 2 t.attempt ++ leBytes 4 t.line
    ++ leBytes 4 t.placeWord ++ t.num.bytes ++ leBytes 4 t.tStart ++ leBytes 4 tEnd ++ leBytes 8 t.playbill
    ++ List.replicate 8 0

/-- A task ends: DONE with a status, its record journalled, its result record written, its unit free. -/
def State.markDone (s : State) (i t status cause line : Nat) : State :=
  match s.itemOf i, s.taskOf i t with
  | some it, some x =>
    let y := { x with st := .done, status := status, cause := cause, line := line, save := none, ctxAt := none }
    let s := s.setTask i t y
    let s := s.journal (s.recOf it kDone status t y.attempt cause y.placeWord)
    let s := if it.kind = 1 then
        (s.gWrite (s.smWho it.fn i t) (it.resultAddr + 64 * t) (resultBytes t y (s.tsNow it.home)) false false).1
      else s
    let s := (s.vacate i t).dropCtx i t
    let s := s.setTask i t { y with place := x.place, ahead := 0 }
    let s := if status = stLost then s.raise (pageAt .stage it.home) 3 (stageInfo it.fn t) else s
    { s with und := { s.und with shadow := s.und.shadow.filter fun p => p.1 / 2 ^ 50 != i * 4096 + t },
             work := { s.work with ends := s.work.ends.filter fun e => !(e.1 == i && e.2.1 == t) } }
  | _, _ => s

/-- Deliver one dependence token (R130): the task becomes READY, or ends SKIPPED and then owes tokens itself. -/
def State.token (s : State) (i : Nat) (ok : Bool) (j : Nat) : State × Bool :=
  match s.taskOf i j with
  | none => (s, false)
  | some x =>
    let y := { x with dep := x.dep - 1, bad := x.bad || !ok }
    if x.st ≠ .waiting ∨ y.dep ≠ 0 then (s.setTask i j y, false)
    else if y.bad then ((s.setTask i j y).markDone i j stSkipped 0 0, true)
    else
      let s := s.setTask i j { y with st := .ready }
      match s.itemOf i with
      | some it => (s.lateTask it y, false)
      | none => (s, false)

/-- Deliver the tokens of ended tasks (task, whether it ended OK) until none is owed. -/
def State.deliver (s : State) (i : Nat) : Nat → List (Nat × Bool) → State
  | 0, _ => s
  | _ + 1, [] => s
  | fuel + 1, (t, ok) :: rest =>
    match s.taskOf i t with
    | none => State.deliver s i fuel rest
    | some x =>
      let (s, more) := x.succ.foldl (fun (p : State × List (Nat × Bool)) j =>
        let (s', skipped) := p.1.token i ok j
        (s', if skipped then p.2 ++ [(j, false)] else p.2)) (s, [])
      State.deliver s i fuel (rest ++ more)

/-- Status, cause and deciding task of a graph whose tasks are all DONE (R143). -/
def Item.outcome (it : Item) : Nat × Nat × Nat :=
  match it.tasks.zipIdx.find? fun p => p.1.status == stCurtain with
  | some p => (stCurtain, p.1.cause, p.2)
  | none => match it.tasks.zipIdx.find? fun p => p.1.status != 0 with
    | some p => (p.1.status, p.1.cause, p.2)
    | none => (0, 0, 0xFFFFFFFF)

/-- Free the effect tags of an item here and tell the nodes that hold some (R359). -/
def State.releaseTags (s : State) (it : Item) : State :=
  let mine := fun (t : EffTag) => t.fn.toNat == it.fn && t.queue.toNat == it.queue && t.seqNo.toNat == it.seqNo
  let s := { s with fab := { s.fab with tags := s.fab.tags.filter fun r => !(r.src == s.node && mine r.tag) } }
  it.tagNodes.foldl (fun s n =>
    let tag : EffTag := { fn := BitVec.ofNat 8 it.fn, queue := BitVec.ofNat 4 it.queue, seqNo := BitVec.ofNat 64 it.seqNo,
                          task := 0, xidx := 0 }
    (s.issue tyTagrel { mkReq n 0 1 (s.fnOf it.fn).fpid.toNat 0 [] with tag := some tag } none (some (it.fn, it.owner))).1) s

/-- Release an item whose tasks are all DONE (R143, R148): RELEASE record, completion, refund, tags and tail copy. -/
def State.releaseItem (s : State) (i : Nat) : State :=
  match s.itemOf i with
  | none => s
  | some it =>
    if it.released ∨ it.returned ∨ !(it.tasks.all fun t => decide (t.st = .done)) then s
    else
      let (status, cause, dec) := it.outcome
      let s := s.journal (s.recOf it kRelease status 0xFFFFFFFF 0 cause 0)
      let s := s.bump64 .stage it.home 0x058 1
      let s := s.setItem i { it with released := true, status := status, cause := cause, deciding := dec }
      (((s.complete it status cause dec).refund it).releaseTags it).dropTail it |>.freeBook

/-- Items accepted and not completed of a queue (R119). -/
def State.qDepth (s : State) (v q : Nat) : Nat := (s.work.items.filter fun p => p.2.fn == v && p.2.queue == q).length

/-- Accept the fallback graph of a partition whose graph missed its curtain (R172). While its descriptor's bytes are on their
way from another node the acceptance waits. -/
def State.fallback (s : State) (it : Item) : State :=
  let a := pageAddr .runord 0 + 0x100 + 0x40 * it.owner
  let cfg := s.rg a
  if fld cfg 0 1 = 0 ∨ it.fallback then s
  else
    let fn := (s.part it.owner).func
    let q := fld cfg 4 4
    let fail := fun (s : State) =>
      (s.setRg (a + 0x30) (satAdd (s.rg (a + 0x30)) 1)).raise (pageAt .runord 0) 4 (BitVec.ofNat 32 it.owner)
    let later := fun (s : State) => { s with work := { s.work with fbPend := s.work.fbPend ++ [it] } }
    if !(s.part it.owner).valid ∨ s.qlimit fn q ≤ s.qDepth fn q ∨ s.pbFree = 0 then fail s
    else
      let base := s.newItem fn q 1 it.mode (it.seqNo % 2 ^ 32) (s.pair (a + 0x28))
      let curtain := (it.curtain + 1000 * fld cfg 16 16) % 2 ^ 64
      let (s, r) := s.gRead (s.smWho fn 0 0) base.desc 64 false
      match r with
      | .wait => later s
      | .fail _ => fail (s.forget 7000)
      | .ok hb =>
        -- the fallback's curtain replaces the one its header carries
        let nT := fb hb 2 2
        let nE := fb hb 4 4
        let (s, body) := s.gRead (s.smWho fn 0 0) (base.desc + 64) (64 * nT + 4 * nE) false
        let bb := match body with
          | .ok b => b
          | _ => []
        let tb := (List.range nT).map fun i => (bb.drop (64 * i)).take 64
        let edges := (List.range nE).map fun e => fb bb (64 * nT + 4 * e) 4
        let ok := headerOk hb && decide (bb.length = 64 * nT + 4 * nE) && (tb.all fun b => taskOk b nE)
          && edges.all fun e => decide (e < nT)
        let tasks := if ok then tb.map fun b => parseTask b (fb hb 8 1 % 8) edges else []
        let item := { graphItem base hb (4 + (s.part it.owner).tile) tasks with curtain := curtain }
        let (s, h) := s.readHdrs fn tasks
        if body = .wait ∨ h.isNone then later s
        else
          let (s, _, runs) := s.takeItem item .fallback (s.scriptNow item) ok (h.getD [])
          let s := s.forget 7000
          if runs then s else fail s

/-- Try again the fallback graphs whose acceptance waits. -/
def State.retryFallbacks (s : State) : State :=
  s.work.fbPend.foldl State.fallback { s with work := { s.work with fbPend := [] } }

/-- Deliver an ended task's tokens, then release the item if all of its tasks are DONE; a graph that ends CURTAIN_MISS
starts its fallback (R130, R143, R172). -/
def State.afterDone (s : State) (i t : Nat) (ok : Bool) : State :=
  let s := s.deliver i 70000 [(t, ok)]
  let s := s.releaseItem i
  match s.itemOf i with
  | some it =>
    if it.released && it.status == stCurtain && it.radio && !it.missed then
      let s := s.setItem i { it with missed := true }
      let a := pageAddr .runord 0 + 0x118 + 0x40 * it.owner
      let s := (s.setRg a (satAdd (s.rg a) 1)).raise (pageAt .runord 0) 2 (BitVec.ofNat 32 it.owner)
      s.fallback it
    else s
  | none => s

/-- End a task with a status; of a task that is over already, or whose completion waits for its home, this is a discarded
completion (R140, R142). -/
def State.finishTask (s : State) (i t status cause line : Nat) : State :=
  match s.itemOf i, s.taskOf i t with
  | some it, some x =>
    if x.st = .done ∨ x.st = .returned ∨ s.pendEnd i t then s.bump .stage it.home 0x064 1
    else (s.markDone i t status cause line).afterDone i t (status == 0)
  | _, _ => s

/-- The home takes the notice of a task's end (R138, R140, R188): for OK its playbill is written first. -/
def State.completeTask (s : State) (i t : Nat) (pbOk : Bool) : State :=
  match s.work.ends.find? fun e => e.1 == i && e.2.1 == t with
  | none => s
  | some (_, _, st, cause, line) =>
    let (s, isOver) := if st = 0 then s.writePlaybill i t pbOk else (s, true)
    if !isOver then s
    else
      ({ s with work := { s.work with ends := s.work.ends.filter fun e => !(e.1 == i && e.2.1 == t) } } : State).finishTask
        i t st cause line

/-! ## Re-runs and returns -/

/-- Return a task to READY for a re-run (R139): `counted` says whether it counts toward ATTEMPT_MAX. A counted re-run
beyond the limit ends the task LOST instead. `avoid` is the retired unit. A task whose completion has reached its home does
not run again (R140). -/
def State.rerunTask (s : State) (i t : Nat) (counted : Bool) (avoid : Option Nat) : State :=
  match s.itemOf i, s.taskOf i t with
  | some it, some x =>
    if (x.st ≠ .ready ∧ x.st ≠ .cued ∧ x.st ≠ .playing) ∨ s.pendEnd i t then s
    else if counted ∧ fld (s.pr .stage 0 0x040) 4 4 < x.counted + 2 then s.finishTask i t stLost 0 0
    else
      let s := (s.vacate i t).dropCtx i t
      let s := s.setTask i t { x with st := .ready, place := none, save := none, ctxAt := none, ahead := 0,
                                      attempt := x.attempt + 1, counted := x.counted + bn counted, num := {}, regions := [],
                                      bill := .none, avoid := x.avoid ++ avoid.toList }
      let s := s.journal (s.recOf it kRerun 0 t (x.attempt + 1) 0 x.placeWord)
      let s := s.bump .stage it.home 0x060 1
      match s.itemOf i with
      | some it => s.setItem i { it with rerun := true }
      | none => s
  | _, _ => s

/-- Return an item that is not released: RETURN record, no completion (R138, R383). -/
def State.returnItem (s : State) (i : Nat) : State :=
  match s.itemOf i with
  | none => s
  | some it =>
    if it.released then s
    else
      let s := (List.range it.tasks.length).foldl (fun s t =>
        let s := (s.vacate i t).dropCtx i t
        match s.taskOf i t with
        | some x => if x.st = .done then s else s.setTask i t { x with st := .returned }
        | none => s) s
      let s := s.journal (s.recOf it kReturn stReturned 0xFFFFFFFF 0 0 0)
      let s := s.bump .stage it.home 0x07C 1
      let s := ((s.refund it).releaseTags it).dropTail it |>.freeBook
      { s with work := { s.work with items := Tbl.del s.work.items i, ends := s.work.ends.filter fun e => e.1 != i } }

/-- Every item number in use. -/
def State.itemIds (s : State) : List Nat := s.work.items.map (·.1)

/-- Return every unreleased item of a function, and drop the completions it holds (R383). -/
def State.returnFn (s : State) (v : Nat) : State :=
  let s := s.itemIds.foldl (fun s i => match s.itemOf i with
    | some it => if it.fn = v then s.returnItem i else s
    | none => s) s
  s

/-- Tasks that are placed (CUED or PLAYING) and satisfy `p`: item and task. -/
def State.placedTasks (s : State) (p : Task → Bool) : List (Nat × Nat) :=
  s.work.items.flatMap fun e =>
    (e.2.tasks.zipIdx.filter fun x => (decide (x.1.st = .cued) || decide (x.1.st = .playing)) && p x.1).map
      fun x => (e.1, x.2)

/-- A notice that a task's unit has ended it, for its home to take (R140); a second one is discarded (R142). -/
def State.notice (s : State) (i t status cause line : Nat) : State :=
  if s.pendEnd i t then (match s.itemOf i with
    | some it => s.bump .stage it.home 0x064 1
    | none => s)
  else { s with work := { s.work with ends := s.work.ends ++ [(i, t, status, cause, line)] } }

end Sys2Proof.Machine
end

