-- ==== Sys2Proof/Machine/Replay.lean ====
section
/-! DEFINITION. Items rebuilt from prompt-book records: mirrored ones at an understudy, and those of an intermission image (R193,
R197, R200). -/

namespace Sys2Proof.Machine

/-- Whether a record takes its item out of the book. -/
def PbRec.over (r : PbRec) : Bool := r.kind == kRelease || r.kind == kReturn || r.kind == kReject

/-- Whether two records are of one item. -/
def PbRec.same (a b : PbRec) : Bool := a.fn == b.fn && a.queue == b.queue && a.seqNo == b.seqNo

/-- The seed and class of an item that is a raw stream. -/
def Item.seedRec (it : Item) : SeedRec :=
  let t := it.tasks.head?
  { fn := it.fn, queue := it.queue, seqNo := it.seqNo, seed := (t.map (·.seed)).getD 0, cls := (t.map (·.cls)).getD 0 }

/-- Accept again the item of an ACCEPT record, from its descriptor; nothing while a read waits. The seed and class of a raw stream
are those of its seed record. -/
def State.acceptRecord (s : State) (r : PbRec) (seeds : List SeedRec) : State × Option (Nat × Bool) :=
  let base := { s.newItem r.fn r.queue 1 r.mode r.tag r.desc with seqNo := r.seqNo, gen := r.gen }
  match seeds.find? fun x => x.queue == r.queue && x.seqNo == r.seqNo with
  | some x => s.acceptStream { base with kind := 2 } x.seed x.cls .again
  | none => s.acceptGraph base (2 ^ 40) .again

/-- What a mirrored record says of a task of a rebuilt item: attempts begun, and ends. -/
def State.replayRec (s : State) (i : Nat) (r : PbRec) : State :=
  match s.taskOf i r.task with
  | none => s
  | some x =>
    if r.kind = kCue ∨ r.kind = kRerun then s.setTask i r.task { x with attempt := max x.attempt r.attempt }
    else if r.kind = kDone ∧ x.st ≠ .done then
      (s.setTask i r.task { x with st := .done, status := r.status, cause := r.cause, attempt := r.attempt }).deliver i 70000
        [(r.task, r.status == 0)]
    else s

/-- A mirrored SCRIPT item runs for comparison (R197), once what its acceptance reads is there. -/
def State.shadowRun (s : State) (r : PbRec) : State :=
  match s.acceptRecord r s.und.seeds with
  | (s, none) => { s with und := { s.und with late := s.und.late ++ [(r, [])] } }
  | (s, some _) => s

/-- Rebuild the item of a mirrored ACCEPT record, while the shard is still compare-only and so without a record. -/
def State.rebuild (s : State) (book : List PbRec) (r : PbRec) : State :=
  match s.acceptRecord r s.und.seeds with
  | (s, some (i, true)) =>
    let s := (book.filter r.same).foldl (fun s x => s.replayRec i x) s
    (match s.itemOf i with
      | some it => s.setItem i { it with afterWarm := true }
      | none => s)
  | (s, some (_, false)) => s
  | (s, none) => { s with und := { s.und with late := s.und.late ++ [(r, book.filter r.same)] } }

/-- The tasks of an item that were CUED or PLAYING on the lead are re-run, not counted (R150). -/
def State.rerunCut (s : State) (book : List PbRec) (i : Nat) (it : Item) : State :=
  (List.range it.tasks.length).foldl (fun s t =>
    let mine := book.filter fun (r : PbRec) => r.fn == it.fn && r.queue == it.queue && r.seqNo == it.seqNo && r.task == t
    match mine.getLast? with
    | some r =>
      if r.kind = kCue then
        let s := (s.journal (s.recOf it kRerun 0 t r.attempt 0 0)).bump .stage it.home 0x060 1
        match s.itemOf i with
        | some it => s.setItem i { it with rerun := true }
        | none => s
      else s
    | none => s) s

/-- A rebuilt item is the understudy's own: its tail copy, the re-runs of what the lead was playing, and its release when all of it
was done. -/
def State.takeOver (s : State) (book : List PbRec) (i : Nat) : State :=
  match s.itemOf i with
  | none => s
  | some it =>
    let c : TailCopy := { seqNo := it.seqNo, tag := it.tag, fn := it.fn, queue := it.queue, desc := it.desc, gen := it.gen }
    let s := { s with work := { s.work with tail := s.work.tail ++ [c] } }
    (s.rerunCut book i it).releaseItem i

/-- Try again the items whose descriptor had not been read: run for comparison, or after going on rebuilt as the others were,
while their records are left as they stand. -/
def State.retryLate (s : State) : State :=
  s.und.late.foldl (fun s x =>
    if s.und.st = .on then
      let n := s.work.nextItem
      let t := ({ s with und := { s.und with st := .mirroring } } : State).rebuild x.2 x.1
      let t := { t with und := { t.und with st := .on } }
      if t.work.nextItem = n then t else t.takeOver x.2 n
    else s.shadowRun x.1) { s with und := { s.und with late := [] } }

end Sys2Proof.Machine
end

