-- ==== Sys2Proof/Machine/LinkOps.lean ====
section
/-! DEFINITION. What moves a Graner link between its states, spares its lanes and re-sends over other paths (R334, R339,
R341 to R345, R353). -/

namespace Sys2Proof.Machine

/-- Code of a link state (R370). -/
def linkCode : LinkState → Nat
  | .disabled => 0
  | .detect => 1
  | .train => 2
  | .config => 3
  | .active => 4
  | .retrain => 5
  | .down => 6
  | .damped => 7

/-- `PG_ERR_INFO` of a GLINK source (R373); lane 0xF for none. -/
def State.linkInfo (s : State) (l lane : Nat) : Word := BitVec.ofNat 32 (lane + 16 * linkCode (s.linkOf l).st)

/-- Transmit lane map (R332, R370). -/
def State.laneMap (s : State) (l : Nat) : Word := s.pr .glink l 0x048

/-- Set both lane maps of a link: the two ends change theirs together (R332, R341). -/
def State.setLaneMap (s : State) (l : Nat) (m : Word) : State := (s.setPr .glink l 0x048 m).setPr .glink l 0x04C m

/-- A lane map's fields; its reserved bits read 0 (R370). -/
def mapBits (m : Word) : Word := m &&& 0x03FF3FFF#32

/-- Number of data lanes. -/
def State.dataLanes (s : State) (l : Nat) : Nat := count (fun k => fld (s.laneMap l) k 1 == 1) 10

/-- A penalty now (R344): halved at every whole 60 s, and between what it is at the two ends of a minute inside it. -/
def penNow (clk : Nat) (p : Nat × Nat) : Nat :=
  let dt := clk - p.2
  let hi := p.1 / 2 ^ (dt / 60000000000)
  if dt % 60000000000 = 0 then hi else max (hi / 2) (min hi (Config.decay p.1 dt))

/-- Add to a penalty (R344): capped at 12,000. -/
def addPen (clk : Nat) (p : Nat × Nat) (n : Nat) : Nat × Nat := (min 12000 (penNow clk p + n), clk)

/-- `PG_ERR_INFO` of a FABRIC source (R373). -/
def fabInfo (node link : Nat) : Word := BitVec.ofNat 32 (node + 65536 * (link % 64))

/-! ## Modules as the life log knows them (R368) -/

/-- A module slot. -/
def State.modOf (s : State) (m : Nat) : OptMod := Tbl.get {} s.mods m

/-- Replace a module slot. -/
def State.setMod (s : State) (m : Nat) (x : OptMod) : State := { s with mods := Tbl.set {} s.mods m x }

/-- Whether the device manages the modules of a slot: `OM_CTRL.EN`. -/
def State.modOn (s : State) (m : Nat) : Bool := fld (s.pr .optm m 0x040) 0 1 == 1

/-- Vendor, part number and serial number of the module of a slot, as `OM_ID0` to `OM_ID11` show them. -/
def State.modIdent (s : State) (m : Nat) : List Word := (List.range 12).map fun k => s.pr .optm m (0x060 + 4 * k)

/-- Write a laser's count to the life log. -/
def State.keepLaser (s : State) (id : List Word) (x : Laser) : State :=
  { s with life := { s.life with lasers := (id, x) :: s.life.lasers.filter fun p => p.1 != id } }

/-- A slot forgets its module, whose laser the life log keeps. -/
def State.keepModule (s : State) (m : Nat) : State :=
  let s := if (s.modOf m).present && s.modOn m then s.keepLaser (s.modIdent m) (s.modOf m).laser else s
  s.setMod m {}

/-- Re-send an unacknowledged request with ATTEMPT incremented (R353, R355). -/
def State.resend (s : State) (dst : Nat) (u : Unacked) : State × Unacked :=
  let r := { u.req with attempt := u.req.attempt + 1 }
  let s := (s.bump .fabric 0 0x080 1).raise (pageAt .fabric 0) 1 (fabInfo dst u.link)
  let (s, l) := s.transmit u.kind r u.own
  (s, { u with req := r, attempt := (u.attempt + 1) % 8, sends := u.sends + 1, link := l, busy := false, sentAt := s.time.clk })

/-- Re-send the unacknowledged requests of a pair that satisfy `p`. -/
def State.resendPair (s : State) (dst : Nat) (p : Unacked → Bool) : State :=
  let q := s.srcPair dst
  let (s, l) := q.unacked.foldl (fun (a : State × List Unacked) u =>
    if p u then
      let (s', u') := a.1.resend dst u
      (s', a.2 ++ [u'])
    else (a.1, a.2 ++ [u])) (s, [])
  s.setSrcPair dst { s.srcPair dst with unacked := l }

/-- Every destination that has a source side. -/
def State.pairDsts (s : State) : List Nat := s.fab.src.map (·.1)

/-- A link left ACTIVE: every unacknowledged request whose first hop it was is re-sent at once (R353). -/
def State.reroute (s : State) (l : Nat) : State :=
  s.pairDsts.foldl (fun s d => s.resendPair d fun u => u.link == l) s

/-- A link became ACTIVE: requests held for an unreachable destination are sent for the first time (R353). -/
def State.sendHeld (s : State) : State :=
  s.pairDsts.foldl (fun s d =>
    let q := s.srcPair d
    let (s, l) := q.unacked.foldl (fun (a : State × List Unacked) u =>
      if u.link = 63 ∧ (a.1.linkFor d u.req.off.toNat u.req.fpid.toNat u.req.attempt.toNat).isSome then
        let (s', k) := a.1.transmit u.kind u.req u.own
        (s', a.2 ++ [{ u with link := k, sentAt := s'.time.clk }])
      else (a.1, a.2 ++ [u])) (s, [])
    s.setSrcPair d { s.srcPair d with unacked := l }) s

/-- Change a link's state; leaving ACTIVE re-sends over other paths. -/
def State.linkTo (s : State) (l : Nat) (st : LinkState) : State :=
  let x := s.linkOf l
  let s' := s.setLink l { x with st := st, since := s.time.clk,
                                 left := if x.st = .active then s.time.clk else x.left }
  if x.st = .active ∧ st ≠ .active then s'.reroute l else s'

/-- Discard a link's replay buffer and credits (R334). -/
def Link.drained (x : Link) : Link := { x with txq := [], credit := [], txNext := 0, txAcked := 4095, rxSeq := 4095, nakSent := false,
                                                replays := [], width := 0 }

/-- Enter DISABLED: lanes idle, buffers discarded. -/
def State.linkDisabled (s : State) (l : Nat) : State :=
  (s.setLink l (s.linkOf l).drained).linkTo l .disabled |>.setPr .glink l 0x050 0

/-- Enter RETRAIN from ACTIVE (R339, R343, R344): the penalty grows, and elsewhere nothing but the penalty does (R345). -/
def State.linkRetrain (s : State) (l : Nat) : State :=
  let x := s.linkOf l
  if x.st = .active ∨ x.st = .damped ∨ x.st = .down then
    let s := s.setLink l { x with pen := addPen s.time.clk x.pen 500 }
    if x.st = .active then ((s.bump .glink l 0x078 1).scoreEvent 6 l).linkTo l .retrain else s
  else s

/-- Enter DOWN, and DAMPED when the penalty is at least 3,000 (R334, R344). -/
def State.linkDown (s : State) (l : Nat) : State :=
  let x := s.linkOf l
  let pen := addPen s.time.clk x.pen 1000
  let s := s.setLink l { x.drained with pen := pen }
  let s := ((s.bump .glink l 0x07C 1).scoreEvent 6 l).linkTo l .down
  let s := (s.setPr .glink l 0x050 0).raise (pageAt .glink l) 5 (s.linkInfo l 0xF)
  if 3000 ≤ pen.1 then
    let s := s.linkTo l .damped
    s.raise (pageAt .glink l) 6 (s.linkInfo l 0xF)
  else s

/-- A lane leaves service: the spare takes its place, or the link degrades to five lanes (R341, R343). -/
def State.spareLane (s : State) (l k : Nat) : State :=
  let m := s.laneMap l
  if fld m k 1 = 0 then s
  else
    let sp := fld m 10 4
    if sp < 10 then
      let m := setFld (setFld (setFld (setFld m k 1 0) sp 1 1) 10 4 0xF) (16 + k) 1 1
      ((s.setLaneMap l m).bump .glink l 0x080 1).raise (pageAt .glink l) 3 (s.linkInfo l k)
    else
      let s := s.setLaneMap l (setFld (setFld m k 1 0) (16 + k) 1 1)
      let s := s.raise (pageAt .glink l) 4 (s.linkInfo l k)
      s.linkRetrain l

/-- The `n` lowest of the lanes set in a mask. -/
def lowLanes (mask n : Nat) : List Nat := ((List.range 10).filter fun k => bit mask k).take n

/-- Write the lanes a retrain or a training leaves in DATA (R343): all nine where that many train, else the five
lowest. A spare stays only beside nine data lanes. -/
def State.setDataLanes (s : State) (l : Nat) (mask : Nat) : State :=
  let m := s.laneMap l
  let up := lowLanes mask 10
  let data := if 9 ≤ up.length then up.take 9 else up.take 5
  let spare := if 10 ≤ up.length then nth 0xF up 9 else 0xF
  let d := sumBy (fun k => 2 ^ k) data
  s.setLaneMap l (setFld (setFld m 0 10 d) 10 4 spare)

end Sys2Proof.Machine
end

