-- ==== Sys2Proof/Machine/ResetOps.lean ====
section
/-! DEFINITION. Resets (R429, R430): requests, how they overlap, and what stops when one begins. What a reset's completion
does is in Reset. -/

namespace Sys2Proof.Machine

/-- RST_STAT.REFUSED and source 0x0505: a reset request absorbed or refused (R430, R434). -/
def State.refuseReset (s : State) (kind dom : Nat) : State :=
  (s.setPr .pwr 0 0x06C (setFld (s.pr .pwr 0 0x06C) 31 1 1)).raise (pageAt .pwr 0) 5 (BitVec.ofNat 32 (dom + 2 ^ 17 * kind))

/-- An accepted request clears REFUSED. -/
def State.acceptReset (s : State) : State := s.setPr .pwr 0 0x06C 0

/-- Whether a reset of the whole device runs: a cold one until READY, or a warm one. -/
def State.bigReset (s : State) : Bool := s.rst.cold || !s.boot.ready || s.rst.warm

/-- Interrupted bring-ins count for nothing and wait again (R473). -/
def State.stopBringIns (s : State) (dies : Nat → Bool) : State :=
  let hit := s.map.running.filter fun p => dies p.1
  { s with map := { s.map with
      running := s.map.running.filter fun p => !(dies p.1),
      waiting := s.map.waiting ++ hit.map fun p => (p.2.cls, p.2.unit, p.2.pos) } }

/-- An inactive chorus unit keeps nothing; a cluster keeps its power state, its store's marks and its scrub point. -/
def Cluster.afterReset (c : Cluster) : Cluster :=
  { pwr := c.pwr, force := c.force, scrub := c.scrub, written := c.written }

/-- Keys outside a range. -/
def Tbl.outside {α : Type} (t : Tbl α) (lo n : Nat) : Tbl α := t.filter fun p => decide (p.1 < lo) || decide (lo + n ≤ p.1)

/-- Accelerators after a reset: what retirement has taken from the grants stays (R238). -/
def AccSt.afterReset (a : AccSt) : AccSt := { lost := a.lost }

/-- Re-run, uncounted, the tasks that satisfy `p` or whose saved context a cluster of `ctx` holds (R150). -/
def State.rerunWhere (s : State) (p : Task → Bool) (ctx : Nat → Bool) : State :=
  let saved := s.work.items.flatMap fun e =>
    (e.2.tasks.zipIdx.filter fun x => decide (x.1.st = .ready) && x.1.ctxAt.any ctx).map fun x => (e.1, x.2)
  (s.placedTasks p ++ saved).foldl (fun s x => s.rerunTask x.1 x.2 false none) s

/-- Whether a task stands on clusters, cores or the accelerators that satisfy `p`. -/
def Task.standsOn (x : Task) (ty : Nat) (p : Nat → Bool) : Bool :=
  x.ty == ty && match x.place with
    | some (_, k) => p k
    | none => false

/-- The die of a function's lowest granted cluster outside a quarter. -/
def State.otherHome (s : State) (v q : Nat) : Option Nat :=
  (least (fun l => s.hasCl v l && l / 32 != q && (s.physCl l).isSome) 128).map (· / 32)

/-- The coordinator rehomes the graphs of a quarter to the instance of the function's lowest remaining granted cluster
(R150). -/
def State.rehome (s : State) (q : Nat) : State :=
  let move := fun (e : Nat × Item) => if e.2.home = q then (e.1, { e.2 with home := (s.otherHome e.2.fn q).getD q }) else e
  { s with work := { s.work with items := s.work.items.map move } }

/-- A quarter's reset begins: its clusters stop, and its tasks run again elsewhere or later. -/
def State.stopQuarter (s : State) (q : Nat) : State :=
  let on := fun k => k / 36 == q
  let s := (s.rerunWhere (fun x => x.standsOn 1 on) on).rehome q
  let s := { s with seqs := (s.seqs.outside (q * 36) 36).outside (300 + q * 36) 36 }
  { s with cls := (s.cls.outside (300 + q * 36) 36).map fun p => (p.1, if on p.1 then p.2.afterReset else p.2) }

/-- The four links of a group and their modules' pages stop; their states return to reset (R429). The module's laser-on time goes to
the life log, and the module is found again as inserted (log 42). -/
def State.stopGroup (s : State) (g : Nat) : State :=
  [0, 1, 2, 3].foldl (fun s k =>
    let l := 4 * g + k
    let s := (s.linkDisabled l).keepModule l
    s.setLink l { left := (s.linkOf l).left, since := s.time.clk }) s

/-- The edge tile E1's reset begins, link groups 6 to 11 with it: the tasks of the tile and of the graphs homed there run again
once it returns (R150). -/
def State.stopTile1 (s : State) : State :=
  let homed := (s.placedTasks fun _ => true).filter fun x => match s.itemOf x.1 with
    | some it => it.home == 5
    | none => false
  let s := homed.foldl (fun s x => s.rerunTask x.1 x.2 false none) s
  let s := s.rerunWhere (fun x => x.standsOn 2 (fun k => decide (136 ≤ k)) || x.standsOn 3 (fun k => k == 1)) (fun _ => false)
  let s := { s with dsp := s.dsp.map fun (p : Nat × DspCore) => (p.1, if p.1 < 136 then p.2 else p.2.afterReset),
                    acc := Tbl.upd {} s.acc 1 AccSt.afterReset, eth := s.eth.outside 8 8, seqs := Tbl.del s.seqs 145 }
  [6, 7, 8, 9, 10, 11].foldl State.stopGroup s

/-- A channel controller's own state returns to reset; the repairs made and the patrol's count stay. -/
def HbmCh.afterReset (h : HbmCh) : HbmCh := { used := h.used, scrub := h.scrub }

/-- A stack's reset begins. -/
def State.stopStack (s : State) (m : Nat) : State :=
  { s with hc := s.hc.map fun p => (p.1, if p.1 / 32 = m then p.2.afterReset else p.2),
           wb := s.wb.filter fun l => decide (hbmInst (64 * l) / 32 ≠ m) }

/-- The domain of a unit reset's page number. -/
def pageNoDomain (p : Nat) : Nat :=
  match pageOf (p * 4096) with
  | some (x, _) => pageDomain x.kind x.inst
  | none => 26

/-- A domain reset begins (R429); it takes over the unit resets of its units (R430). -/
def State.startDom (s : State) (d : Nat) : State :=
  let s := { s with rst := { s.rst with doms := addSorted d s.rst.doms,
                                        units := s.rst.units.filter fun u => decide (pageNoDomain (u / 16) ≠ d) } }
  let s := if d < 6 then s.stopBringIns fun x => x == d else s
  if d < 4 then s.stopQuarter d
  else if d = 5 then s.stopTile1
  else if d < 14 then s.stopStack (d - 6)
  else s.stopGroup (d - 14)

/-- Whether a domain reset waits for one of a stack or of the stack's quarter (R430). -/
def State.domMustWait (s : State) (d : Nat) : Bool :=
  if d < 4 then s.rst.doms.contains (6 + 2 * d) || s.rst.doms.contains (7 + 2 * d)
  else 6 ≤ d && d < 14 && s.rst.doms.contains ((d - 6) / 2)

/-- A warm reset begins (R429, R431): everything in progress stops; CUED and PLAYING tasks wait for the replay, and the
completions that have reached their homes stay (R140). -/
def State.startWarm (s : State) (cause : Nat) : State :=
  let s := s.acceptReset.setPr .pwr 0 0x074 (setFld (s.pr .pwr 0 0x074) 4 4 cause)
  let s := s.stopBringIns fun _ => true
  let s := (s.placedTasks fun _ => true).foldl (fun s x => s.vacate x.1 x.2) s
  let s := { s with
    rst := { s.rst with warm := true, doms := [], units := [], domWait := [] },
    cls := (s.cls.outside 300 144).map fun (p : Nat × Cluster) => (p.1, p.2.afterReset),
    seqs := [], sh := {}, dsp := s.dsp.map fun (p : Nat × DspCore) => (p.1, p.2.afterReset), acc := s.acc.map fun (p : Nat × AccSt) => (p.1, p.2.afterReset), eth := [], hc := s.hc.map fun (p : Nat × HbmCh) => (p.1, p.2.afterReset), wb := [] }
  { s with
    work := { s.work with bookWait := false },
    ro := { s.ro with claims := [], overrun := [], copying := false, commitReq := false },
    fab := { s.fab with reads := [], landed := [], fences := [],
                        src := s.fab.src.map fun (p : Nat × PairSrc) =>
                          (p.1, { p.2 with unacked := p.2.unacked.map fun (u : Unacked) => { u with origin := none } }) },
    time := { s.time with copies := [] },
    und := {}, flt := { s.flt with inMin := false, trips := [], score := [] }, pwr := {},
    hst := { s.hst with ide := [], ats := [],
                        fns := s.hst.fns.map fun (p : Nat × Fn) => (p.1, { p.2 with mb := { tm := p.2.mb.tm, tt := p.2.mb.tt } }) },
    sec := { s.sec with staging := false, spdmStage := 0, sessions := [], tap := .idcode }, latch := [], staged := [] }

/-- A warm reset requested (R430): absorbed inside a cold or a warm one. -/
def State.requestWarm (s : State) (cause : Nat) : State := if s.bigReset then s.refuseReset 1 0 else s.startWarm cause

/-- A domain reset requested (R429, R430): E0's is a warm reset. -/
def State.requestDom (s : State) (d : Nat) : State :=
  if 26 ≤ d ∨ s.bigReset ∨ s.rst.doms.contains d ∨ s.rst.domWait.contains d ∨ (20 ≤ d ∧ s.rst.doms.contains 5) then
    s.refuseReset 2 (d % 32)
  else if d = 4 then s.startWarm 3
  else if s.domMustWait d then
    { s.acceptReset with rst := { s.acceptReset.rst with domWait := addSorted d s.rst.domWait } }
  else s.acceptReset.startDom d

end Sys2Proof.Machine
end

