-- ==== Sys2Proof/Machine/Retire.lean ====
section
/-! DEFINITION. Retirement and bring-in (R24, R25, R88), domains in fault state (R402), the health evaluation (R407 to
R409), and the settling of a command's automatic actions. -/

namespace Sys2Proof.Machine

/-! ## Retirement -/

/-- The page of a unit of the map, for records. -/
def unitPage (cls i : Nat) : Page :=
  if cls = clsCluster then pageAt .clus i
  else if cls = clsUnit then pageAt .clus (i / 13)
  else if cls = clsVoice then pageAt .clus (i / 33 / 13)
  else if cls = clsDsp then pageAt .rdsp i
  else if cls = clsEngine then
    (let k := i % 84
     if k < 24 then pageAt .fft (i / 84) else if k < 72 then pageAt .ldpc (i / 84)
     else if k < 80 then pageAt .polar (i / 84) else pageAt .chirp (i / 84))
  else pageAt .ldpc (i / 8)

/-- Whether a chorus unit is within a beat, a spill, a restore or a readout of the task placed on its cluster (R88). -/
def ChorusUnit.busy (u : ChorusUnit) : Bool :=
  u.cur.isSome || u.part || u.restoring || (u.readout.any fun r => !r.2.2.away) || u.pipe.any fun e => e.cmd.all (!·.away)

/-- Whether a chorus unit still reads out or spills a tile of a preempted task that has left the cluster (R88, R117). -/
def ChorusUnit.busyAway (u : ChorusUnit) : Bool :=
  u.spilling.isSome || (u.readout.any fun r => r.2.2.away) || u.pipe.any fun e => e.cmd.any (·.away)

/-- The READY tasks whose saved context a chorus unit holds are re-run from their start (R88). -/
def State.loseCtx (s : State) (k : Nat) (us : List Nat) (avoid : Option Nat) : State :=
  us.foldl (fun s u => match (s.cuOf k u).ctx with
    | some (i, t) => s.rerunTask i t true avoid
    | none => s) s

/-- Engine class (R232) and index in it of accelerator engine k of a tile, or of a CRC engine. -/
def engineOf (cls i : Nat) : Nat × Nat × Nat :=
  if cls = clsEngine then
    (let k := i % 84
     let e := i / 84
     if k < 24 then (e, 0, k) else if k < 56 then (e, 1, k - 24) else if k < 72 then (e, 2, k - 56)
     else if k < 80 then (e, 3, k - 72) else (e, 5, k - 80))
  else (i / 8, 4, i % 8)

/-- What a retirement does to the work on the unit (R88, R139, R150). A chorus unit's or voice's task runs again on another
cluster; an engine's needs no unit to avoid, since a RETIRED engine is never in service again. -/
def State.evict (s : State) (cls i : Nat) : State :=
  if cls = clsCluster then
    let s := match (s.clOf i).placed with
      | some (a, t) => s.rerunTask a t true (some i)
      | none => s
    let s := match (s.clOf (300 + i)).placed with
      | some (a, t) => s.rerunTask a t true (some i)
      | none => s
    let s := s.loseCtx i (List.range 12) (some i)
    s.setCl i { s.clOf i with units := [] }
  else if cls = clsUnit ∨ cls = clsVoice then
    let cu := if cls = clsUnit then i else i / 33
    let k := cu / 13
    match least (fun u => s.curMap.cu k u == cu % 13) 12 with
    | none => s
    | some u =>
      let un := s.cuOf k u
      let s := match (s.clOf k).placed with
        | some (a, t) => if un.busy || un.leaving == some (a, t) then s.rerunTask a t true (some k) else s
        | none => s
      let s := match (s.clOf (300 + k)).placed with
        | some (a, t) => if un.busyAway then s.rerunTask a t true (some k) else s
        | none => s
      let s := s.loseCtx k [u] (some k)
      s.setCu k u { fifo := (s.cuOf k u).fifo }
  else if cls = clsDsp then
    match (s.placedTasks fun x => x.ty == 2 && match x.place with
      | some (_, k) => k == i
      | none => false) with
    | (a, t) :: _ => s.rerunTask a t true (some i)
    | [] => s
  else
    let (e, c, n) := engineOf cls i
    -- the partition that the engine last served has one engine less (R238)
    let s := { s with acc := Tbl.upd {} s.acc e fun a => match Tbl.look a.lastOn (c * 64 + n) with
      | some p => { a with lost := Tbl.upd 0 a.lost (p * 8 + c) (· + 1) }
      | none => a }
    match Tbl.look (Tbl.get {} s.acc e).run (c * 64 + n) with
    | some j =>
      let s := { s with acc := Tbl.upd {} s.acc e fun a => { a with run := Tbl.del a.run (c * 64 + n) } }
      s.rerunTask j.item j.task true none
    | none => s

/-- Retire a unit (R24, R25): its map state, record and work; a spare in its scope waits to stand in for it, else the
escalation of R25 goes on. `fuel` counts the levels from voice to cluster. -/
def State.retireUnit (s : State) (cls i : Nat) : Nat → State
  | 0 => s
  | fuel + 1 =>
    if s.unitSt cls i ≠ .active then s
    else
      let v := s.sec.variant
      let m := s.curMap
      let pos := m.posOf v cls i
      let s := s.evict cls i
      let m := m.setSt v cls i .retired
      let m := match pos with
        | some p => m.setLog v cls p (absentCode cls)
        | none => m
      let s := s.withMap m
      let s := s.logEvent (unitPage cls i) 0 4 0 0 (cls + 256 * i + 2 ^ 32 * pos.getD 0xFFFF)
      if cls = clsEngine ∨ cls = clsCrc then s
      else if (s.curMap.spareFor v cls i).isSome then
        match pos with
        | some p => { s with map := { s.map with waiting := s.map.waiting ++ [(cls, i, p)] } }
        | none => s
      else if cls = clsVoice then s.retireUnit clsUnit (i / 33) fuel
      else if cls = clsUnit then s.retireUnit clsCluster (i / 13) fuel
      else s

/-- Retire a unit whatever its class. -/
def State.retire (s : State) (cls i : Nat) : State := s.retireUnit cls i 4

/-! ## Bring-in (R24, R473) -/

/-- Light a spare and wipe its storage; the unit reset of a bring-in counts (R429). -/
def State.lightSpare (s : State) (cls i : Nat) : State :=
  let s := s.bump .pwr 0 0x080 1
  if cls = clsCluster then (s.setCl i { s.clOf i with pwr := .lit }).csZero i 0 csSize
  else if cls = clsDsp then
    let s := s.dspZero (i * 0x80000) 0x80000
    { s with pwr := { s.pwr with dark := Tbl.set false s.pwr.dark (i / 136 * 17 + i % 136 / 8) false } }
  else s

/-- The waiting retirement of a die with the lowest physical index. Between classes, whose indices count different units, the
manual gives no order: the flattened index within the class decides, and of equal ones the older (DESIGN CHOICE, log 56). -/
def nextWaiting (l : List (Nat × Nat × Nat)) (die : Nat) : Option (Nat × Nat × Nat) :=
  (l.filter fun x => unitDie x.1 x.2.1 == die).foldl (fun b x => match b with
    | none => some x
    | some y => if x.2.1 < y.2.1 then some x else some y) none

/-- What a retirement without a spare leads to (R25). -/
def State.escalate (s : State) (cls i : Nat) : State :=
  if cls = clsVoice then s.retire clsUnit (i / 33) else if cls = clsUnit then s.retire clsCluster (i / 13) else s

/-- Start an attempt of a bring-in of a die: the lowest-indexed spare in scope is lit and wiped. `none` without one. -/
def State.tryBringIn (s : State) (die cls i pos : Nat) : Option State :=
  (s.curMap.spareFor s.sec.variant cls i).map fun sp =>
    ({ s with map := { s.map with
        running := Tbl.put s.map.running die { cls := cls, unit := i, pos := pos, spare := sp } } } : State).lightSpare cls sp

/-- Start the next bring-in of a die, unless one runs; a waiting retirement that has lost its last spare escalates (R25), and
the next one is taken. `fuel` bounds the waiting ones. -/
def State.nextBringIn (s : State) (die : Nat) : Nat → State
  | 0 => s
  | fuel + 1 =>
    if (Tbl.look s.map.running die).isSome then s
    else match nextWaiting s.map.waiting die with
      | none => s
      | some w =>
        let s := { s with map := { s.map with waiting := dropFirst w s.map.waiting } }
        (s.tryBringIn die w.1 w.2.1 w.2.2).getD ((s.escalate w.1 w.2.1).nextBringIn die fuel)

/-- Start the next bring-in of a die. An escalation adds at most one waiting retirement for the one it takes away. -/
def State.startBringIn (s : State) (die : Nat) : State := s.nextBringIn die (3 * s.map.waiting.length + 1)

/-- `PG_ERR_INFO` of 0x2804: a self-test names no byte and no memory, so the two fields are free and the rest 0 (R231,
log 9). -/
def testInfo (w : Word) : Word := w &&& 0x0007FFFF

/-- The index of a bring-in's spare within its parent, as the logical tables hold it. -/
def spareIdx (b : BringIn) : Nat :=
  if b.cls = clsCluster then b.spare % 36 else if b.cls = clsUnit then b.spare % 13
  else if b.cls = clsVoice then b.spare % 33 else b.spare % 136

/-- A spare's self-test ends: it takes the logical position as it is, commands queued for it included (R23), or is retired and
the same bring-in tries the next spare; without one the retirement escalates. -/
def State.endBringIn (s : State) (die : Nat) (pass : Bool) : State :=
  match Tbl.look s.map.running die with
  | none => s
  | some b =>
    let v := s.sec.variant
    if pass then
      let m := (s.curMap.setSt v b.cls b.spare .active).setLog v b.cls b.pos (spareIdx b)
      let s := { s with map := { s.map with running := Tbl.del s.map.running die } }
      let s := s.withMap m
      let s := s.logEvent (unitPage b.cls b.spare) 0 5 0 0 (b.cls + 256 * b.spare + 2 ^ 32 * b.pos)
      s.startBringIn die
    else
      let s := s.withMap (s.curMap.setSt v b.cls b.spare .retired)
      let s := s.logEvent (unitPage b.cls b.spare) 0 4 0 0 (b.cls + 256 * b.spare + 2 ^ 32 * 0xFFFF)
      let s := if b.cls = clsDsp then
          ({ s with free := s.free + 1 } : State).raise (unitPage b.cls b.spare) 4 (testInfo (Config.freeWord s.free))
        else s.raise (unitPage b.cls b.spare) 7 (BitVec.ofNat 32
          ((if b.cls = clsUnit then b.spare % 13 else if b.cls = clsVoice then b.spare / 33 % 13 else 0xF)
            + 16 * (if b.cls = clsVoice then b.spare % 33 else 0x3F) + 0x3F * 1024))
      let s := { s with map := { s.map with running := Tbl.del s.map.running die } }
      (s.tryBringIn die b.cls b.unit b.pos).getD ((s.escalate b.cls b.unit).startBringIn die)

/-! ## Domains (R402) -/

/-- A domain enters fault state: its bit, HOLD, source 0x0202 without an action of its own, and the four links of a link
group DISABLED; with AUTO_DOM its reset (R429). -/
def State.domEnter (s : State) (d : Nat) : State :=
  if s.domFault d then s
  else
    let s := (s.setPr .fault 0 0x048 (setFld (s.pr .fault 0 0x048) d 1 1)).hold
    let s := (s.raise0 (pageAt .fault 0) 2 (BitVec.ofNat 32 d)).1
    let s := if 14 ≤ d ∧ d < 26 then [0, 1, 2, 3].foldl (fun s k => s.linkDisabled ((d - 14) * 4 + k)) s else s
    if fld (s.pr .pwr 0 0x040) 1 1 = 1 then s.requestDom d else s

/-! ## Health (R407 to R409) -/

/-- Times within 24 hours of the power-on clock in ns. -/
def recentDay (clk : Nat) (l : List Nat) : Nat := (l.filter fun t => decide (clk < t + 86400000000000)).length

/-- The clock island of a unit of a health class (R419). -/
def islandOf (cls i : Nat) : Nat :=
  match cls with
  | 1 => i
  | 2 => 144 + 17 * (i / 136) + i % 136 / 8
  | 3 =>
    let k := i % 84
    178 + 6 * (i / 84) + (if k < 24 then 0 else if k < 56 then 1 else if k < 72 then 2 else if k < 80 then 3 else 5)
  | 4 => 260 + 2 * (i / 32)
  | 5 => 276 + i / 40
  | 6 => 276 + i / 4
  | _ => 178 + 6 * (i / 8) + 4

/-- Least margin of an island in ps; 255 until a sample has been taken. -/
def State.marginOf (s : State) (k : Nat) : Nat := (Tbl.get (255, 255) s.flt.margins k).2

/-- Ageing shift of an island in units of 0.1%, not below 0. -/
def State.ageOf (s : State) (k : Nat) : Nat := (signed 16 (Tbl.get (0, 0) s.flt.ages k).2.toNat / 10).toNat

/-- The score of a unit (R407). -/
def State.scoreOf (s : State) (cls i : Nat) : Nat :=
  let c := recentDay s.time.clk (Tbl.get [] s.flt.events (unitKey cls i))
  let sv := recentDay s.time.clk (Tbl.get [] s.flt.changes (unitKey cls i))
  let isl := islandOf cls i
  1000 - (min 400 (2 * c) + min 600 (150 * sv) + min 300 (25 * (20 - s.marginOf isl)) + min 300 (20 * (s.ageOf isl - 30)))

/-- Units of a health class. -/
def healthUnits (cls : Nat) : Nat :=
  match cls with
  | 1 => 144
  | 2 => 272
  | 3 => 168
  | 4 => 256
  | 5 => 480
  | 6 => 48
  | _ => 16

/-- Map class of a health class. -/
def mapCls (cls : Nat) : Nat := if cls = 1 then clsCluster else if cls = 2 then clsDsp else if cls = 3 then clsEngine else clsCrc

/-- The domain of a unit of a health class. -/
def healthDomain (cls i : Nat) : Nat :=
  match cls with
  | 1 => i / 36
  | 2 => 4 + i / 136
  | 3 => 4 + i / 84
  | 4 => 6 + i / 32
  | 5 => 14 + i / 40
  | 6 => 14 + i / 4
  | _ => 4 + i / 8

/-- Whether a unit counts toward its domain's score (R408). -/
def State.counts (s : State) (cls i : Nat) : Bool :=
  if cls = 4 ∨ cls = 6 then true
  else if cls = 5 then fld (s.laneMap (i / 10)) 10 4 == 0xF
  else s.unitSt (mapCls cls) i == .active && (s.curMap.spareFor s.sec.variant (mapCls cls) i).isNone

/-- Every scored unit. -/
def allHealth : List (Nat × Nat) :=
  [1, 2, 3, 4, 5, 6, 7].flatMap fun c => (List.range (healthUnits c)).map fun i => (c, i)

/-- Scores stored for `HS_DATA`, the chip score and its domain (R408, R415). -/
def State.scores (s : State) : State :=
  let sc := allHealth.map fun u => (u, s.scoreOf u.1 u.2)
  let s := { s with flt := { s.flt with
    score := sc.foldl (fun (t : Tbl Nat) (p : (Nat × Nat) × Nat) => Tbl.set 1000 t (unitKey p.1.1 p.1.2) p.2) [] } }
  let low := sc.foldl (fun (b : Nat × Nat) (p : (Nat × Nat) × Nat) =>
    if p.2 < b.1 ∧ s.counts p.1.1 p.1.2 then (p.2, healthDomain p.1.1 p.1.2) else b) (1000, 0)
  s.setPr .fault 0 0x080 (BitVec.ofNat 32 (low.1 + 65536 * low.2))

/-- Score of a domain (R408). -/
def State.domScore (s : State) (d : Nat) : Nat :=
  minBy 1000 (fun u => if healthDomain u.1 u.2 = d ∧ s.counts u.1 u.2 then Tbl.get 1000 s.flt.score (unitKey u.1 u.2) else 1000)
    allHealth

/-- Act on a unit below HS_QUAR (R407). -/
def State.healthAct (s : State) (cls i : Nat) : State :=
  match cls with
  | 1 => s.retire clsCluster i
  | 2 => s.retire clsDsp i
  | 3 => s.retire clsEngine i
  | 5 => s.spareLane (i / 10) (i % 10)
  | 6 => (s.setPr .glink i 0x040 (setFld (s.pr .glink i 0x040) 0 1 0)).linkDisabled i
  | 7 => s.retire clsCrc i
  | _ => s

/-- Whether the action of a unit is still to be taken; a lane that works is spared while a spare is left (R341, R342). -/
def State.canAct (s : State) (cls i : Nat) : Bool :=
  match cls with
  | 4 => false
  | 5 => fld (s.laneMap (i / 10)) (i % 10) 1 == 1 && decide (fld (s.laneMap (i / 10)) 10 4 < 10)
  | 6 => fld (s.pr .glink i 0x040) 0 1 == 1
  | _ => s.unitSt (mapCls cls) i == .active

/-- Actions of the window (R409): those whose age is below `EXP_WIN` minutes. -/
def State.expUsed (s : State) : Nat :=
  let w := fld (s.pr .fault 0 0x078) 0 16 * 60000000000
  (s.flt.actions.filter fun t => decide (s.time.clk < t + w)).length

/-- Insert by ascending score, then class, then unit. -/
def insertProposal (p : Nat × Nat × Nat) : List (Nat × Nat × Nat) → List (Nat × Nat × Nat)
  | [] => [p]
  | x :: t =>
    if p.1 < x.1 ∨ (p.1 = x.1 ∧ (p.2.1 < x.2.1 ∨ (p.2.1 = x.2.1 ∧ p.2.2 < x.2.2))) then p :: x :: t
    else x :: insertProposal p t

/-- Take or refuse one proposal (R409); class 0 is the expulsion advisory. -/
def State.propose (s : State) (p : Nat × Nat × Nat) : State :=
  let cls := p.2.1
  let u := p.2.2
  if s.expUsed < fld (s.pr .fault 0 0x074) 0 8 then
    let s := { s with flt := { s.flt with actions := s.flt.actions ++ [s.time.clk], exhausted := false } }
    if cls = 0 then
      let s := s.raise (pageAt .fault 0) 10 (BitVec.ofNat 32 (fld (s.pr .fault 0 0x080) 16 5))
      (s.logEvent (pageAt .fault 0) 0x020A 0x0A 2 0 0).alert 2
    else
      let s := { s with flt := { s.flt with acted := Tbl.set false s.flt.acted (unitKey cls u) true,
                                            watch := Tbl.set false s.flt.watch (unitKey cls u) false } }
      let s := s.healthAct cls u
      let info := BitVec.ofNat 32 (healthDomain cls u + cls * 2 ^ 24)
      let s := s.raise (pageAt .fault 0) 8 info
      (s.logEvent (pageAt .fault 0) 0x0208 0x0A 0 info (cls + 256 * u)).alert 0
  else
    let s := if cls = 0 then s
      else { s with flt := { s.flt with watch := Tbl.set false s.flt.watch (unitKey cls u) true } }
    if s.flt.exhausted then s
    else
      let s := { s with flt := { s.flt with exhausted := true } }
      let s := s.raise (pageAt .fault 0) 9 (BitVec.ofNat 32
        ((if cls = 0 then fld (s.pr .fault 0 0x080) 16 5 else healthDomain cls u) + cls * 2 ^ 24))
      (s.logEvent (pageAt .fault 0) 0x0209 0x0B 2 0 0).alert 1

/-- A health evaluation (R407 to R409): scores, and then the proposals in ascending score, class and unit. -/
def State.evaluate (s : State) : State :=
  let s := s.scores
  let quar := fld (s.pr .fault 0 0x070) 0 10
  let expel := fld (s.pr .fault 0 0x070) 16 10
  let props := s.flt.score.foldl (fun l p =>
    let cls := p.1 / 65536
    let u := p.1 % 65536
    if p.2 < quar ∧ s.canAct cls u then insertProposal (p.2, cls, u) l else l) []
  let chip := fld (s.pr .fault 0 0x080) 0 10
  let props := if chip < expel then insertProposal (chip, 0, 0) props else props
  props.foldl State.propose s

/-! ## Automatic actions -/

/-- The unit of the map that a FATAL event of a page names: its class and index (R92, R229, R267, R398). -/
def fatalUnit (p : Page) (info : Word) : Option (Nat × Nat) :=
  match p.kind with
  | .clus =>
    if fld info 0 4 < 13 then
      (if fld info 4 6 < 33 then some (clsVoice, (p.inst * 13 + fld info 0 4) * 33 + fld info 4 6)
       else some (clsUnit, p.inst * 13 + fld info 0 4))
    else some (clsCluster, p.inst)
  | .rdsp => some (clsDsp, p.inst)
  | .fft | .ldpc | .polar | .chirp =>
    match unitOfSource p 1 info with
    | some (3, u, _) => some (clsEngine, u)
    | some (7, u, _) => some (clsCrc, u)
    | _ => none
  | _ => none

/-- Take one automatic action (R398, R407). -/
def State.act (s : State) (a : DueAct) : State :=
  match a with
  | .evaluate => s.evaluate
  | .fatal base _ info =>
    match pageOf base with
    | none => s
    | some (p, _) =>
      match fatalUnit p info with
      | some (c, i) => s.retire c i
      | none => s.domEnter (pageDomain p.kind p.inst)

/-- Take the automatic actions that events have called for, and those that these call for in turn. -/
def State.settleLoop (s : State) : Nat → State
  | 0 => s
  | fuel + 1 =>
    match s.flt.due with
    | [] => s
    | a :: rest => State.settleLoop (State.act { s with flt := { s.flt with due := rest } } a) fuel

/-- Settle a command: its automatic actions are taken. -/
def State.settle (s : State) : State :=
  let s := s.settleLoop 64
  { s with flt := { s.flt with due := [] } }

/-- The end of a command that ran in `s` and led to `t`: the automatic actions of its events are taken, and the queue is not
the command's to change. -/
def State.finish (s t : State) : State := { t.settle with pending := s.pending }

/-- A command's effect, then the automatic actions of its events. -/
def performRaw (s : State) (f : State → State) : Host.Outcome State Fault Refusal := .next (s.finish (f s))

/-- Whether the device runs: its always-on supply is up, no cold reset holds it and no thermal trip has stopped its clocks
(R405, R429). -/
def State.awake (s : State) : Bool := s.rst.aonOk && !s.rst.cold && !s.flt.thermTrip

/-- A command's effect on a running device; while a cold reset or a thermal trip holds the device there is none (log 1). -/
def perform (s : State) (f : State → State) : Host.Outcome State Fault Refusal :=
  performRaw s fun s => if s.awake then f s else s

end Sys2Proof.Machine
end

