-- ==== Sys2Proof/Machine/Streams.lean ====
section
/-! DEFINITION. Command streams (R93 to R103, R110, R116, R117): the descriptors and their checks, the sequencer's walk
through loop nests, tokens, and the control descriptors. -/

namespace Sys2Proof.Machine

/-! ## Descriptors (R94 to R111) -/

/-- `n` bytes at byte `off` of a descriptor held as one little-endian number. -/
def db (raw off n : Nat) : Nat := bits raw (8 * off) (8 * n)

/-- Lines of the descriptor of a CLASS × 16 + OP code (R95). -/
def descLines (key : Nat) : Option Nat :=
  match key with
  | 0x00 | 0x02 | 0x03 | 0x05 | 0x06 | 0x20 | 0x21 | 0x22 | 0x50 => some 1
  | 0x04 | 0x10 | 0x30 | 0x31 | 0x32 | 0x33 => some 2
  | 0x01 | 0x11 => some 5
  | _ => none

/-- The fields of a descriptor beyond its header: byte, lowest bit, width (R98 to R110). -/
def descFields (key : Nat) : List (Nat × Nat × Nat) :=
  match key with
  | 0x00 => [(16, 0, 1), (20, 0, 96), (32, 0, 12)]
  | 0x01 => [(16, 0, 8), (17, 0, 8), (18, 0, 6), (19, 0, 8), (20, 0, 192), (64, 0, 2048)]
  | 0x02 => [(16, 0, 3), (17, 0, 1), (20, 0, 32)]
  | 0x03 => [(16, 0, 3), (17, 0, 8), (20, 0, 32)]
  | 0x04 => [(16, 0, 16), (18, 0, 1), (20, 0, 64), (64, 0, 512)]
  | 0x10 => [(16, 0, 7), (17, 0, 7), (18, 0, 4), (20, 0, 16), (24, 0, 224), (64, 0, 288)]
  | 0x11 => [(16, 0, 7), (17, 0, 7), (18, 0, 4), (20, 0, 16), (24, 0, 224), (64, 0, 288), (128, 0, 288), (192, 0, 288),
             (256, 0, 288)]
  | 0x20 | 0x21 | 0x22 => [(16, 0, 8), (17, 0, 8), (18, 0, 1), (20, 0, 224)]
  | 0x30 | 0x31 | 0x32 | 0x33 => [(16, 0, 2), (17, 0, 7), (18, 0, 8), (19, 0, 2), (20, 0, 192), (48, 0, 64), (64, 0, 320)]
  | 0x50 => [(16, 0, 8), (17, 0, 1), (20, 0, 160)]
  | _ => []

/-- The header's fields that are not reserved (R94). -/
def headerFields : List (Nat × Nat × Nat) := [(0, 0, 8), (1, 0, 4), (2, 0, 48), (8, 0, 5), (9, 0, 5)]

/-- Mask of fields. -/
def fieldMask (l : List (Nat × Nat × Nat)) : Nat := l.foldl (fun m f => m ||| (2 ^ f.2.2 - 1) * 2 ^ (8 * f.1 + f.2.1)) 0

/-- Whether a reserved bit of the first `n` lines of a descriptor is set (cause 0x02). -/
def reservedSet (key n raw : Nat) : Bool :=
  let m := fieldMask (headerFields ++ descFields key) % 2 ^ (512 * n)
  raw % 2 ^ (512 * n) != raw % 2 ^ (512 * n) &&& m

/-- Operand fields that a stream reference may replace: byte, 64-bit, cluster-store offset (R96, R103 to R110). -/
def refFields (key : Nat) : List (Nat × Bool × Bool) :=
  match key with
  | 0x02 | 0x03 => [(20, false, true)]
  | 0x04 => (List.range 8).map fun i => (64 + 8 * i, true, false)
  | 0x10 | 0x11 => (List.range 9).map fun i => (64 + 4 * i, false, true)
  | 0x20 | 0x21 | 0x22 => [(24, false, true), (28, false, true), (32, false, true), (36, false, true)]
  | 0x30 | 0x31 | 0x32 | 0x33 =>
    [(32, false, true), (36, false, true), (40, false, true), (64, true, false), (72, true, false), (80, true, false)]
  | 0x50 => [(24, true, false)]
  | _ => []

/-- Whether every stream reference of a descriptor has its zero bits zero. An SREF bit beyond the descriptor's operand fields
counts as a reserved bit that is set (DESIGN CHOICE, log 57). -/
def refsOk (key raw : Nat) : Bool :=
  let sref := db raw 2 2
  decide (sref < 2 ^ (refFields key).length) && (refFields key).zipIdx.all fun p =>
    !bit sref p.2 || (let groups := if key = 0x11 then [0, 64, 128, 192] else [0]
                      groups.all fun g => if p.1.2.1 then db raw p.1.1 8 / 8 % 2 ^ 13 == 0 else db raw (p.1.1 + g) 4 / 8 % 2 ^ 5 == 0)

/-- K-steps of an issue (R68). -/
def kPerIssue (a b : Nat) : Nat :=
  if [9, 14].contains a && [9, 14].contains b then 4 else if isNarrow a && isNarrow b then 2 else 1

/-- Whether a chorus command accepts an operand pairing (R69). -/
def pairingOk (a b : Nat) (pairs : Bool) : Bool :=
  if pairs then a == 0 && b == 0
  else (isNarrow a && isNarrow b) || (isHalf a && isHalf b) || (a == 0 && b == 0)

/-- Whether a VOPC and DTYPE are a pair of R107. -/
def vopOk (key vopc dt : Nat) : Bool :=
  decide (dt ≤ 2) &&
    (if key = 0x22 then vopc == 0
     else if key = 0x21 then decide (0x30 ≤ vopc) && decide (vopc ≤ 0x33)
     else decide (vopc ≤ 9) || (decide (0x10 ≤ vopc) && decide (vopc ≤ 0x18) && (dt == 0 || (vopc == 0x11 && dt == 1)))
       || (vopc == 0x19 && dt == 1) || (decide (0x20 ≤ vopc) && decide (vopc ≤ 0x25) && dt == 2))

/-- The resident routines (R111). -/
def routines : List Nat := [1, 2, 3, 4, 0x10, 0x11, 0x12, 0x13, 0x14, 0x15, 0x20, 0x21, 0x22, 0x30]

/-- Value of a stream, and its value with every loop index 0 (R49, R101). -/
def StreamPt.addr (p : StreamPt) (i : Nat) : Nat :=
  match p.nest with
  | none => nth 0 p.base i
  | some n =>
    let a := (List.range n.levels).foldl (fun (a : Int) m => a + nth 0 p.idx m * (nth 0 p.inc (6 * i + m)).toInt)
      (nth 0 p.base i)
    (a % (2 ^ 64 : Nat)).toNat

/-- Operand field `i` of a descriptor, group at byte `g`: its address and its output origin (R49, R96). -/
def StreamPt.operand (p : StreamPt) (key raw i g : Nat) : Nat × Nat :=
  match (refFields key)[i]? with
  | none => (0, 0)
  | some (off, wide, store) =>
    let v := if wide then db raw off 8 else db raw (off + g) 4
    if !bit (db raw 2 2) i then (v, v)
    else
      let d : Int := if wide then signed 48 (v / 2 ^ 16) else signed 24 (v / 2 ^ 8)
      let m : Int := if store then (2 ^ 32 : Nat) else (2 ^ 64 : Nat)
      let at_ := fun (b : Nat) => (((b : Int) + d) % m).toNat
      (at_ (p.addr (v % 8)), if p.nest.isSome then at_ (nth 0 p.base (v % 8)) else at_ (p.addr (v % 8)))

/-- The checks of R116 on a descriptor, beside those of its length and of a LOOP's body: causes with whether they hold,
in ascending order. A BRK whose COND is above 2 has cause 0x02 (DESIGN CHOICE, log 57). A VMAP or VRED, which store their own
type unchanged, neither convert nor accumulate in the sense of R58: like every descriptor that does not, they ignore the
control word (R94; DESIGN CHOICE, log 57). -/
def descChecks (sq : Nat) (q : Seq) (key raw : Nat) : List (Nat × Bool) :=
  let n := (descLines key).getD 1
  let ncw := db raw 4 4
  let conv := [0x10, 0x11, 0x22, 0x30, 0x31].contains key
  let mma := key == 0x10 || key == 0x11
  let mover := key == 0x30 || key == 0x31
  let aopc := db raw 18 1
  let fmtA := bits (db raw 16 1) 0 4
  let contA := bits (db raw 16 1) 4 3
  let fmtB := bits (db raw 17 1) 0 4
  let contB := bits (db raw 17 1) 4 3
  let w := ncwOf ncw
  let c02 := reservedSet key n raw || !refsOk key raw
    || (key == 0x03 && decide (2 < db raw 17 1))
    || (key == 0x32 && (decide (10 < aopc) || (aopc == 8 && bit (db raw 19 1) 0)))
    || (key == 0x50 && (db raw 16 1 == 0 || decide (6 < db raw 16 1)))
  let c04 := (conv && !ncwOk ncw) || (mma && !(pairOk fmtA contA && pairOk fmtB contB)) || (mover && !pairOk fmtB contB)
  let k := db raw 24 4
  let blockBad := fun (c x : Nat) => decide (c ≠ 0) && decide (x % contN c ≠ 0)
  let c06 := (mma && (k == 0 || decide (2 ^ 24 < k) || decide (k % kPerIssue fmtA fmtB ≠ 0) || blockBad contA k
      || blockBad contB k || (key == 0x11 && decide (w.cont ≠ 0) && contN w.cont == 32)))
    || (mover && (blockBad contB (db raw 24 4) || blockBad w.cont (db raw 24 4)))
  let units := db raw 20 2
  let lvl := bits (db raw 16 1) 0 3
  let c09 := (key == 0x02 && decide (5 < lvl)) || (key == 0x03 && match q.pt.nest with
    | none => true
    | some m => decide (m.levels ≤ lvl))
  let rt := db raw 16 2
  let algo := db raw 24 4
  let red := rt == 0x10 || rt == 0x11
  let arg := fun i => (q.pt.operand key raw i 0).1
  let adlibOp := (key == 0x32 && aopc == 8)
    || (key == 0x04 && (rt == 0x21 || rt == 0x22 || (red && algo == 1 && arg 3 == 0 && (arg 2 == 0 || arg 2 == 3))))
  let mark := bit raw 11
  let accel := decide (144 ≤ sq)
  [(0x02, c02), (0x03, decide (bits raw 8 3 + 1 ≠ n)), (0x04, c04), (0x05, mma && !pairingOk fmtA fmtB w.pairs), (0x06, c06),
   (0x07, mma && (units == 0 || decide (4096 ≤ units))),
   (0x08, key == 0x01 && (db raw 16 1 == 0 || decide (6 < db raw 16 1) || db raw 17 1 == 0 || decide (32 < db raw 17 1)
      || q.pt.nest.isSome)),
   (0x08, q.pt.nest.isSome && (key == 0x00 || key == 0x06)),
   (0x09, c09), (0x0A, adlibOp && !mark), (0x0B, mark && !q.adlib), (0x0C, mark && q.script),
   (0x0D, key == 0x04 && (!routines.contains rt || decide ((if red then 1 else 0) < algo))),
   (0x0E, if accel then decide (0x10 ≤ key) && key != 0x50 else key == 0x50),
   (0x0F, (key == 0x20 || key == 0x21 || key == 0x22) && !vopOk key (db raw 16 1) (db raw 17 1))]

/-! ## Tokens and completion (R97, R117) -/

/-- WAIT and SIG of a descriptor. -/
def waitOf (raw : Nat) : Option Nat := if bit raw 68 then some (bits raw 64 4) else none
def sigOf (raw : Nat) : Option Nat := if bit raw 76 then some (bits raw 72 4) else none

/-- Apply a WAIT decrement and a SIG increment; a token saturates at 65,535. -/
def applyTok (l : List Int) (wait sig : Option Nat) : List Int :=
  let l := match wait with
    | some t => l.set t (nth 0 l t - 1)
    | none => l
  match sig with
  | some t => l.set t (min 65535 (nth 0 l t + 1))
  | none => l

/-- Advance the lowest incomplete index over completed descriptors. -/
def Seq.advance (q : Seq) : List XHist → Seq
  | [] => { q with hist := [] }
  | h :: t => if h.done then Seq.advance { q with low := q.low + 1, lowTok := applyTok q.lowTok h.wait h.sig } t
              else { q with hist := h :: t }

/-- An expanded descriptor completes: its SIG, and the lowest incomplete index. -/
def Seq.done (q : Seq) (x : Nat) (signal : Bool) : Seq :=
  let sig := if signal then ((q.hist.find? fun h => h.x == x).bind (·.sig)) else none
  let q := { q with tok := applyTok q.tok none sig }
  Seq.advance q (q.hist.map fun h => if h.x = x then { h with done := true } else h)

/-- A descriptor takes the next expanded index at the sequencer's current point; `rank` of its copies went before. -/
def Seq.index (q : Seq) (wait sig : Option Nat) (rank : Nat) : Seq :=
  { q with nextX := q.nextX + 1,
           hist := q.hist ++ [{ x := q.nextX, pt := q.pt, wait := wait, sig := sig, done := false, rank := rank }] }

/-- Whether a token holds at least 1. -/
def Seq.ready (q : Seq) (wait : Option Nat) : Bool :=
  match wait with
  | some t => decide (1 ≤ nth 0 q.tok t)
  | none => true

/-! ## Loop nests (R100 to R103) -/

/-- Enter levels `l` and inward: counts loaded, indices 0; false when one of them has no iteration, which leaves the nest
without any further body. -/
def StreamPt.enter (p : StreamPt) (levels l : Nat) : StreamPt × Bool :=
  let inner := (List.range levels).filter fun m => decide (l ≤ m)
  ({ p with rc := inner.foldl (fun r m => r.set m (nth 0 p.cnt m)) p.rc,
            idx := inner.foldl (fun r m => r.set m 0) p.idx },
   inner.all fun m => nth 0 p.cnt m != 0)

/-- Leave the nest in progress. -/
def StreamPt.leave (p : StreamPt) (n : Nest) : StreamPt := { p with nest := none, line := n.after }

/-- The next iteration of the innermost of the first `l` levels that has one; else the nest ends. -/
def StreamPt.next (p : StreamPt) (n : Nest) : Nat → StreamPt
  | 0 => p.leave n
  | l + 1 =>
    if nth 0 p.idx l + 1 < nth 0 p.rc l then
      let q := { p with idx := p.idx.set l (nth 0 p.idx l + 1) }
      let (q, runs) := q.enter n.levels (l + 1)
      if runs then { q with nest := some { n with pos := 0 }, line := n.line + 5 } else q.leave n
    else p.next n l

/-- Past a descriptor of `n` lines. -/
def StreamPt.past (p : StreamPt) (lines : Nat) : StreamPt :=
  match p.nest with
  | none => { p with line := p.line + lines }
  | some n =>
    if n.pos + 1 < n.body then { p with line := p.line + lines, nest := some { n with pos := n.pos + 1 } }
    else p.next n n.levels

/-- A LOOP descriptor acts (R101). -/
def StreamPt.loop (p : StreamPt) (raw after : Nat) : StreamPt :=
  let keep := db raw 18 1
  let st := db raw 19 1
  let p := { p with
    cnt := (List.range 6).map fun l => if bit keep l then nth 0 p.cnt l else db raw (20 + 4 * l) 4,
    base := (List.range 8).map fun s => if bit st s then db raw (64 + 8 * s) 8 else nth 0 p.base s,
    inc := (List.range 48).map fun k =>
      if bit st (k / 6) then BitVec.ofNat 32 (db raw (128 + 4 * k) 4) else nth 0 p.inc k }
  let n : Nest := { line := p.line, levels := db raw 16 1, body := db raw 17 1, pos := 0, after := after }
  let (p, runs) := p.enter n.levels 0
  if runs then { p with nest := some n, line := p.line + 5 } else p.leave n

/-! ## Ending a stream -/

/-- The heads of the FIFOs of a cluster's vector unit and movers. -/
def Cluster.heads (c : Cluster) : List XDesc := (c.vec :: c.movers.map (·.2)).flatMap (·.take 1)

/-- Whether a descriptor in a FIFO waits for a token that is not there. -/
def Seq.blocked (q : Seq) (d : XDesc) : Bool := !d.started && !q.ready (waitOf d.raw)

/-- The chorus units of a cluster have ended the beats of the task on it: none runs a command, holds a partial tile or
restores one (R76, R117). -/
def Cluster.unitsLanded (c : Cluster) : Bool := c.units.all fun u => u.2.cur.isNone && !u.2.part && !u.2.restoring

/-- Nothing of a stream is left on the chorus units of its cluster: no command, tile, readout or spill. -/
def State.unitsQuiet (s : State) (sq : Nat) : Bool :=
  if sq < 300 then (s.clOf sq).unitsLanded && (s.clOf sq).units.all fun u =>
    u.2.fin.isEmpty && u.2.readout.isEmpty && u.2.spilling.isNone && u.2.pipe.isEmpty
  else (s.clOf (sq - 300)).units.all fun u =>
    u.2.fin.all (!·.away) && (u.2.readout.all fun r => !r.2.2.away) && (u.2.pipe.all fun e => e.cmd.all (!·.away))
      && (u.2.spilling.isNone || u.2.leaving != (s.clOf sq).placed)

/-- A preempted stream is quiet: its movers and vector unit have completed what can start, its calls have returned, and
nothing of it is left on its units. -/
def State.drained (s : State) (sq : Nat) : Bool :=
  let q := s.seqOf sq
  decide (q.calls = 0) && ((s.clOf sq).heads.all q.blocked) && s.unitsQuiet sq

/-- A chorus unit that passes to another owner: the tiles that read out and the bank that spills stay its stream's. -/
def ChorusUnit.handOn (u : ChorusUnit) : ChorusUnit :=
  let away := fun (d : XDesc) => { d with away := true }
  let v := u.keep (fun _ => true) true
  { v with pipe := v.pipe.map (fun e => { e with cmd := e.cmd.map away }), readout := v.readout.map (fun r => (r.1, r.2.1, away r.2.2)),
           fin := v.fin.map away }

/-- The units of a preempted stream pass to the incoming owner, whatever its movers still hold (R117): what is left of the
stream goes on under the record 300 + k. -/
def State.passOn (s : State) (k : Nat) : State :=
  let q := s.seqOf k
  let c := s.clOf k
  match s.taskOf q.item q.task with
  | none => s
  | some x =>
    let s := s.setTask q.item q.task { x with place := x.place.map fun p => (p.1, 300 + k) }
    let s := s.setCl (300 + k) { placed := c.placed, vec := c.vec, movers := c.movers }
    let s := s.setCl k { c with placed := none, idleAt := s.time.clk, vec := [], movers := [], units := c.units.map fun u => (u.1, u.2.handOn) }
    let s := (s.setSeq (300 + k) q).setSeq k q.atRest
    let move := fun (c : Call) => if c.sq = k then { c with sq := 300 + k } else c
    let moveJob := fun (j : Job) => if j.sq = k then { j with sq := 300 + k } else j
    { s with
      sh := { s.sh with
        callq := s.sh.callq.map move,
        threads := s.sh.threads.map fun p => (p.1, { p.2 with call := p.2.call.map move }) },
      acc := s.acc.map fun p => (p.1, { p.2 with
        queue := p.2.queue.map moveJob, run := p.2.run.map fun r => (r.1, moveJob r.2) }) }

/-- The state of a stream as R117 saves it. -/
def Seq.save (q : Seq) : StreamSave :=
  { xidx := q.low, rank := match q.hist with
      | h :: _ => h.rank
      | [] => 0,
    pt := match q.hist with
      | h :: _ => h.pt
      | [] => q.pt,
    tok := q.lowTok, done := (q.hist.filter (·.done)).map (·.x), kdone := q.kdone }

/-- A preempted task returns to READY with its stream state (R117, R135). -/
def State.suspend (s : State) (sq : Nat) : State :=
  let q := s.seqOf sq
  match s.taskOf q.item q.task with
  | none => s
  | some x =>
    let held := (s.clOf (sq % 300)).units.any fun u => u.2.holds q.item q.task
    let s := s.vacate q.item q.task
    let s := s.setTask q.item q.task
      { x with st := .ready, place := none, save := some q.save, ctxAt := if held then some (sq % 300) else none,
               preempted := true }
    match s.itemOf q.item with
    | some it => s.setItem q.item { it with preempted := true }
    | none => s

/-- End a stream whose dispatched work is over: the ending found, END reached, or a preemption that is quiet. A preempted
stream meets a malformed descriptor or a failing line again when it resumes; a call's status of 0x11 it does not. -/
def State.wrapUp (s : State) (sq : Nat) : State :=
  let q := s.seqOf sq
  if !q.running then s
  else if q.curtain then (if (s.clOf sq).unitsLanded then s.finishTask q.item q.task stCurtain 0 0 else s)
  else if q.draining then
    (if s.drained sq then
      (match q.ending with
        | some (st, 0x11, l) => s.notice q.item q.task st 0x11 l
        | _ => if q.ended && q.low == q.nextX then s.notice q.item q.task 0 0 0 else s.suspend sq)
     else if sq < 144 ∧ (s.clOf sq).unitsLanded ∧ (s.clOf (300 + sq)).placed.isNone then s.passOn sq else s)
  else if q.low ≠ q.nextX ∨ q.calls ≠ 0 then s
  else match q.ending with
    | some (st, c, l) => s.notice q.item q.task st c l
    | none => if q.ended then s.notice q.item q.task 0 0 0 else s

/-- Complete an expanded descriptor of a sequencer. -/
def State.doneX (s : State) (sq x : Nat) (signal : Bool) : State :=
  (s.setSeq sq ((s.seqOf sq).done x signal)).wrapUp sq

/-- The sequencer finds an ending: it dispatches nothing further, and what is dispatched completes (R93, R116). A second
ending found meanwhile ends the task at once (log 23). -/
def State.endStreamWith (s : State) (sq st cause line : Nat) : State :=
  let q := s.seqOf sq
  if q.ending.isSome then s.notice q.item q.task st cause line
  else
    let s := s.setSeq sq { q with ending := some (st, cause, line), halted := st == stMalformed,
                                  cause := if st = stMalformed then cause else q.cause }
    let s := if 300 ≤ sq ∧ st = stMalformed then s.setSeq (sq - 300) { s.seqOf (sq - 300) with cause := cause } else s
    s.wrapUp sq

/-- An engine finds that an access of a descriptor failed: the task ends (R96, R319, R351). -/
def State.failX (s : State) (sq st line : Nat) : State :=
  let q := s.seqOf sq
  s.notice q.item q.task st 0 line

/-! ## Fetching (R93) -/

/-- Who a sequencer is to the fabric and memory. -/
def State.sqWho (s : State) (sq : Nat) : Who :=
  let q := s.seqOf sq
  { v := match s.itemOf q.item with
      | some it => it.fn
      | none => 0,
    org := 4000 + sq, x := q.nextX, item := q.item, task := q.task }

/-- What the fetch of a descriptor gives: it, not yet, a fetch that failed, or a cause of R116. -/
inductive Fetched where
  | got (key raw lines : Nat)
  | wait
  | fail (st line : Nat)
  | bad (cause : Nat)
  deriving DecidableEq, Repr

/-- Read a line of a stream. -/
def State.readLine (s : State) (sq line : Nat) : State × Got :=
  s.gRead (s.sqWho sq) ((s.seqOf sq).entry + 64 * line) 64 false

/-- Read `n` lines of a stream from a line on: their bytes, or the first line that waits or fails. -/
def State.readLines (s : State) (sq : Nat) : Nat → Nat → List Byte → State × Fetched × List Byte
  | 0, _, acc => (s, .got 0 0 0, acc)
  | n + 1, line, acc =>
    let (s, r) := s.readLine sq line
    match r with
    | .wait => (s, .wait, acc)
    | .fail st => (s, .fail st line, acc)
    | .ok b => State.readLines s sq n (line + 1) (acc ++ b)

/-- Fetch the descriptor at a line: its code, its bytes as far as the stream has them, and its length in lines. -/
def State.fetchDesc (s : State) (sq line : Nat) : State × Fetched :=
  let q := s.seqOf sq
  if q.lines ≤ line then (s, .bad 0x10)
  else
    let (s, r) := s.readLine sq line
    match r with
    | .wait => (s, .wait)
    | .fail st => (s, .fail st line)
    | .ok b =>
      let raw := leNat b
      let key := bits raw 4 4 * 16 + bits raw 0 4
      match descLines key with
      | none => (s, .bad 0x01)
      | some n =>
        let (s, f, l) := s.readLines sq (min n (q.lines - line) - 1) (line + 1) b
        (s, match f with
          | .got .. => .got key (leNat l) n
          | f => f)

/-- What the scan of a LOOP's body finds: the line after it, or what keeps it from being found. -/
def State.scanBody (s : State) (sq : Nat) : Nat → Nat → State × Fetched
  | 0, line => (s, if (s.seqOf sq).lines < line then .bad 0x08 else .got 0 line 0)
  | n + 1, line =>
    if (s.seqOf sq).lines ≤ line then (s, .bad 0x08)
    else
      let (s, r) := s.readLine sq line
      match r with
      | .wait => (s, .wait)
      | .fail st => (s, .fail st line)
      | .ok b =>
        let key := bits (leNat b) 4 4 * 16 + bits (leNat b) 0 4
        if key = 0x00 ∨ key = 0x01 ∨ key = 0x06 then (s, .bad 0x08)
        else State.scanBody s sq n (line + bits (leNat b) 8 3 + 1)

/-! ## Engine FIFOs (R93, R97) -/

/-- FIFO of an engine. -/
def State.fifoOf (s : State) (k : Nat) (e : Engine) : List XDesc :=
  match e with
  | .unit u => (s.cuOf k u.val).fifo
  | .vec => (s.clOf k).vec
  | .mover m => Tbl.get [] (s.clOf k).movers m.val

/-- Replace the FIFO of an engine. -/
def State.setFifo (s : State) (k : Nat) (e : Engine) (l : List XDesc) : State :=
  match e with
  | .unit u => s.setCu k u.val { s.cuOf k u.val with fifo := l }
  | .vec => s.setCl k { s.clOf k with vec := l }
  | .mover m => s.setCl k { s.clOf k with movers := Tbl.set [] (s.clOf k).movers m.val l }

/-- Start the head of an engine's FIFO if its WAIT is satisfied: the token is decremented once (R97). -/
def State.startHead (s : State) (k : Nat) (e : Engine) : State × Option XDesc :=
  match s.fifoOf k e with
  | [] => (s, none)
  | d :: rest =>
    if d.started then (s, some d)
    else
      let q := s.seqOf k
      if q.ready (waitOf d.raw) then
        let d' := { d with started := true }
        ((s.setSeq k { q with tok := applyTok q.tok (waitOf d.raw) none }).setFifo k e (d' :: rest), some d')
      else (s, none)

/-- Mark the head of an engine's FIFO as having run. -/
def State.ranHead (s : State) (k : Nat) (e : Engine) : State :=
  match s.fifoOf k e with
  | d :: rest => s.setFifo k e ({ d with ran := true } :: rest)
  | [] => s

/-- Issuer of an engine's accesses. -/
def engineOrg (k : Nat) (e : Engine) : Nat :=
  match e with
  | .mover m => k * 8 + m.val
  | _ => k * 8 + 7

/-- Complete the head of an engine's FIFO once it has run and its writes are acknowledged; for a chorus unit, the oldest
command whose effects are over. -/
def State.completeHead (s : State) (k : Nat) (e : Engine) : State :=
  match e with
  | .unit u =>
    match (s.cuOf k u.val).fin with
    | d :: rest => (s.setCu k u.val { s.cuOf k u.val with fin := rest }).doneX (if d.away then 300 + k else k) d.x true
    | [] => s
  | _ =>
    match s.fifoOf k e with
    | d :: rest =>
      if d.ran && s.acked (engineOrg k e) d.x then
        ((s.setFifo k e rest).forget (engineOrg k e)).doneX k d.x true
      else s
    | [] => s

/-! ## Dispatch -/

/-- Set a sequencer past the descriptor it is at. -/
def State.moveOn (s : State) (sq lines : Nat) : State :=
  let q := s.seqOf sq
  (s.setSeq sq { q with pt := q.pt.past lines }).forget (4000 + sq)

/-- Count `n` dispatched expanded descriptors of a cluster's sequencer (R125). -/
def State.countDisp (s : State) (sq n : Nat) : State := if sq < 144 then s.bump64 .clus sq 0x0A8 n else s

/-- The commands a descriptor places in FIFOs: engine and entry for each copy, without its index (R93, R105). -/
def Seq.copies (q : Seq) (key raw : Nat) : List (Engine × XDesc) :=
  let base : XDesc := { x := 0, line := q.pt.line, raw := raw, addrs := [], origins := [], clr := false, out := false, rank := 0,
                        started := false, ran := false, k0 := 0 }
  let ops := fun g => (List.range (refFields key).length).map fun i => q.pt.operand key raw i g
  if key = 0x10 ∨ key = 0x11 then
    let groups := if key = 0x11 then [0, 64, 128, 192] else [0]
    let auto := bit raw (18 * 8 + 3)
    let (first, last) := match q.pt.nest with
      | some n => if auto then (nth 0 q.pt.idx (n.levels - 1) == 0,
          nth 0 q.pt.idx (n.levels - 1) + 1 == nth 0 q.pt.rc (n.levels - 1)) else (true, true)
      | none => (true, true)
    let units := (List.finRange 12).filter fun u => bit (db raw 20 2) u.val
    units.zipIdx.map fun p =>
      -- the unit of rank r takes r strides (R105)
      let shift := fun (f : Nat) => (p.2 : Int) * signed 32 (db raw (40 + 4 * (f / 3)) 4)
      (.unit p.1, { base with
        addrs := groups.flatMap fun g => (ops g).zipIdx.map fun a => (((a.1.1 : Int) + shift a.2) % (2 ^ 32 : Nat)).toNat,
        origins := groups.map fun g => (nth (0, 0) (ops g) 6).2,
        clr := bit raw (18 * 8) && first, out := bit raw (18 * 8 + 1) && last, rank := p.2 })
  else
    let a := ops 0
    let d := { base with addrs := a.map (·.1),
                         origins := [(nth (0, 0) a (if key = 0x31 ∨ key = 0x30 then (if key = 0x31 then 3 else 0) else 3)).2] }
    if key = 0x20 ∨ key = 0x21 ∨ key = 0x22 then [(.vec, d)]
    else [(.mover ⟨db raw 16 1 % 4, Nat.mod_lt _ (by decide)⟩, d)]

/-- Place one copy: into its FIFO, or only its tokens when a resumed stream has it completed; a copy below XIDX has left its
tokens in the saved state (R117). -/
def State.place1 (s : State) (k : Nat) (c : Engine × XDesc) : State :=
  let q := s.seqOf k
  let x := q.nextX
  let wait := waitOf c.2.raw
  let sig := sigOf c.2.raw
  let q' := q.index wait sig c.2.rank
  if x < q.low then s.setSeq k { q with nextX := x + 1 }
  else if q.skip.contains x then (s.setSeq k { q' with tok := applyTok q.tok wait none }).doneX k x true
  else
    let (k0, kd) := match c.1 with
      | .unit u => (nth 0 q.kdone u.val, q.kdone.set u.val 0)
      | _ => (0, q.kdone)
    let s := s.setSeq k { q' with kdone := kd }
    s.setFifo k c.1 (s.fifoOf k c.1 ++ [{ c.2 with x := x, k0 := k0 }])

/-- Dispatch an engine descriptor of a cluster, or stall: every target FIFO needs room, and its indices lie within the
window of R117. -/
def State.dispatchEngine (s : State) (k key raw lines : Nat) : State :=
  let q := s.seqOf k
  let cs := q.copies key raw
  let room := cs.all fun c => decide ((s.fifoOf k c.1).length < 32)
  if !room || decide (q.low + 544 ≤ q.nextX + cs.length - 1) then s
  else
    let sent := count (fun i => decide (q.low ≤ q.nextX + i) && !q.skip.contains (q.nextX + i)) cs.length
    ((cs.foldl (fun s c => s.place1 k c) s).countDisp k sent).moveOn k lines

/-- The accelerator sequencer queues a JOB (R109); its class queue holds 32 (R93), and the job's WAIT holds only its class
(R97). -/
def State.dispatchJob (s : State) (sq raw lines : Nat) : State :=
  let q := s.seqOf sq
  let cls := db raw 16 1 - 1
  let tile := db raw 17 1 % 2
  let a := Tbl.get {} s.acc tile
  let wait := waitOf raw
  if 32 ≤ (a.queue.filter fun j => j.cls == cls).length ∨ q.low + 544 ≤ q.nextX then s
  else if q.skip.contains q.nextX then
    ((s.setSeq sq { q.index wait (sigOf raw) 0 with tok := applyTok q.tok wait none }).doneX sq q.nextX true).moveOn sq lines
  else
    let (fn, owner) := match s.itemOf q.item with
      | some it => (it.fn, it.owner)
      | none => (0, 0x1F)
    let j : Job := { sq := sq, fn := fn, owner := owner, tile := tile, item := q.item, task := q.task, x := q.nextX, line := q.pt.line, cls := cls,
                     addr := (q.pt.operand 0x50 raw 0 0).1, bytes := db raw 20 4, raw := 0, stat := db raw 32 8,
                     wait := wait, sig := sigOf raw, res := none, tStart := 0 }
    let s := s.setSeq sq (q.index wait (sigOf raw) 0)
    ({ s with acc := Tbl.set {} s.acc tile { a with queue := a.queue ++ [j] } }).moveOn sq lines

/-- The 32-bit store word that a SETCNT or BRK reads. The accelerator sequencer has no cluster store: its task ends ACCESS, as
for an address outside every store (DESIGN CHOICE, log 57). -/
def State.storeWord (s : State) (sq off : Nat) : State × Got :=
  if 144 ≤ sq ∨ csSize < off + 4 then (s, .fail stAccess)
  else
    let (s, r) := s.csRead sq off 4
    (s, match r with
      | some b => .ok b
      | none => .fail stPoisoned)

/-- A control descriptor takes its index, its tokens and completes at once. -/
def State.control (s : State) (sq raw : Nat) : State :=
  let q := s.seqOf sq
  let wait := waitOf raw
  ((s.countDisp sq (bn !(q.skip.contains q.nextX))).setSeq sq
    { q.index wait (sigOf raw) 0 with tok := applyTok q.tok wait none }).doneX sq q.nextX true

/-- Set the point of a sequencer. -/
def State.goTo (s : State) (sq : Nat) (p : StreamPt) : State :=
  (s.setSeq sq { s.seqOf sq with pt := p }).forget (4000 + sq)

/-- A CALL is handed over (R110), or stalls while the call queue is full (R113). -/
def State.dispatchCall (s : State) (sq raw lines : Nat) : State :=
  let q := s.seqOf sq
  let wait := waitOf raw
  let x := q.nextX
  if q.skip.contains x then
    ((s.setSeq sq { q.index wait (sigOf raw) 0 with tok := applyTok q.tok wait none }).doneX sq x true).moveOn sq lines
  else if 1024 ≤ s.sh.callq.length then s
  else
    let sync := bit raw (18 * 8)
    let c : Call :=
      { sq := sq, item := q.item, task := q.task, x := x, routine := db raw 16 2, algo := db raw 24 4,
        args := (List.range 8).map fun i => (q.pt.operand 0x04 raw i 0).1, stat := db raw 20 4, sync := sync,
        sig := sigOf raw }
    let s := s.setSeq sq { q.index wait (sigOf raw) 0 with
      tok := applyTok q.tok wait none, calls := q.calls + 1, syncWait := sync }
    (({ s with sh := { s.sh with callq := s.sh.callq ++ [c] } }).countDisp sq 1).moveOn sq lines

/-- A checked descriptor acts or is dispatched (R97, R101, R103); `after` is the line after a LOOP's body. -/
def State.actOn (s : State) (sq key raw lines after : Nat) : State :=
  let q := s.seqOf sq
  let waits := !(q.skip.contains q.nextX) && !q.ready (waitOf raw)
  if 0x10 ≤ key then (if key = 0x50 then s.dispatchJob sq raw lines else s.dispatchEngine sq key raw lines)
  else if waits || decide (q.low + 544 ≤ q.nextX) then s
  else match key with
    | 0x01 => (s.control sq raw).goTo sq (q.pt.loop raw after)
    | 0x02 =>
      let lvl := bits (db raw 16 1) 0 3
      let v := (q.pt.operand 0x02 raw 0 0).1
      let (s, r) := if bit raw (17 * 8) then s.storeWord sq v else (s, .ok (leBytes 4 v))
      match r with
      | .fail st => s.endStreamWith sq st 0 q.pt.line
      | .wait => s
      | .ok b => (s.control sq raw).goTo sq ({ q.pt with cnt := q.pt.cnt.set lvl (leNat b) }.past lines)
    | 0x03 =>
      let cond := db raw 17 1
      let (s, r) := if cond = 0 then (s, .ok []) else s.storeWord sq (q.pt.operand 0x03 raw 0 0).1
      match r with
      | .fail st => s.endStreamWith sq st 0 q.pt.line
      | .wait => s
      | .ok b =>
        let taken := cond == 0 || (cond == 1 && leNat b != 0) || (cond == 2 && leNat b == 0)
        let s := s.control sq raw
        match q.pt.nest with
        | some n => if taken then s.goTo sq (q.pt.next n (bits (db raw 16 1) 0 3)) else s.goTo sq (q.pt.past lines)
        | none => s
    | 0x04 => s.dispatchCall sq raw lines
    | 0x06 =>
      let s := s.control sq raw
      let q := s.seqOf sq
      (s.setSeq sq { q with ended := true }).wrapUp sq
    | _ => (s.control sq raw).moveOn sq lines

/-- Whether a sequencer may take its next descriptor. -/
def Seq.free (q : Seq) : Bool :=
  q.running && q.ending.isNone && !q.syncWait && !q.draining && !q.ended

/-- A fetched descriptor is checked, a LOOP with its body, and acts or is dispatched (R116): the lowest failing cause ends the
stream, as does a line of the body that cannot be fetched. -/
def State.checked (s : State) (sq key raw n : Nat) : State :=
  let q := s.seqOf sq
  let line := q.pt.line
  let l := descChecks sq q key raw ++ [(0x10, decide (q.lines < line + n))]
  let early := lowestCause (l.filter fun p => decide (p.1 ≤ 8))
  match early with
  | some c => s.endStreamWith sq stMalformed c line
  | none =>
    let (s, f) := if key = 0x01 then s.scanBody sq (db raw 17 1) (line + n) else (s, .got 0 0 0)
    match f with
    | .wait => s
    | .bad c => s.endStreamWith sq stMalformed c line
    | .fail st at_ => s.endStreamWith sq st 0 at_
    | .got _ after _ =>
      (match lowestCause l with
        | some c => s.endStreamWith sq stMalformed c line
        | none => s.actOn sq key raw n after)

/-- The sequencer takes its next descriptor if `want` accepts its code (R93, R116). -/
def State.dispatch (s : State) (sq : Nat) (want : Nat → Bool) : State :=
  let q := s.seqOf sq
  if !q.free then s
  else
    let line := q.pt.line
    let (s', r) := s.fetchDesc sq line
    match r with
    | .wait => s'
    | .fail st at_ => s'.endStreamWith sq st 0 at_
    | .bad c => s'.endStreamWith sq stMalformed c line
    | .got key raw n => if want key then s'.checked sq key raw n else s

/-! ## Meanings -/

/-- DESCRIPTOR_DISPATCH (R93). -/
def execDescriptorDispatch (sq : Fin 146) (s : State) : Host.Outcome State Fault Refusal :=
  perform s fun s => s.dispatch sq.val fun _ => true

/-- HDR (R98): the first line of a stream, an index and its tokens. -/
def execHdr (sq : Fin 146) (s : State) : Host.Outcome State Fault Refusal :=
  perform s fun s => s.dispatch sq.val (· == 0x00)

/-- LOOP (R101). -/
def execLoop (sq : Fin 146) (s : State) : Host.Outcome State Fault Refusal :=
  perform s fun s => s.dispatch sq.val (· == 0x01)

/-- SETCNT (R103). -/
def execSetcnt (sq : Fin 146) (s : State) : Host.Outcome State Fault Refusal :=
  perform s fun s => s.dispatch sq.val (· == 0x02)

/-- BRK (R103). -/
def execBrk (sq : Fin 146) (s : State) : Host.Outcome State Fault Refusal :=
  perform s fun s => s.dispatch sq.val (· == 0x03)

/-- CALL (R110). -/
def execCall (sq : Fin 146) (s : State) : Host.Outcome State Fault Refusal :=
  perform s fun s => s.dispatch sq.val (· == 0x04)

/-- TOKEN (R95). -/
def execToken (sq : Fin 146) (s : State) : Host.Outcome State Fault Refusal :=
  perform s fun s => s.dispatch sq.val (· == 0x05)

/-- END (R97). -/
def execEndStream (sq : Fin 146) (s : State) : Host.Outcome State Fault Refusal :=
  perform s fun s => s.dispatch sq.val (· == 0x06)

/-- JOB (R109). -/
def execJob (tile : Fin 2) (s : State) : Host.Outcome State Fault Refusal :=
  perform s fun s => s.dispatch (144 + tile.val) (· == 0x50)

/-- The record whose FIFO of an engine is served: that of a draining preempted stream while it holds a descriptor that can
go on, else the cluster's own. -/
def State.served (s : State) (k : Nat) (e : Engine) : Nat :=
  match s.fifoOf (300 + k) e with
  | d :: _ => if (s.seqOf (300 + k)).blocked d then k else 300 + k
  | [] => k

/-- TOKEN_WAIT_SATISFIED (R97): the head of an engine's FIFO starts and decrements its token. -/
def execTokenWaitSatisfied (sq : Fin 146) (eng : Engine) (s : State) : Host.Outcome State Fault Refusal :=
  perform s fun s => if sq.val < 144 then (s.startHead (s.served sq.val eng) eng).1 else s

/-- DESCRIPTOR_COMPLETE (R97). -/
def execDescriptorComplete (sq : Fin 146) (eng : Engine) (s : State) : Host.Outcome State Fault Refusal :=
  perform s fun s => if sq.val < 144 then s.completeHead (s.served sq.val eng) eng else s

/-- Load a sequencer with a resumed stream (R117): it walks from the descriptor of which XIDX is a copy. -/
def Seq.resume (q : Seq) (v : StreamSave) : Seq :=
  { q with pt := v.pt, tok := v.tok, lowTok := v.tok, nextX := v.xidx - v.rank, low := v.xidx, hist := [], skip := v.done,
           kdone := v.kdone }

/-- STREAM_RESUME (R117): the stream of the task placed on a cluster is walked again from XIDX. -/
def execStreamResume (cl : Fin 144) (s : State) : Host.Outcome State Fault Refusal :=
  perform s fun s =>
    match (s.clOf cl.val).placed with
    | none => s
    | some (i, t) =>
      match s.taskOf i t with
      | none => s
      | some x =>
        match x.save with
        | none => s
        | some v =>
          let s := s.setTask i t { x with save := none }
          s.setSeq cl.val ((s.seqOf cl.val).resume v)

end Sys2Proof.Machine
end

