-- ==== Sys2Proof/Machine/Wings.lean ====
section
/-! DEFINITION. The commands of the wings: bring-in of spares (R24, R473) and the snapshot of the in-service map (R29,
R30). -/

namespace Sys2Proof.Machine

/-- Whether bring-ins of a die are served: the boot has reached READY, and neither a warm reset nor the die's domain
reset runs (R473). -/
def State.servesDie (s : State) (die : Nat) : Bool :=
  s.boot.ready && !s.rst.warm && !s.rst.doms.contains die

/-- Start the next bring-in of a die when bring-ins are served. -/
def State.bringIn (s : State) (die : Nat) : State := if s.servesDie die then s.startBringIn die else s

/-- BRING_IN_START (R24): of the die's waiting retirements the one of lowest physical index is served, with the spare of
lowest physical index in its scope. Nothing happens while one runs, or none waits. -/
def execBringInStart (die : Fin 6) (s : State) : Host.Outcome State Fault Refusal :=
  perform s fun s => s.bringIn die.val

/-- BRING_IN_ATTEMPT_COMPLETE (R24). -/
def execBringInAttemptComplete (die : Fin 6) (pass : Bool) (s : State) : Host.Outcome State Fault Refusal :=
  perform s fun s => if s.servesDie die.val then s.endBringIn die.val pass else s

/-- BRING_IN_RESUME_AFTER_RESET (R473): every die serves its waiting retirements again. -/
def execBringInResumeAfterReset (s : State) : Host.Outcome State Fault Refusal :=
  perform s fun s => (List.range 6).foldl State.bringIn s

/-- A write of DMAP_ADDR: the offset is stored and a new snapshot latched (R29). -/
def State.writeDmapAddr (s : State) (v : Word) : State := (s.storeAt 0x048 v).latchSnap

/-- A read of DMAP_DATA: the snapshot word, and DMAP_ADDR 4 higher (R29). -/
def State.readDmapData (s : State) : State :=
  let a := s.rg 0x048
  (s.setRg 0x048 (a + 4)).answer (imageWord s.sec.variant s.map.snap a.toNat)

/-- DMAP_SNAPSHOT_LATCH (R29, R30). -/
def execDmapSnapshotLatch (val : BitVec 32) (s : State) : Host.Outcome State Fault Refusal :=
  perform s fun s => s.writeDmapAddr val

/-- DMAP_DATA_READ (R29). -/
def execDmapDataRead (s : State) : Host.Outcome State Fault Refusal :=
  perform s State.readDmapData

end Sys2Proof.Machine
end

