-- ==== Sys2Proof/Machine/RunOrder.lean ====
section
/-! DEFINITION. The running order (R155 to R177): owners, claims, preemption requests, commit and its checks, realignment,
curtains, and the order in which ready tasks go (R133, R165). -/

namespace Sys2Proof.Machine

/-! ## Service (R160 to R164) -/

/-- Whether a task is at an end. -/
def State.taskOver (s : State) (p : Nat × Nat) : Bool :=
  match s.taskOf p.1 p.2 with
  | some x => decide (x.st = .done) || decide (x.st = .returned)
  | none => true

/-- Whether the current run of a cluster is claimed, by a task that has not ended (R162). -/
def State.claimedNow (s : State) (l : Nat) : Bool :=
  match Tbl.look s.ro.claims (2 * l) with
  | some c => c.claimed && match c.task with
    | some p => !s.taskOver p
    | none => true
  | none => false

/-- Whether the current scene of a logical cluster serves open work (R160, R162, R164). -/
def State.openScene (s : State) (l : Nat) : Bool :=
  let o := s.ownerNow (arbCl l)
  !(Tbl.get false s.ro.overrun l) && (o == 0x10 || (o != 0x1F && !s.claimedNow l))

/-- Whether a logical cluster serves a task of an owner code in the current scene. -/
def State.serves (s : State) (l owner : Nat) : Bool :=
  if owner = 0x10 then s.openScene l
  else (s.ownerNow (arbCl l) == owner && s.claimedNow l) || Tbl.get false s.ro.overrun l

/-! ## Order of ready tasks (R133, R165) -/

/-- What R133 compares, in ascending order: with a curtain first, slack, class (higher first), sequence number, function
and queue (log 24), task index. -/
def State.rank (s : State) (it : Item) (x : Task) (t : Nat) : List Int :=
  [if it.radio then 0 else 1, if it.radio then (it.curtain : Int) - s.t64On it.home it.curtainTb else 0, -(x.cls : Int), it.seqNo, it.fn,
   it.queue, t]

/-- Lexicographic order of lists of one length. -/
def lexLt : List Int → List Int → Bool
  | a :: l, b :: m => decide (a < b) || (decide (a = b) && lexLt l m)
  | _, _ => false

/-- Functions with READY open cluster tasks. -/
def State.openFns (s : State) : List Nat :=
  (List.range 256).filter fun v => s.work.items.any fun p =>
    p.2.fn == v && !p.2.radio && p.2.tasks.any fun x => decide (x.st = .ready) && x.ty == 1

/-- Whether a function is over share at the cluster arbiters (R165). -/
def State.overShare (s : State) (v : Nat) : Bool := s.overBy s.sceneW s.openFns v

/-! ## Preemption (R76, R117, R135, R163) -/

/-- The sequencer stops dispatching for a preemption. -/
def State.drain (s : State) (k : Nat) : State := s.setSeq k { s.seqOf k with draining := true }

/-- K-steps of a chorus command. -/
def XDesc.ksteps (d : XDesc) : Nat := bits d.raw 192 32

/-- A chorus unit that leaves a task's command at the end of a beat: it starts no other. -/
def ChorusUnit.stop (u : ChorusUnit) : ChorusUnit :=
  { u with landed := true, cur := none, issued := 0, sub := 0, heldA := none, heldB := none, lines := 0, restoring := false,
           part := false }

/-- K-steps that a landing unit has done of the command it does not finish (KDONE): those issued, or those of a resumed command
that it has not started again. -/
def ChorusUnit.kdone (u : ChorusUnit) : Nat :=
  match u.cur with
  | some _ => u.issued
  | none => ((u.fifo.find? fun d => d.k0 != 0).map (·.k0)).getD 0

/-- Whether a unit runs, or is to run, a command of the task on its cluster. -/
def ChorusUnit.working (u : ChorusUnit) : Bool := u.cur.isSome || u.part || u.restoring || !u.fifo.isEmpty

/-- A request lands on a unit at a beat end (R76, R77, R171). For a handover the unfinished command leaves its k-steps in KDONE
and a partial bank spills. A request for another open task lands only where no tile is partial, and the sequencer stops once
it has landed on every unit. At a curtain the banks are discarded. -/
def State.landUnit (s : State) (k u : Nat) : State :=
  let un := s.cuOf k u
  if un.landed then s
  else
    let s' := if un.owner.isSome && un.owner == (s.clOf k).placed then s.bump .clus k 0x074 1 else s
    match un.preempt with
    | none => s
    | some .curtain => s.setCu k u { un.stop with pipe := [], readout := [], fin := [], acc := [] }
    | some .openTask =>
      if un.part || un.cur.isSome then s
      else
        let s := s'.setCu k u un.stop
        if (List.range 12).all fun v => (s.cuOf k v).landed then s.drain k else s
    | some .handover =>
      let s := s'.setCu k u { un.stop with
        bank := if un.part then 1 - un.bank else un.bank, spilling := if un.part then some un.bank else un.spilling,
        leaving := if un.part then un.owner else un.leaving }
      let q := s.seqOf k
      let s := s.setSeq k { q with kdone := if un.kdone = 0 then q.kdone else q.kdone.set u un.kdone }
      if un.working then s.drain k else s

/-- The requests that are due land on the units without a command: no beat is in progress there. -/
def State.landIdle (s : State) (k : Nat) : State :=
  (List.range 12).foldl (fun s u => if (s.cuOf k u).cur.isNone then s.landUnit k u else s) s

/-- Raise a request on the units of a physical cluster. One for another open task does not replace one for a handover. -/
def State.requestPreempt (s : State) (k : Nat) (why : PreemptWhy) : State :=
  (List.range 12).foldl (fun s u =>
    let un := s.cuOf k u
    s.setCu k u { un with preempt := some (if un.preempt = some .handover ∧ why = .openTask then .handover else why) }) s

/-- The requests on a cluster's units reach them: they land where no beat is in progress, and where no unit has work at all the
sequencer stops at once. -/
def State.landNow (s : State) (k : Nat) : State :=
  ((if count (fun u => (s.cuOf k u).working) 12 = 0 then s.drain k else s).landIdle k).wrapUp k

/-- Preempt the open task of a physical cluster: a request on every unit that runs open work, and their number. A task that
is CUED is preempted when it has dispatched its first descriptor (R138; log 25). -/
def State.preemptCl (s : State) (k : Nat) (why : PreemptWhy) : State × Nat :=
  match (s.clOf k).placed with
  | none => (s, 0)
  | some (i, t) =>
    match s.itemOf i, s.taskOf i t with
    | some it, some x =>
      if it.owner ≠ 0x10 then (s, 0)
      else
        let n := count (fun u => (s.cuOf k u).working) 12
        let s := s.bump .stage it.home 0x06C n
        let s := s.requestPreempt k why
        if x.st = .cued then (s, n) else (s.landNow k, n)
    | _, _ => (s, 0)

/-! ## Curtains (R171) -/

/-- The curtain has passed over the task on a cluster: it dispatches nothing more, and each of its units stops issuing at the end
of its beat (R171). -/
def State.curtainCl (s : State) (k : Nat) : State :=
  ((s.setSeq k { s.seqOf k with draining := true, curtain := true }).requestPreempt k .curtain).landIdle k

/-- A graph's curtain has passed: its READY, CUED and PLAYING tasks end CURTAIN_MISS, a playing CLUSTER task once its units have
ended their beats; a playing DSP task is stopped and ends when its core has quietened. -/
def State.passCurtain (s : State) (i : Nat) : State :=
  match s.itemOf i with
  | none => s
  | some it =>
    if !it.radio || it.released || it.returned then s
    else
      let (s, ended) := (List.range it.tasks.length).foldl (fun (p : State × List Nat) t =>
        match p.1.taskOf i t with
        | none => p
        | some x =>
          -- a completion that has reached the home goes first (R140)
          if p.1.pendEnd i t then p
          else if x.st = .ready ∨ x.st = .cued ∨ (x.st = .playing ∧ x.ty = 3) then
            (p.1.markDone i t stCurtain 0 0, p.2 ++ [t])
          else if x.st = .playing then
            match x.place with
            | some (_, k) =>
              if x.ty = 1 then
                let s := p.1.curtainCl k
                if (s.clOf k).unitsLanded then (s.markDone i t stCurtain 0 0, p.2 ++ [t]) else (s, p.2)
              else ({ p.1 with dsp := Tbl.upd {} p.1.dsp k fun d =>
                { d with stopping := true, tret := false, ending := some (stCurtain, 0, 0) } }, p.2)
            | none => p
          else p) (s, [])
      ended.foldl (fun s t => s.afterDone i t false) s

/-- CURTAIN_PASSED (R171): CURTAIN_TB has reached the graph's CURTAIN, by its stepped value (R297). -/
def execCurtainPassed (item : Nat) (s : State) : Host.Outcome State Fault Refusal :=
  perform s fun s => match s.itemOf item with
    | some it => if it.curtain ≤ s.t64On it.home it.curtainTb then s.passCurtain item else s
    | none => s

/-! ## Lead points (R162 to R164) -/

/-- Whether a radio task may run on a logical cluster: where its function's grant, its PIN and the script placement of R183
let it. -/
def State.fitsCl (s : State) (it : Item) (x : Task) (l : Nat) : Bool :=
  let own := (List.range 128).filter fun k => s.hasCl it.fn k && (s.physCl k).isSome
  own.contains l &&
    (!bit x.flags 1 || (if s.scriptNow it then nth 128 own (x.affinity % own.length) == l else x.affinity == l))

/-- The radio task of a partition that claims a run on a logical cluster: one CUED there, else the first READY one that fits and
claims no other run. -/
def State.claimant (s : State) (p l : Nat) : Option (Nat × Nat) :=
  let here := s.work.items.flatMap fun e =>
    if e.2.radio && e.2.owner == p then
      (e.2.tasks.zipIdx.filter fun x => decide (x.1.st = .cued) && x.1.ty == 1 &&
        (match x.1.place with
          | some (c, _) => c == l
          | none => false)).map fun x => (e.1, x.2)
    else []
  match here with
  | h :: _ => some h
  | [] =>
    let taken := s.ro.claims.filterMap fun c => c.2.task
    let ready := s.work.items.flatMap fun e =>
      if e.2.radio && e.2.owner == p then
        (e.2.tasks.zipIdx.filter fun x => decide (x.1.st = .ready) && x.1.ty == 1 && s.fitsCl e.2 x.1 l &&
          !(taken.contains (e.1, x.2))).map fun x => (s.rank e.2 x.1 x.2, (e.1, x.2))
      else []
    (ready.foldl (fun (b : Option (List Int × (Nat × Nat))) x => match b with
      | none => some x
      | some y => if lexLt x.1 y.1 then some x else some y) none).map (·.2)

/-- The radio task on a cluster at the lead point of an owner change to `o` (R164): it overruns, or is cut. -/
def State.leadOut (s : State) (l k o prev : Nat) : State :=
  match (s.clOf k).placed with
  | none => s
  | some (i, t) =>
    match s.itemOf i, s.taskOf i t with
    | some it, some x =>
      let late := Tbl.get false s.ro.overrun l
      if it.owner = 0x10 ∨ x.st ≠ .playing ∨ !(it.owner == prev || late) then s
      else if o = it.owner then s
      else if o = 0x10 ∨ o = 0x1F then
        if late then s
        else ({ s with ro := { s.ro with overrun := Tbl.set false s.ro.overrun l true } } : State).bump .runord 0 0x074 1
      else
        let a := pageAddr .runord 0 + 0x11C + 0x40 * it.owner
        let s := (s.setRg a (satAdd (s.rg a) 1)).raise (pageAt .runord 0) 5 (BitVec.ofNat 32 (it.owner + 256 * s.ro.scene))
        ({ s with ro := { s.ro with overrun := Tbl.set false s.ro.overrun l false } } : State).passCurtain i
    | _, _ => s

/-- Whether idle scenes will follow the period in progress (R157): they are due, and its end, of which a scene that begins now
tells the time, is no aligned boundary. -/
def State.stretchAhead (s : State) : Bool :=
  s.ro.realignDue && decide (((s.roNow : Int) + 50 * ((scenesOf s.ro.period : Int) - s.ro.scene) - s.ro.align)
    % (periodNs s.ro.period : Int) ≠ 0)

/-- The lead point of the scene `YIELD_LEAD` scenes ahead on a logical cluster, when a run or a stretch of idle scenes begins
there. A maintenance run is claimed when firmware has work for the cluster (`maint`). -/
def State.lead (s : State) (l : Nat) (maint : Bool) : State :=
  let n := scenesOf s.ro.period
  if !s.roOn || s.roIdle then s
  else match s.physCl l with
    | none => s
    | some k =>
      let at_ := s.ro.scene + fld (s.pr .runord 0 0x040) 12 4
      let own := fun (a : Nat) => if s.stretchAhead && decide (n ≤ a) then 0x1F else s.roOwner s.roBank (arbCl l) (a % n)
      let o := own at_
      let prev := own (at_ - 1)
      if o = prev then s
      else
        let s := s.leadOut l k o prev
        if o = 0x10 then s
        else
          let c := if o = 0x1F then none else s.claimant o l
          let claimed := if o = 0x11 then maint else c.isSome
          let s := if o = 0x1F then s
            else
              let cl : Claim := { owner := o, claimed := claimed, task := c }
              { s with ro := { s.ro with claims := Tbl.put s.ro.claims (2 * l + 1) cl } }
          let holdsOpen := match (s.clOf k).placed with
            | some (i, _) => (match s.itemOf i with
              | some it => it.owner == 0x10
              | none => false)
            | none => false
          if (o = 0x1F || claimed) && holdsOpen then
            let (s, n) := s.preemptCl k .handover
            s.bump .runord 0 0x070 n
          else s

/-- LEAD_POINT (R162 to R164). -/
def execLeadPoint (lc : Fin 128) (maint : Bool) (s : State) : Host.Outcome State Fault Refusal :=
  perform s fun s => s.lead lc.val maint

/-! ## Scenes and periods (R155 to R157, R165, R173) -/

/-- Whether this instant is an aligned boundary of the running order's base, period and offset (R156). -/
def State.aligned (s : State) : Bool :=
  decide (((s.roNow : Int) - s.ro.align) % (periodNs s.ro.period : Int) = 0)

/-- A run begins on a cluster at the new scene: its claim becomes the current one. -/
def State.turnClaims (s : State) : State :=
  let k := s.ro.scene
  let turn := fun (t : Tbl Claim) (l : Nat) =>
      let o := s.roOwner s.roBank (arbCl l) k
      if !s.runFirst (arbCl l) then t
      else
        let next := Tbl.look t (2 * l + 1)
        let t := Tbl.del (Tbl.del t (2 * l)) (2 * l + 1)
        match next with
        | some c => if c.owner = o then Tbl.put t (2 * l) c else t
        | none => t
  { s with ro := { s.ro with claims := (List.range 128).foldl turn s.ro.claims } }

/-- Count the use of a scene that ends: cluster-scenes lent (`RO_BORROW`), and the functions' use of open and lent scenes (R165).
An overrun is over once its task is (R164). -/
def State.countScene (s : State) : State :=
  (List.range 128).foldl (fun s l => match s.physCl l with
    | none => s
    | some k =>
      let gone := match (s.clOf k).placed with
        | some (i, t) => s.taskOver (i, t)
        | none => true
      let s := if gone
        then { s with ro := { s.ro with overrun := Tbl.set false s.ro.overrun l false } } else s
      if !s.openScene l then s
      else
        let o := s.ownerNow (arbCl l)
        let s := if o ≠ 0x10 then s.bump64 .runord 0 0x068 1 else s
        match (s.clOf k).placed with
        | some (i, _) => (match s.itemOf i with
          | some it =>
            let more := fun (u : List Nat) => match u with
              | [] => [1]
              | a :: r => (a + 1) :: r
            if it.owner = 0x10 then { s with ro := { s.ro with use := Tbl.upd [] s.ro.use it.fn more } } else s
          | none => s)
        | none => s) s

/-- Enter a scene. -/
def State.enterScene (s : State) (k : Nat) : State :=
  ({ s with ro := { s.ro with scene := k } } : State).turnClaims

/-- Shares in force follow the registers (R173). -/
def State.takeShares (s : State) : State :=
  let sh := (List.range 256).foldl (fun t v => Tbl.set 0x00010001 t v (s.rg (pageAddr .runord 0 + 0x800 + 4 * v)))
    s.ro.share
  { s with ro := { s.ro with share := sh } }

/-- A period begins: shares, the use window and the ledger move on. -/
def State.newPeriod (s : State) : State :=
  let cur := s.ro.curPeriod + 1
  ({ s with ro := { s.ro with
      curPeriod := cur,
      use := s.ro.use.map fun p => (p.1, (0 :: p.2).take 16),
      lc := s.ro.lc.filter fun p => decide (cur ≤ p.1 % 2 ^ 32),
      la := s.ro.la.filter fun p => decide (cur ≤ p.1 % 2 ^ 32) } } : State).takeShares.enterScene 0

/-- A scene ends (R156). At the end of a period after a step of RO_TB the running order waits for the idle stretch, unless
the end is itself an aligned boundary (R157). -/
def State.nextScene (s : State) : State :=
  let n := scenesOf s.ro.period
  if s.roIdle then s
  else
  let s := s.countScene
  if s.ro.scene + 1 < n then s.enterScene (s.ro.scene + 1)
  else
    let s := s.bump64 .runord 0 0x04C 1
    if s.ro.realignDue && !s.aligned then { s with ro := { s.ro with scene := n, claims := [] } }
    else ({ s with ro := { s.ro with realignDue := false } } : State).newPeriod

/-- SCENE_BOUNDARY (R156). Acceptances that wait for bytes of another node are tried again (R172, R197; log 1). -/
def execSceneBoundary (s : State) : Host.Outcome State Fault Refusal :=
  perform s fun s => s.retryFallbacks.retryLate.nextScene.pumpAll

/-- Whether an inserted stretch is due: a period has ended short of an aligned boundary. -/
def State.stretchDue (s : State) : Bool :=
  s.time.running && s.ro.realignDue && !s.ro.realign && decide (scenesOf s.ro.period ≤ s.ro.scene)

/-- Idle scenes are inserted (R157): open work and radio work on every cluster see an idle stretch. -/
def State.startStretch (s : State) : State :=
  if !s.stretchDue then s
  else
    let s := { s with ro := { s.ro with realign := true, claims := [] } }
    (s.bump .runord 0 0x054 1).raise (pageAt .runord 0) 3 0

/-- REALIGN_START (R157). -/
def execRealignStart (s : State) : Host.Outcome State Fault Refusal := perform s State.startStretch

/-- REALIGN_END (R157): a new period begins at the aligned boundary. -/
def execRealignEnd (s : State) : Host.Outcome State Fault Refusal :=
  perform s fun s =>
    if s.ro.realign then ({ s with ro := { s.ro with realign := false, realignDue := false } } : State).newPeriod else s

/-! ## Commit (R161, R166) -/

/-- Owner codes of a period at an arbiter, in a bank. -/
def State.ownersOf (s : State) (bank arb n : Nat) : List Nat := (List.range n).map (s.roOwner bank arb)

/-- Runs of a list of owners, in order: owner and length. -/
def runList : List Nat → List (Nat × Nat)
  | [] => []
  | o :: t =>
    match runList t with
    | (p, n) :: r => if p = o then (p, n + 1) :: r else (o, 1) :: (p, n) :: r
    | [] => [(o, 1)]

/-- Runs counted cyclically (R161). -/
def cycRuns (l : List Nat) : List (Nat × Nat) :=
  match runList l with
  | (o, n) :: r =>
    (match r.getLast? with
      | some (p, m) => if p = o then (o, n + m) :: r.dropLast else (o, n) :: r
      | none => [(o, n)])
  | [] => []

/-- Arbiters of the logical clusters of the order code. -/
def State.clArbs (s : State) : List Nat :=
  ((List.range 128).filter fun l => decide (l % 32 < activePerQuarter s.sec.variant)).map arbCl

/-- Crossings of the route from an edge tile to a quarter (R161). -/
def routeOf (tile q : Nat) : List Nat :=
  match tile, q with
  | 0, 0 => [4]
  | 0, 1 => [5]
  | 0, 2 => [4, 2]
  | 0, 3 => [5, 3]
  | 1, 2 => [6]
  | 1, 3 => [7]
  | 1, 0 => [6, 2]
  | _, _ => [7, 3]

/-- Lengths of a partition's runs on the cluster arbiters of a bank. -/
def State.clRuns (s : State) (bank n p : Nat) : List Nat :=
  s.clArbs.flatMap fun a => ((cycRuns (s.ownersOf bank a n)).filter fun r => r.1 == p).map (·.2)

/-- Engines of a class in a partition's grant. -/
def PartGrant.engines (g : PartGrant) (k : Nat) : Nat := if k < 4 then fld g.acc0 (8 * k) 8 else fld g.acc1 (8 * (k - 4)) 8

/-- First index in the map, and number, of the engines of a class of a tile (R232). -/
def engineRange (e k : Nat) : Nat × Nat × Nat :=
  match k with
  | 0 => (clsEngine, e * 84, 24)
  | 1 => (clsEngine, e * 84 + 24, 32)
  | 2 => (clsEngine, e * 84 + 56, 16)
  | 3 => (clsEngine, e * 84 + 72, 8)
  | 4 => (clsCrc, e * 8, 8)
  | _ => (clsEngine, e * 84 + 80, 4)

/-- Whether engine `i` of a class of a tile is in service. -/
def State.engineOn (s : State) (e k i : Nat) : Bool :=
  let r := engineRange e k
  decide (i < r.2.2) && decide (s.unitSt r.1 (r.2.1 + i) = .active)

/-- Engines of a class of a tile in service. -/
def State.enginesOn (s : State) (e k : Nat) : Nat := count (s.engineOn e k) (engineRange e k).2.2

/-- Engines of a class that a partition's grant still gives it: those granted, less the ones that retirement has taken from it
(R238; log 17). -/
def State.engineGrant (s : State) (p k : Nat) : Nat :=
  (s.part p).engines k - Tbl.get 0 (Tbl.get ({} : AccSt) s.acc (s.part p).tile).lost (p * 8 + k)

/-- UC and UA of a partition in a bank, before clamping at the shown width (R166). -/
def State.budget (s : State) (bank n p : Nat) : Nat × Nat :=
  let rs := s.rg (pageAddr .runord 0 + 0x104 + 0x40 * p)
  let g := s.part p
  let uc := sumBy (· - 1) (s.clRuns bank n p) - fld rs 0 16
  let ua := sumBy (fun k => min (s.engineGrant p k) (s.enginesOn g.tile k) *
      sumBy (fun r => if r.1 = p then r.2 - 1 else 0) (cycRuns (s.ownersOf bank (400 + 6 * g.tile + k) n))) (List.range 6)
    - fld rs 16 16
  (uc, ua)

/-- Largest bookings of a partition over the ledger (`P_LOAD`). -/
def State.loadOf (s : State) (p : Nat) : Nat × Nat :=
  (maxBy (fun e => if e.1 / 2 ^ 32 = p then e.2 else 0) s.ro.lc, maxBy (fun e => if e.1 / 2 ^ 32 = p then e.2 else 0) s.ro.la)

/-- The lowest failing check of a commit (R161). -/
def State.commitCause (s : State) : Option Nat :=
  let bank := 1 - s.roBank
  let per := s.ro.commitPer
  let n := scenesOf per
  let arbs := (List.range 272) ++ s.clArbs ++ (List.range 60).map (400 + ·)
  let c1 := arbs.any fun a => (s.ownersOf bank a n).any fun o => decide (0x12 ≤ o) && decide (o ≤ 0x1E)
  let c2 := s.clArbs.any fun a => (List.range n).any fun k =>
    let o := s.roOwner bank a k
    decide (o < 16) && (routeOf (s.part o).tile ((a - 272) / 32)).any fun x =>
      s.roOwner bank (2 * x) k != o || s.roOwner bank (2 * x + 1) k != o
  let c3 := (List.range 16).any fun p => match s.clRuns bank n p with
    | [] => false
    | a :: r => r.any (· != a)
  let c4 := (List.range 48).any fun l => (s.ownersOf bank (412 + l) n).any fun o => decide (o < 16)
  let c5 := (List.range 16).any fun p =>
    let b := s.budget bank n p
    decide (b.1 < (s.loadOf p).1) || decide (b.2 < (s.loadOf p).2)
  let c6 := decide (per ≠ s.ro.period) && (s.ro.lc.any (fun e => e.2 != 0) || s.ro.la.any fun e => e.2 != 0)
  lowestCause [(1, c1), (2, c2), (3, c3), (4, c4), (5, c5), (6, c6)]

/-- Budgets and run lengths of the active bank (R166). -/
def State.takeBudgets (s : State) : State :=
  let n := scenesOf s.ro.period
  (List.range 16).foldl (fun s p =>
    let b := s.budget s.roBank n p
    let a := pageAddr .runord 0 + 0x100 + 0x40 * p
    let s := { s with ro := { s.ro with
      uc := Tbl.set 0 s.ro.uc p b.1, ua := Tbl.set 0 s.ro.ua p b.2, reserve := Tbl.set 0 s.ro.reserve p (s.rg (a + 4)) } }
    (s.setRg (a + 0x0C) (BitVec.ofNat 32 (min b.1 0xFFFF + 65536 * min b.2 0xFFFF))).setRg (a + 0x14)
      (BitVec.ofNat 32 (nth 0 (s.clRuns s.roBank n p) 0))) s

/-- Operating point of a quarter (R421). -/
def State.opOf (s : State) (q : Nat) : Nat := fld (s.pr .pwr 0 0x058) (4 * q) 4

/-- Whether a bank makes a logical cluster, or any of a quarter, radio-bound (R422). -/
def State.boundCl (s : State) (bank n l : Nat) : Bool := (s.ownersOf bank (arbCl l) n).any fun o => decide (o < 16)
def State.boundQ (s : State) (bank n q : Nat) : Bool :=
  (List.range (activePerQuarter s.sec.variant)).any fun i => s.boundCl bank n (q * 32 + i)

/-- Whether a physical cluster is radio-bound, and whether a quarter holds one, in the active bank (R422). -/
def State.radioCl (s : State) (k : Nat) : Bool := (s.logCl k).any (s.boundCl s.roBank (scenesOf s.ro.period))
def State.radioQ (s : State) (q : Nat) : Bool := s.boundQ s.roBank (scenesOf s.ro.period) q

/-- Whether a commit waits for a quarter to return to operating point 0 (R422). -/
def State.commitWaits (s : State) (per : Nat) : Bool :=
  (List.range 4).any fun q => s.opOf q != 0 && s.boundQ (1 - s.roBank) (scenesOf per) q

/-- A commit is decided at a period boundary (R161): the bank, PERIOD, TB and RO_ALIGN take effect, or the commit is
refused. Off an aligned boundary of the new values idle scenes are due, and the first new period begins after them. -/
def State.commit (s : State) : State :=
  if !s.ro.commitReq || s.roIdle || s.ro.realignDue || s.ro.scene != 0 then s
  else match s.commitCause with
    | some c =>
      let s := { s with ro := { s.ro with commitReq := false } }
      (s.setPr .runord 0 0x044 (BitVec.ofNat 32 (16 * c))).raise (pageAt .runord 0) 1 (BitVec.ofNat 32 (16 * c))
    | none =>
      let ctl := s.pr .runord 0 0x040
      let per := s.ro.commitPer
      if s.commitWaits per then s
      else
      let s := { s with ro := { s.ro with
        bankB := !s.ro.bankB, period := per, tb := fld ctl 4 3, commitReq := false, copying := true, claims := [],
        align := (s.pr .runord 0 0x048).toNat % periodNs per } }
      let s := s.takeBudgets
      if s.aligned then s.turnClaims
      else { s with ro := { s.ro with scene := scenesOf per, realignDue := true, curPeriod := s.ro.curPeriod - 1 } }

/-- RO_COMMIT_APPLY (R161). -/
def execRoCommitApply (s : State) : Host.Outcome State Fault Refusal := perform s State.commit

/-- The entries of a bank of a table of `n` entries a bank, copied to the other bank. -/
def copyBank {α : Type} (n from_ : Nat) (t : Tbl α) : Tbl α :=
  let mine := t.filter fun p => p.1 / n == from_
  let other := mine.map fun p => ((1 - from_) * n + p.1 % n, p.2)
  if from_ = 0 then mine ++ other else other ++ mine

/-- RO_BANK_COPY_COMPLETE (R161). -/
def execRoBankCopyComplete (s : State) : Host.Outcome State Fault Refusal :=
  perform s fun s =>
    if s.ro.copying then
      { s with ro := { s.ro with copying := false, track := copyBank 160000 s.roBank s.ro.track,
                                 bind := copyBank 460 s.roBank s.ro.bind } }
    else s

/-! ## Registers (R174, R175) -/

/-- A write of RO_CTRL (R155, R161, R175): one with PERIOD 3 is ignored; a YIELD_LEAD of 0 to 5 stores 6; COMMIT requests
a commit unless one is pending. -/
def State.writeRoCtrl (s : State) (v : Word) : State :=
  if fld v 1 2 = 3 then s
  else
    let v' := if fld v 12 4 < 6 then setFld v 12 4 6 else v
    let s := s.storeAt (pageAddr .runord 0 + 0x040) v'
    if fld v 8 1 = 1 ∧ !s.ro.commitReq ∧ !s.ro.copying then
      { s with ro := { s.ro with commitReq := true, commitPer := fld v' 1 2 } } else s

/-- RO_COMMIT (R161): a write of RO_CTRL. -/
def execRoCommit (val : BitVec 32) (s : State) : Host.Outcome State Fault Refusal :=
  perform s fun s => s.writeRoCtrl val

/-- A read of RO_TBL_DATA: four entries of the inactive bank; entries at or beyond 2,500 read 0. -/
def State.readRoTbl (s : State) : State :=
  let a := s.pr .runord 0 0x058
  let v := sumBy (fun i =>
    if fld a 0 12 + i < 2500 then s.roEntry (1 - s.roBank) (fld a 16 6) (fld a 0 12 + i) * 256 ^ i else 0) [0, 1, 2, 3]
  (s.setPr .runord 0 0x058 (setFld a 0 12 (fld a 0 12 + 4))).answer (BitVec.ofNat 32 v)

/-- A write of RO_TBL_DATA. -/
def State.writeRoTbl (s : State) (v : Word) : State :=
  let a := s.pr .runord 0 0x058
  let key := (1 - s.roBank) * 160000 + fld a 16 6 * 2500
  let put := fun (t : Tbl Nat) (i : Nat) =>
    if fld a 0 12 + i < 2500 then Tbl.set 0x10 t (key + fld a 0 12 + i) (fld v (8 * i) 5) else t
  let s := { s with ro := { s.ro with track := [0, 1, 2, 3].foldl put s.ro.track } }
  s.setPr .runord 0 0x058 (setFld a 0 12 (fld a 0 12 + 4))

/-- RO_TBL_DATA_ACCESS (R174). -/
def execRoTblDataAccess (write : Bool) (val : BitVec 32) (s : State) : Host.Outcome State Fault Refusal :=
  perform s fun s => if write then s.writeRoTbl val else s.readRoTbl

/-- A read of RO_BIND_DATA. -/
def State.readRoBind (s : State) : State :=
  let a := fld (s.pr .runord 0 0x060) 0 9
  (s.setPr .runord 0 0x060 (BitVec.ofNat 32 ((a + 1) % 512))).answer
    (if a < 460 then BitVec.ofNat 32 (s.roTrack (1 - s.roBank) a) else 0)

/-- A write of RO_BIND_DATA. -/
def State.writeRoBind (s : State) (v : Word) : State :=
  let a := fld (s.pr .runord 0 0x060) 0 9
  let s := if a < 460 then
      { s with ro := { s.ro with bind := Tbl.set 0 s.ro.bind ((1 - s.roBank) * 460 + a) (fld v 0 6) } } else s
  s.setPr .runord 0 0x060 (BitVec.ofNat 32 ((a + 1) % 512))

/-- RO_BIND_DATA_ACCESS (R174). -/
def execRoBindDataAccess (write : Bool) (val : BitVec 32) (s : State) : Host.Outcome State Fault Refusal :=
  perform s fun s => if write then s.writeRoBind val else s.readRoBind

end Sys2Proof.Machine
end

