-- ==== Sys2Proof/Machine/EthBase.lean ====
section
/-! DEFINITION. What other units reach of the time unit, the register pairs and the Ethernet ports: the latches and staged
halves of R12, the times of the bases with an adjustment, and the transmit doorbell (R281, R283). -/

namespace Sys2Proof.Machine

/-! ## Register pairs by requestor (R12, R464) -/

/-- Number of a requestor. -/
def reqIdx : Requestor → Nat
  | .pcie0 => 0
  | .pcie1 => 1
  | .fw => 2

/-- Key of a requestor's latch or staged half of the pair whose `_LO` lies at `a`. -/
def pairKey (r : Requestor) (a : Nat) : Nat := reqIdx r * 2 ^ 28 + a

/-- A read of `_LO`: the low half answers, the high half is latched. -/
def State.readLo (s : State) (r : Requestor) (a x : Nat) : State :=
  ({ s with latch := Tbl.set 0 s.latch (pairKey r a) (BitVec.ofNat 32 (x / 2 ^ 32)) } : State).answer (BitVec.ofNat 32 x)

/-- A read of `_HI`: the latched value. -/
def State.readHi (s : State) (r : Requestor) (a : Nat) : State := s.answer (Tbl.get 0 s.latch (pairKey r a))

/-- A write of `_LO` stages the low half. -/
def State.stageLo (s : State) (r : Requestor) (a : Nat) (v : Word) : State :=
  { s with staged := Tbl.set none s.staged (pairKey r a) (some v) }

/-- A write of `_HI` takes the staged low half, or the current one: both halves as one number. -/
def State.takePair (s : State) (r : Requestor) (a : Nat) (hi : Word) : State × Nat :=
  let lo := (Tbl.get none s.staged (pairKey r a)).getD (s.rg a)
  ({ s with staged := Tbl.set none s.staged (pairKey r a) none }, lo.toNat + 2 ^ 32 * hi.toNat)

/-- A write of `_HI` that commits both halves by their access types alone. -/
def State.commitPair (s : State) (r : Requestor) (a : Nat) (hi : Word) : State :=
  let (s, x) := s.takePair r a hi
  (s.storeAt a (BitVec.ofNat 32 x)).storeAt (a + 4) hi

/-! ## Times -/

/-- SEC, NS and FRAC of a base with signed ns added. -/
def TBase.shifted (b : TBase) (adj : Int) : Nat × Nat × Nat :=
  let t := (((b.sec * 1000000000 + b.ns : Nat) : Int) + adj) % ((2 ^ 48 * 1000000000 : Nat) : Int)
  (t.toNat / 1000000000, t.toNat % 1000000000, b.frac)

/-- 32-bit ns of a SEC and NS (R6). -/
def stampNs (t : Nat × Nat × Nat) : Nat := (t.1 * 1000000000 + t.2.1) % 2 ^ 32

/-! ## Ports -/

/-- An Ethernet port. -/
def State.ethOf (s : State) (p : Nat) : EthSt := Tbl.get {} s.eth p

/-- Replace a port. -/
def State.setEth (s : State) (p : Nat) (x : EthSt) : State := { s with eth := Tbl.set {} s.eth p x }

/-- Register `off` of transmit queue `q` of a port (R287). -/
def txqReg (p q off : Nat) : Nat := pageAddr .tmgr p + 0x100 + 0x20 * q + off

/-- A write of `TXQ_TAIL`: the doorbell. A frame posted to an empty queue loses the queue's unused credit (R283). -/
def State.writeTxTail (s : State) (p q : Nat) (v : Word) : State :=
  let a := txqReg p q 0x10
  let empty := decide (s.rg a = s.rg (txqReg p q 0x14))
  let s := s.setRg a v
  let x := s.ethOf p
  if empty && decide (v ≠ s.rg (txqReg p q 0x14)) then
    s.setEth p { x with e := Tbl.upd 0 x.e q fun e => max e (256 * s.time.clk) }
  else s

/-- Port and queue of a `TXQ_TAIL` register at a BAR0 address. -/
def txTailAt (a : Nat) : Option (Nat × Nat) :=
  if 0x710000 ≤ a ∧ a < 0x720000 ∧ 0x100 ≤ a % 0x1000 ∧ a % 0x1000 < 0x500 ∧ a % 0x20 = 0x10 then
    some ((a - 0x710000) / 0x1000, (a % 0x1000 - 0x100) / 0x20)
  else none

end Sys2Proof.Machine
end

