-- ==== Sys2Proof/Machine/Chorus.lean ====
section
/-! DEFINITION. Chorus units (R66 to R81, R87, R104, R105): the fade, k-step issue, accumulation, beats, readout, spill
and restore. -/

namespace Sys2Proof.Machine

/-! ## The task on a cluster -/

/-- Function, item and task on a cluster record, with the task's seed; function 0 without one. -/
def State.onCl (s : State) (k : Nat) : Nat × Nat × Nat × Nat :=
  match (s.clOf k).placed with
  | some (i, t) =>
    (match s.itemOf i, s.taskOf i t with
      | some it, some x => (it.fn, i, t, x.seed)
      | _, _ => (0, i, t, 0))
  | none => (0, 0, 0, 0)

/-- Who an engine of a cluster is, for an expanded index. -/
def State.clWho (s : State) (k : Nat) (e : Engine) (x : Nat) : Who :=
  let o := s.onCl k
  { v := o.1, org := engineOrg k e, x := x, item := o.2.1, task := o.2.2.1 }

/-- Whether the task on a cluster record still runs: no end of it waits for its home. -/
def State.live (s : State) (k : Nat) : Bool :=
  match (s.clOf k).placed with
  | some (i, t) => !(s.work.ends.any fun e => e.1 == i && e.2.1 == t)
  | none => false

/-- Whether the task on a cluster record is a radio or maintenance task. -/
def State.radioOn (s : State) (k : Nat) : Bool :=
  match s.itemOf (s.onCl k).2.1 with
  | some it => it.owner != 0x10
  | none => false

/-- Whether the running order serves the task on a cluster record now (R160, R164). -/
def State.servesCl (s : State) (k : Nat) : Bool :=
  match (s.clOf k).placed, s.logCl (k % 300) with
  | some (i, _), some l => (match s.itemOf i with
    | some it => s.serves l it.owner
    | none => false)
  | _, _ => false

/-- Numeric events of a conversion, in the cluster's counters and the task's summary (R64). -/
def State.countNum (s : State) (k : Nat) (d : Numeric) : State :=
  let up := fun (s : State) (o n : Nat) => if n = 0 then s else s.bump .clus (k % 300) o n
  let s := up (up (up (up (up (up s 0x080 d.sat) 0x084 d.flush) 0x088 d.fbs) 0x08C d.zblk) 0x090 d.nan) 0x094 d.wide
  let o := s.onCl k
  match s.taskOf o.2.1 o.2.2.1 with
  | some x =>
    let a := fun (m n : Nat) => min (m + n) 0xFFFFFFFF
    s.setTask o.2.1 o.2.2.1 { x with num :=
      { sat := a x.num.sat d.sat, flush := a x.num.flush d.flush, fbs := a x.num.fbs d.fbs, zblk := a x.num.zblk d.zblk,
        nan := a x.num.nan d.nan, wide := a x.num.wide d.wide } }
  | none => s

/-- Read a cluster store for a task (R96, R319). -/
def State.storeRead (s : State) (k off n : Nat) : State × Got :=
  if csSize < off + n then (s, .fail stAccess)
  else
    let (s, r) := s.csRead (k % 300) off n
    (s, match r with
      | some b => .ok b
      | none => .fail stPoisoned)

/-- Write a cluster store for a task. -/
def State.storeWrite (s : State) (k off : Nat) (data : List Byte) (poison : Bool) : State × Got :=
  if csSize < off + data.length then (s, .fail stAccess)
  else
    let (s, ok) := s.csWrite (k % 300) (s.onCl k).1 off data poison
    (s, if ok then .ok [] else .fail stPoisoned)

/-! ## The fields of a chorus command (R104) -/

/-- CLASS × 16 + OP of a descriptor. -/
def XDesc.key (d : XDesc) : Nat := bits d.raw 4 4 * 16 + bits d.raw 0 4

/-- Operand groups: four in quadrant mode. -/
def XDesc.groups (d : XDesc) : Nat := if d.key = 0x11 then 4 else 1

/-- Voices and columns of a group. -/
def XDesc.side (d : XDesc) : Nat := if d.key = 0x11 then 16 else 32

/-- Formats and containers of A and B, and the numeric control word. -/
def XDesc.fmtA (d : XDesc) : Nat := bits d.raw 128 4
def XDesc.contA (d : XDesc) : Nat := bits d.raw 132 3
def XDesc.fmtB (d : XDesc) : Nat := bits d.raw 136 4
def XDesc.contB (d : XDesc) : Nat := bits d.raw 140 3
def XDesc.ncw (d : XDesc) : Ncw := ncwOf (bits d.raw 32 32)

/-- K-steps of an issue, and grants of an issue (R68). -/
def XDesc.perIssue (d : XDesc) : Nat := kPerIssue d.fmtA d.fmtB
def XDesc.grants (d : XDesc) : Nat := if d.ncw.pairs then 3 else if d.fmtA = 0 then 4 else 1

/-- Address `f` of group `g`. -/
def XDesc.addr (d : XDesc) (g f : Nat) : Nat := nth 0 d.addrs (9 * g + f)

/-! ## Whether a unit can run (R24, R79, R87) -/

/-- Whether a logical chorus unit has its physical unit and all of its voices. -/
def State.unitWhole (s : State) (k u : Nat) : Bool :=
  let p := s.curMap.cu k u
  decide (p < 13) && (List.range 32).all fun v => decide (s.curMap.vo (k * 13 + p) v < 33)

/-- Whether the accumulating bank is free of an earlier tile: of a readout, in progress or to come once the last issue of its
command is through, and of a spill. -/
def ChorusUnit.bankFree (u : ChorusUnit) : Bool :=
  (u.readout.all fun r => r.1 != u.bank) && u.spilling != some u.bank &&
    u.pipe.all fun p => p.bank != u.bank || match p.cmd with
      | some d => !d.out || decide (p.k + d.perIssue < d.ksteps)
      | none => true

/-- Whether the head of a unit's FIFO can start: its WAIT is satisfied. -/
def State.headReady (s : State) (k u : Nat) : Bool :=
  match (s.cuOf k u).fifo with
  | d :: _ => d.started || (s.seqOf k).ready (waitOf d.raw)
  | [] => false

/-- Whether a unit has work for the task on its cluster. -/
def State.hasWork (s : State) (k u : Nat) : Bool :=
  let un := s.cuOf k u
  s.live k && s.unitWhole k u && (un.cur.isSome || (!un.landed && s.headReady k u))

/-- Whether a unit's next k-step only waits: for a restore, a readout or its scene (R80, R164). -/
def State.holding (s : State) (k u : Nat) : Bool :=
  let un := s.cuOf k u
  un.restoring || !un.bankFree || !s.servesCl k

/-- Whether a unit waits for the run of the radio or maintenance task that is placed for it (R164): every unit that the task's
stream declares wants, whether or not its first command has reached it. -/
def State.awaitsRun (s : State) (k u : Nat) : Bool :=
  s.radioOn k && s.live k && s.unitWhole k u && !s.servesCl k && (s.seqOf k).unitMask.testBit u

/-- Whether a unit wants to issue (R80, R164). An open unit outside its scenes holds nothing: it does not want. -/
def State.wants (s : State) (k u : Nat) : Bool :=
  s.hasWork k u && (s.servesCl k || s.radioOn k) || s.awaitsRun k u

/-- Whether a unit has a ready k-step. -/
def State.kReady (s : State) (k u : Nat) : Bool := s.hasWork k u && !s.holding k u

/-! ## The fade (R80) -/

/-- The ceiling of the chorus units of a cluster (R426 to R428): the quarter's open ceiling, at most 4 while a droop's
response holds; a unit that runs a radio task has none. -/
def State.ceiling (s : State) (k : Nat) : Nat :=
  if s.radioOn k then 8
  else
    let c := fld (s.pr .pwr 0 0x060) (4 * (k / 36)) 4
    if s.time.clk < Tbl.get 0 s.pwr.droopUntil k then min 4 c else c

/-- The end of a 6-cycle phase under a ceiling: the level moves one step toward its target. -/
def ChorusUnit.fadeEnd (u : ChorusUnit) (ceil : Nat) : ChorusUnit :=
  if u.phase < 6 then u
  else { u with phase := 0, level := if u.want && decide (u.level < ceil) then u.level + 1
                                     else if u.want && decide (u.level ≤ ceil) then u.level
                                     else u.level - 1 }

/-- FADE_STEP (R80): the level moves at the end of a phase. -/
def execFadeStep (cl : Fin 144) (u : Fin 12) (s : State) : Host.Outcome State Fault Refusal :=
  perform s fun s => s.setCu cl.val u.val ((s.cuOf cl.val u.val).fadeEnd (s.ceiling cl.val))

/-- One cycle of R80: the unit after it, and whether the cycle is a grant. A phase whose end no FADE_STEP has taken ends
first. -/
def ChorusUnit.cycle (u : ChorusUnit) (ceil : Nat) (want : Bool) : ChorusUnit × Bool :=
  let u := u.fadeEnd ceil
  let u := if want = u.want then u else { u with want := want, phase := 0 }
  if u.level = 0 ∧ !want then ({ u with credit := 0, phase := 0 }, false)
  else
    let level := max 1 u.level
    let c := u.credit + level
    let grant := decide (8 ≤ c)
    ({ u with level := level, credit := if grant then c - 8 else c, phase := u.phase + 1 }, grant)

/-! ## Issue (R68, R70, R71, R85) -/

/-- Lines of `n` bytes at a cluster-store offset. -/
def linesAt (off n : Nat) : List Nat :=
  if n = 0 then [] else (List.range ((off + n - 1) / 64 - off / 64 + 1)).map (off / 64 + ·)

/-- Who a client of the banks is, as a number. -/
def clientCode : BankClient → Nat
  | .chorus u => u.val
  | .restore u => 16 + u.val
  | .readout u => 32 + u.val
  | .spill u => 48 + u.val
  | .clear => 64
  | .vec => 65
  | .mover m => 66 + m.val

/-- The place of a client among the requests of a cycle (R85): the first class by unit, readouts and spills by unit and then
the clearing, the vector unit, the movers. -/
def clientPlace : BankClient → Nat
  | .chorus u => 2 * u.val
  | .restore u => 2 * u.val + 1
  | .readout u => 100 + u.val
  | .spill u => 120 + u.val
  | .clear => 140
  | .vec => 200
  | .mover m => 300 + m.val

/-- The service order of a cluster's requests (R85): the first class of radio and maintenance tasks, then aged requests, then
the others. -/
def State.bankRank (s : State) (k : Nat) (c : BankClient) : Nat :=
  if s.radioOn k && decide (clientPlace c < 100) then clientPlace c
  else if (Tbl.get (0, false) (s.clOf k).waits (clientCode c)).2 then 1000 + clientPlace c else 2000 + clientPlace c

/-- The requests of a cycle that the banks take before a client's. -/
def State.bankBefore (s : State) (k : Nat) (c : BankClient) (others : List BankReq) : List BankReq :=
  others.filter fun r => decide (s.bankRank k r.client < s.bankRank k c)

/-- Whether a bank serves another request in this cycle in place of a client's: one that goes before it in the same bank, but
for two reads of one line. -/
def bankTaken (before : List BankReq) (line : Nat) (write : Bool) : Bool :=
  before.any fun r => decide (r.line.val % 48 = line % 48) && (decide (r.line.val ≠ line) || r.write || write)

/-- A request is refused in this cycle, or served. -/
def State.bankWait (s : State) (k : Nat) (c : BankClient) (refused : Bool) : State :=
  let x := s.clOf k
  let n := (Tbl.get (0, false) x.waits (clientCode c)).1
  s.setCl k { x with waits := Tbl.set (0, false) x.waits (clientCode c) (if refused then (n + 1, false) else (0, false)) }

/-- Writes of a client that meet another requestor's write of the same line pending in this cycle and served first:
collisions (R85). -/
def State.collide (s : State) (k : Nat) (before : List BankReq) (writes : List Nat) : State :=
  writes.foldl (fun s l => if before.any fun r => r.write && decide (r.line.val = l)
    then (s.bump .clus k 0x07C 1).raise (pageAt .clus k) 8 (csInfo (64 * l)) else s) s

/-- A client asks the banks for lines beside the other requests of a cycle: whether it is served (R85). -/
def State.bankServe (s : State) (k : Nat) (c : BankClient) (reads writes : List Nat) (others : List BankReq) : State × Bool :=
  let before := s.bankBefore k c others
  let refused := reads.any (fun l => bankTaken before l false) || writes.any fun l => bankTaken before l true
  ((s.collide k before writes.eraseDups).bankWait k c refused, !refused)

/-- Bytes that an operand of an issue reads, and where: the element plane, in pair mode the lo plane if there is one, and at a
K-block's first issue the scales and the soloist words. `f` is 0 for A and 3 for B. -/
def XDesc.reads (d : XDesc) (k g f fmt cont istr : Nat) (held : Option Nat) : List (Nat × Nat) :=
  let n := packedBytes fmt (d.side * d.perIssue)
  let at_ := d.addr g f + k / d.perIssue * istr
  let e := (at_ % 2 ^ 32, n)
  if d.ncw.pairs then e :: ((Config.loPlane d.raw (f / 3)).map fun x => ((at_ + x) % 2 ^ 32, n)).toList
  else if cont = 0 then [e]
  else
    let kb := k / contN cont
    if held = some kb then [e]
    else
      let sc := ((d.addr g (f + 1) + kb * d.side) % 2 ^ 32, d.side)
      if contSolo cont then [e, sc, ((d.addr g (f + 2) + 4 * kb * d.side) % 2 ^ 32, 4 * d.side)] else [e, sc]

/-- Every read of the next issue of a unit: group after group, A before B. -/
def ChorusUnit.allReads (u : ChorusUnit) (d : XDesc) : List (Nat × Nat) :=
  (List.range d.groups).flatMap fun g =>
    d.reads u.issued g 0 d.fmtA d.contA (bits d.raw 224 32) u.heldA
      ++ d.reads u.issued g 3 d.fmtB d.contB (bits d.raw 256 32) u.heldB

/-- Start the head of a unit's FIFO as its running command, when it may: a unit that holds the task's context restores it
first, and one that holds another's takes the work of radio and maintenance tasks alone (R77, R79). -/
def State.startCmd (s : State) (k u : Nat) : State :=
  let un := s.cuOf k u
  if un.cur.isSome || decide (un.sub ≠ 0) || !s.hasWork k u then s
  else if un.ctx.isSome && un.ctx == (s.clOf k).placed then s.setCu k u { un with restoring := true }
  else if un.ctx.isSome && !s.radioOn k then s
  else
      let (s, d) := s.startHead k (.unit ⟨u % 12, Nat.mod_lt _ (by decide)⟩)
      match d with
      | none => s
      | some d =>
        let un := s.cuOf k u
        s.setCu k u { un with fifo := un.fifo.drop 1, cur := some d, issued := d.k0, heldA := none, heldB := none,
                              owner := (s.clOf k).placed }

/-- Read a list of store ranges, in order. -/
def State.readAll (s : State) (k : Nat) (l : List (Nat × Nat)) : State × Nat × List Byte :=
  l.foldl (fun (p : State × Nat × List Byte) r =>
    if p.2.1 ≠ 0 then p
    else
      let (s, g) := p.1.storeRead k r.1 r.2
      match g with
      | .ok b => (s, 0, p.2.2 ++ b)
      | .fail st => (s, st, [])
      | .wait => (s, stAccess, [])) (s, 0, [])

/-- What one operand of an issue reads in every group: element codes, scales (in pair mode the lo plane) and soloist words,
the latter two held when the K-block is. -/
def State.readOperand (s : State) (k : Nat) (d : XDesc) (kk f fmt cont istr : Nat) (held : Option Nat)
    (scale solo : List Nat) : State × Nat × List Nat × List Nat × List Nat :=
  let r := (List.range d.groups).map fun g => d.reads kk g f fmt cont istr held
  let n := d.side * d.perIssue
  let (s, st, el) := s.readAll k (r.map fun l => nth (0, 0) l 0)
  let pb := packedBytes fmt n
  let codes := (List.range d.groups).flatMap fun g =>
    let x := leNat ((el.drop (pb * g)).take pb)
    (List.range n).map fun i => element fmt x i
  if st ≠ 0 then (s, st, [], scale, solo)
  else if d.ncw.pairs then
    let (s, st, lo) := s.readAll k (r.flatMap fun l => l.drop 1)
    (s, st, codes, (pieces 4 (lo.length / 4 + 1) lo).map leNat, [])
  else if cont = 0 ∨ held = some (kk / contN cont) then (s, 0, codes, scale, solo)
  else
    let (s, st, sc) := s.readAll k (r.map fun l => nth (0, 0) l 1)
    let (s, st2, so) := if contSolo cont then s.readAll k (r.map fun l => nth (0, 0) l 2) else (s, 0, [])
    (s, max st st2, codes, sc.map (·.toNat), (pieces 4 (so.length / 4 + 1) so).map leNat)

/-- A unit issues its next k-steps (R68, R71). A failing access ends the task. The cycle in which an issue of several cycles
(R81) is made is the one that ends the beat when the k-step is the last (DESIGN CHOICE, log 57). -/
def State.issueK (s : State) (k u : Nat) (d : XDesc) : State :=
  let un := s.cuOf k u
  let (s, stA, a, asc, aso) := s.readOperand k d un.issued 0 d.fmtA d.contA (bits d.raw 224 32) un.heldA un.held.aScale un.held.aSolo
  let (s, stB, b, bsc, bso) :=
    if stA ≠ 0 then (s, stA, [], [], [])
    else s.readOperand k d un.issued 3 d.fmtB d.contB (bits d.raw 256 32) un.heldB un.held.bScale un.held.bSolo
  if stB ≠ 0 then (s.setCu k u { un with cur := none, issued := 0 }).failX k stB d.line
  else
    let e : KIssue :=
      { cmd := some d, bank := un.bank, k := un.issued, stale := un.issued == 0 && !d.clr && !un.part, a := a, b := b,
        aScale := asc, bScale := bsc, aSolo := aso, bSolo := bso }
    let n := un.issued + d.perIssue
    let last := decide (d.ksteps ≤ n)
    let un := { un with
      pipe := un.pipe ++ [e], held := e, heldA := some (un.issued / contN d.contA), heldB := some (un.issued / contN d.contB),
      sub := d.grants - 1, issued := if last then 0 else n, cur := if last then none else some d,
      bank := if last && d.out then 1 - un.bank else un.bank, part := !(last && d.out),
      lines := 0 }
    (s.setCu k u un).bump64 .clus k 0x060 1

/-- Whether the beat of a unit is at its end (R75): its command has issued its last k-step, or its 512 cycles are over. -/
def ChorusUnit.beatOver (u : ChorusUnit) : Bool := decide (0 < u.beatCyc) && (u.cur.isNone || decide (512 ≤ u.beatCyc))

/-- A beat ends, and a preemption request lands there (R75, R76). -/
def State.endBeat (s : State) (k u : Nat) : State :=
  let un := s.cuOf k u
  if !un.beatOver then s
  else ((((s.setCu k u { un with beatCyc := 0 }).bump .clus k 0x070 1).landUnit k u).wrapUp k)

/-- BEAT_END (R75). -/
def execBeatEnd (cl : Fin 144) (u : Fin 12) (s : State) : Host.Outcome State Fault Refusal :=
  perform s fun s => s.endBeat cl.val u.val

/-- The grant of a cycle is used (R81): a multi-cycle issue advances, a ready k-step issues or is refused by a bank, or a
filler issues. `others` are the requests of the cycle's other clients (R85). -/
def State.useGrant (s : State) (k : Nat) (v : Fin 12) (others : List BankReq) : State :=
  let u := v.val
  let un := s.cuOf k u
  if un.sub ≠ 0 then s.setCu k u { un with sub := un.sub - 1 }
  else match un.cur with
    | none => if un.want then s.bump64 .clus k 0x068 1 else s
    | some d =>
      if s.holding k u then (if un.want then s.bump64 .clus k 0x068 1 else s)
      else
        let lines := ((un.allReads d).flatMap fun r => linesAt r.1 r.2).eraseDups
        let banks := lines.map (· % 48)
        let most := maxBy (fun b => (banks.filter (· == b)).length) banks
        let (s, ok) := s.bankServe k (.chorus v) lines [] others
        if !ok then s.bump .clus k 0x078 1
        else if un.lines + 1 < most then (s.setCu k u { un with lines := un.lines + 1 }).bump .clus k 0x078 1
        else s.issueK k u d

/-- KSTEP_ISSUE (R71, R80, R81): one cycle of a chorus unit. -/
def execKstepIssue (cl : Fin 144) (u : Fin 12) (others : List BankReq) (s : State) : Host.Outcome State Fault Refusal :=
  perform s fun s =>
    let s := s.endBeat cl.val u.val
    let s := s.startCmd cl.val u.val
    let (un, grant) := (s.cuOf cl.val u.val).cycle (s.ceiling cl.val) (s.wants cl.val u.val)
    let s := s.setCu cl.val u.val { un with beatCyc := un.beatCyc + bn (un.cur.isSome) }
    if grant then s.useGrant cl.val u others else s

/-- BANK_REQUEST_AGED (R85): a request refused for 16 consecutive cycles is aged for its next cycle. -/
def execBankRequestAged (cl : Fin 144) (client : BankClient) (s : State) : Host.Outcome State Fault Refusal :=
  perform s fun s =>
    let x := s.clOf cl.val
    let n := (Tbl.get (0, false) x.waits (clientCode client)).1
    if 16 ≤ n then s.setCl cl.val { x with waits := Tbl.set (0, false) x.waits (clientCode client) (n, true) } else s

/-! ## Accumulation (R51 to R57, R71, R87) -/

/-- The factor of element (t, kk) of an operand of an issue in group `g`. -/
def factorAt (d : XDesc) (k fmt cont : Nat) (codes scale solo : List Nat) (g t kk : Nat) : Factor :=
  let code := nth 0 codes (g * d.side * d.perIssue + kk * d.side + t)
  if cont = 0 then ⟨fmt, 0, decodeFmt (fmtOf fmt) code⟩
  else
    let sc := nth 0 scale (g * d.side + t)
    let w := nth 0 solo (g * d.side + t)
    let n := contN cont
    if blockNan (contSolo cont) n sc w then ⟨fmt, 0, .nan⟩
    else match soloOf (contSolo cont) n w with
      | some (j, c) => if (k + kk) % n = j then ⟨16, 0, decodeFmt (fmtOf 4) c⟩
          else ⟨fmt, (sc : Int) - 127, decodeFmt (fmtOf fmt) code⟩
      | none => ⟨fmt, (sc : Int) - 127, decodeFmt (fmtOf fmt) code⟩

/-- One accumulator entry of voice `i` and column `j` of group `g` takes the k-steps of an issue (R51, R52, R54, R57). -/
def KIssue.accumulate (e : KIssue) (d : XDesc) (g i j : Nat) (c : Acc) : Acc :=
  (List.range d.perIssue).foldl (fun c kk =>
    let fa := factorAt d e.k d.fmtA d.contA e.a e.aScale e.aSolo g i kk
    let fb := factorAt d e.k d.fmtB d.contB e.b e.bScale e.bSolo g j kk
    let at_ := fun (t : Nat) => (g * d.perIssue + kk) * d.side + t
    if isNarrow d.fmtA then c.addExact fa fb
    else if d.ncw.pairs then
      c.addPair (pairSplit (nth 0 e.a (at_ i)) (nth 0 e.aScale (at_ i))) (pairSplit (nth 0 e.b (at_ j)) (nth 0 e.bScale (at_ j)))
    else c.addF32 fa.v fb.v) c

/-- Group of voice `i` and column `j`, with the voice and column within it (R74). -/
def XDesc.quadOf (d : XDesc) (i j : Nat) : Nat × Nat × Nat :=
  if d.key = 0x11 then (i / 16 * 2 + j / 16, i % 16, j % 16) else (0, i, j)

/-- An accumulator entry of which the manual fixes nothing (log 2). -/
def freeAcc (n : Nat) : Acc :=
  { a := BitVec.ofNat 96 ((Config.freeWord n).toNat + 2 ^ 32 * (Config.freeWord (n + 1)).toNat
      + 2 ^ 64 * (Config.freeWord (n + 2)).toNat), t := 0, h := 0, n := 1 }

/-- Where an MMA that continues a tile starts when none is open (log 2). -/
def openAcc (raw i : Nat) : Acc := { a := Config.openEntry raw i, t := 0, h := 0, n := 1 }

/-- The bank after an issue's products have reached it. A cleared tile starts from cleared entries; a command that
continues where no tile is open starts from entries that the manual does not give. A voice with a residue mismatch holds
entries that the manual does not give. -/
def KIssue.update (e : KIssue) (d : XDesc) (free : Nat) (old : List Acc) (bad : Option Nat) : List Acc :=
  let old := if e.k = 0 ∧ d.clr then [] else old
  (List.range 1024).zip (old ++ List.replicate (1024 - old.length) ({} : Acc)) |>.map fun p =>
    let i := p.1 / 32
    let j := p.1 % 32
    if bad = some i then freeAcc (free + 3 * p.1)
    else
      let q := d.quadOf i j
      e.accumulate d q.1 q.2.1 q.2.2 (if e.stale then openAcc d.raw p.1 else p.2)

/-- The logical voice that a physical voice of a unit serves. -/
def State.voiceOf (s : State) (k u v : Nat) : Option Nat :=
  least (fun i => s.curMap.vo (k * 13 + s.curMap.cu k u) i == v) 32

/-- `PG_ERR_INFO` of a chorus unit and voice (R92). -/
def cuInfo (unit voice : Nat) : Word := BitVec.ofNat 32 (unit + 16 * voice + 0x3F * 1024)

/-- The oldest issue in flight reaches the accumulators (R71); at the tile's last k-step the bank is complete and reads
out, or the command is over. -/
def State.accumulateOne (s : State) (k u : Nat) (bad : Option Nat) : State :=
  let un := s.cuOf k u
  match un.pipe with
  | [] => s
  | e :: rest =>
    match e.cmd with
    | none => s.setCu k u { un with pipe := rest }
    | some d =>
      let v := bad.bind (s.voiceOf k u)
      let acc := e.update d s.free (Tbl.get [] un.acc e.bank) v
      let last := decide (d.ksteps ≤ e.k + d.perIssue)
      let un := { un with
        pipe := rest, acc := Tbl.set [] un.acc e.bank acc,
        readout := if last && d.out then un.readout ++ [(e.bank, 0, d)] else un.readout,
        fin := if last && !d.out then un.fin ++ [d] else un.fin }
      let s := s.setCu k u un
      let s := if v.isSome then { s with free := s.free + 3072 } else s
      match bad with
      | some p => (s.bump .clus k 0x09C 1).raise (pageAt .clus k) 3 (cuInfo (s.curMap.cu k u) p)
      | none => s

/-- An uncorrectable error of the (72,64) code in a voice's entries of a bank, found as they are read (R87): source 0x1004
names the unit, the voice and, in the bank field, the accumulator bank (DEDUCED, log 58), and the entries are free (log 2). -/
def State.eccLost (s : State) (k u bank : Nat) (ecc : Option (Fin 33)) : State :=
  match ecc with
  | none => s
  | some p =>
    let un := s.cuOf k u
    let old := Tbl.get [] un.acc bank
    let v := s.voiceOf k u p.val
    let acc := (List.range 1024).map fun i => if some (i / 32) = v then freeAcc (s.free + 3 * i) else nth {} old i
    let s := { s.setCu k u { un with acc := Tbl.set [] un.acc bank acc } with free := s.free + 3072 }
    s.raise (pageAt .clus k) 4 (BitVec.ofNat 32 (s.curMap.cu k u + 16 * p.val + 1024 * bank))

/-- ACCUMULATOR_UPDATE (R71, R87). -/
def execAccumulatorUpdate (cl : Fin 144) (u : Fin 12) (residue ecc : Option (Fin 33)) (s : State) :
    Host.Outcome State Fault Refusal :=
  perform s fun s =>
    let s := match (s.cuOf cl.val u.val).pipe with
      | e :: _ => s.eccLost cl.val u.val e.bank ecc
      | [] => s
    s.accumulateOne cl.val u.val (residue.map (·.val))

/-! ## Readout (R73, R74) -/

/-- Write converted values: an element plane at `addr`, and for a block container the scale and soloist planes from block
`blk` on. A last block that the values do not fill, which the manual leaves to software to avoid, is encoded from the values
there are (DESIGN CHOICE, log 57). Answers what was counted, and whether a write failed. -/
def State.putValues (s : State) (k : Nat) (n : Ncw) (seed origin addr scale solo blk : Nat) (v : List Val) :
    State × Numeric × Nat :=
  let w := (fmtOf n.fmt).width
  let e0 : Int := ((addr : Int) - origin) * 8 / w
  let draw := fun (i : Nat) => srDraw seed n.stream (((origin : Int) + e0 + i) % (2 ^ 48 : Nat)).toNat
  if n.cont = 0 then
    let c := v.zipIdx.map fun p => convert (fmtOf n.fmt) n.rmode n.ovf (draw p.2) p.1
    let (s, g) := s.storeWrite k addr (leBytes (packedBytes n.fmt v.length) (packElems n.fmt (c.map (·.1)))) false
    (s, countFlags {} (c.map (·.2)), match g with
      | .fail st => st
      | _ => 0)
  else
    let nb := contN n.cont
    let bs := (pieces nb (v.length / nb + 1) v).zipIdx.map fun p => storeBlock n (fun i => draw (nb * p.2 + i)) p.1
    let codes := bs.flatMap (·.codes)
    let num := bs.foldl (fun (a : Numeric) b => countZero (countFlags a b.flags) b.zero) {}
    let (s, g1) := s.storeWrite k addr (leBytes (packedBytes n.fmt codes.length) (packElems n.fmt codes)) false
    let (s, g2) := s.storeWrite k ((scale + blk) % 2 ^ 32) (bs.map fun b => BitVec.ofNat 8 b.scale) false
    let (s, g3) := if contSolo n.cont
      then s.storeWrite k ((solo + 4 * blk) % 2 ^ 32) (bs.flatMap fun b => leBytes 4 b.word) false
      else (s, .ok [])
    (s, num, [g1, g2, g3].foldl (fun m g => match g with
      | .fail st => max m st
      | _ => m) 0)

/-- Entries of readout vector `n` of a tile or quadrant: one column, or one voice with TRANSPOSE. -/
def XDesc.vector (d : XDesc) (acc : List Acc) (g n : Nat) : List Acc :=
  (List.range d.side).map fun x =>
    let i := if bit d.raw 146 then n else x
    let j := if bit d.raw 146 then x else n
    let r := if d.groups = 4 then g / 2 * 16 else 0
    let c := if d.groups = 4 then g % 2 * 16 else 0
    nth {} acc ((r + i) * 32 + c + j)

/-- Read out vector `n` of group `g`: converted under R56 or R57 and written at C_ADDR + n × C_RSTR. -/
def State.readVector (s : State) (k : Nat) (d : XDesc) (acc : List Acc) (g n : Nat) : State × Nat :=
  let l := d.vector acc g n
  let addr := (d.addr g 6 + n * bits d.raw 288 32) % 2 ^ 32
  if d.ncw.pairs then
    let put := fun (s : State) (a : Nat) (v : List Nat) =>
      s.putValues k d.ncw (s.onCl k).2.2.2 (nth 0 d.origins g) a 0 0 0 (v.map ofF32)
    let (s, n1, st1) := put s addr (l.map fun (a : Acc) => a.readPair.1)
    let (s, n2, st2) := match Config.loPlane d.raw 2 with
      | some x => put s ((addr + x) % 2 ^ 32) (l.map fun (a : Acc) => a.readPair.2)
      | none => (s, {}, 0)
    ((s.countNum k n1).countNum k n2, max st1 st2)
  else
    let vals := l.map fun a => if isNarrow d.fmtA then a.readExact else (ofF32 (a.a.toNat % 2 ^ 32), false)
    let wide := (vals.filter (·.2)).length
    let blk := n * (d.side / contN d.ncw.cont)
    let (s, num, st) := s.putValues k d.ncw (s.onCl k).2.2.2 (nth 0 d.origins g) addr (d.addr g 7) (d.addr g 8) blk
      (vals.map (·.1))
    (s.countNum k { num with wide := wide }, st)

/-- The lines that readout vector `n` of group `g` writes. -/
def XDesc.vectorLines (d : XDesc) (g n : Nat) : List Nat :=
  let c := d.ncw
  let at_ := (d.addr g 6 + n * bits d.raw 288 32) % 2 ^ 32
  let bytes := packedBytes c.fmt d.side
  let m := if c.cont = 0 then 0 else d.side / contN c.cont
  linesAt at_ bytes
    ++ (if c.pairs then ((Config.loPlane d.raw 2).map fun x => linesAt ((at_ + x) % 2 ^ 32) bytes).getD [] else [])
    ++ linesAt ((d.addr g 7 + n * m) % 2 ^ 32) m
    ++ linesAt ((d.addr g 8 + 4 * n * m) % 2 ^ 32) (if contSolo c.cont then 4 * m else 0)

/-- One cycle of a readout: one vector of 32 values, or two of 16 in quadrant mode. After the last the bank is free and
the command over. A tile of a stream that has passed on is that stream's (R117). -/
def State.readoutOne (s : State) (k u : Nat) : State :=
  let un := s.cuOf k u
  match un.readout with
  | [] => s
  | (b, n, d) :: rest =>
    let acc := Tbl.get [] un.acc b
    let r := if d.away then 300 + k else k
    let (s, st) :=
      if d.groups = 4 then
        let (s, st1) := s.readVector r d acc (n / 8) (2 * (n % 8))
        let (s, st2) := s.readVector r d acc (n / 8) (2 * (n % 8) + 1)
        (s, max st1 st2)
      else s.readVector r d acc 0 n
    let un := s.cuOf k u
    let s := if n = 31 then s.setCu k u { un with readout := rest, fin := un.fin ++ [d] }
      else s.setCu k u { un with readout := (b, n + 1, d) :: rest }
    if st ≠ 0 then s.failX r st d.line else s

/-- TILE_READOUT (R73, R74): one cycle of the readout in progress, when its banks serve it (R85). -/
def execTileReadout (cl : Fin 144) (u : Fin 12) (ecc : Option (Fin 33)) (others : List BankReq) (s : State) :
    Host.Outcome State Fault Refusal :=
  perform s fun s =>
    match (s.cuOf cl.val u.val).readout with
    | [] => s
    | (b, n, d) :: _ =>
      let lines := if d.groups = 4 then d.vectorLines (n / 8) (2 * (n % 8)) ++ d.vectorLines (n / 8) (2 * (n % 8) + 1)
        else d.vectorLines 0 n
      let (s, ok) := s.bankServe cl.val (.readout u) [] lines others
      if ok then (s.eccLost cl.val u.val b ecc).readoutOne cl.val u.val else s

/-! ## Spill and restore (R77 to R79) -/

/-- The 24 bytes of a context entry. -/
def Acc.bytes (a : Acc) : List Byte :=
  leBytes 12 a.a.toNat ++ leBytes 2 (unsigned 16 a.t) ++ leBytes 2 (unsigned 16 a.h) ++ leBytes 4 a.n
    ++ leBytes 1 (bn a.pinf + 2 * bn a.ninf + 4 * bn a.nan) ++ [0, 0, 0]

/-- The entry that 24 bytes hold. -/
def accOf (b : List Byte) : Acc :=
  { a := BitVec.ofNat 96 (fb b 0 12), t := signed 16 (fb b 12 2), h := signed 16 (fb b 14 2), n := fb b 16 4,
    pinf := bit (fb b 20 1) 0, ninf := bit (fb b 20 1) 1, nan := bit (fb b 20 1) 2 }

/-- Offset of a logical unit's context slot. -/
def slotAt (u : Nat) : Nat := ctxBase + u * 0x6000

/-- SPILL_COMPLETE (R77): the slot holds the bank, and the context is the outgoing task's; `others` are requests of its cycles
that its writes meet (R85). -/
def execSpillComplete (cl : Fin 144) (u : Fin 12) (ecc : Option (Fin 33)) (others : List BankReq) (s : State) :
    Host.Outcome State Fault Refusal :=
  perform s fun s =>
    let k := cl.val
    let un := s.cuOf k u.val
    match un.spilling with
    | none => s
    | some b =>
      if un.pipe.any (·.bank == b) then s
      else
        let s := s.collide k (s.bankBefore k (.spill u) others) (linesAt (slotAt u.val) 0x6000)
        let s := s.eccLost k u.val b ecc
        let acc := Tbl.get [] (s.cuOf k u.val).acc b
        let fn := match un.leaving.bind fun p => s.itemOf p.1 with
          | some it => it.fn
          | none => 0
        let (s, _) := s.csWrite k fn (slotAt u.val)
          ((acc ++ List.replicate (1024 - acc.length) ({} : Acc)).flatMap Acc.bytes) false
        let un := s.cuOf k u.val
        ((s.setCu k u.val { un with spilling := none, leaving := none, acc := Tbl.set [] un.acc b [],
                                    ctx := un.leaving }).wrapUp k).wrapUp (300 + k)

/-- RESTORE_COMPLETE (R77): the bank holds the slot, and the slot is empty. A slot that reads poisoned fails the restore
and ends the task. -/
def execRestoreComplete (cl : Fin 144) (u : Fin 12) (s : State) : Host.Outcome State Fault Refusal :=
  perform s fun s =>
    let k := cl.val
    let un := s.cuOf k u.val
    if !un.restoring ∨ un.ctx ≠ (s.clOf k).placed then s
    else
      let (s, r) := s.csRead k (slotAt u.val) 0x6000
      let un := s.cuOf k u.val
      match r with
      | some b =>
        s.setCu k u.val { un with
          restoring := false, ctx := none, part := true,
          acc := Tbl.set [] un.acc un.bank ((pieces 24 1025 b).map accOf) }
      | none =>
        ((s.setCu k u.val { un with restoring := false, ctx := none }).raise (pageAt .clus k) 9
          (cuInfo (s.curMap.cu k u.val) 0x3F)).failX k stPoisoned (s.seqOf k).pt.line

/-! ## Whole commands (R104, R74) -/

/-- Run a unit's command to the end of its issues: each issue and its update. -/
def State.runK (s : State) (k u : Nat) : Nat → State
  | 0 => s
  | fuel + 1 =>
    match (s.cuOf k u).cur with
    | none => s
    | some d => if s.holding k u then s else State.runK ((s.issueK k u d).accumulateOne k u none) k u fuel

/-- Accumulate what is in flight. -/
def State.drainPipe (s : State) (k u : Nat) : Nat → State
  | 0 => s
  | fuel + 1 => if (s.cuOf k u).pipe.isEmpty then s else State.drainPipe (s.accumulateOne k u none) k u fuel

/-- Read out every completed bank. -/
def State.readAllOut (s : State) (k u : Nat) : Nat → State
  | 0 => s
  | fuel + 1 => if (s.cuOf k u).readout.isEmpty then s else State.readAllOut (s.readoutOne k u) k u fuel

/-- Run the chorus command at a unit, when it is of a kind, to its completion, by the operations that its single cycles
use. -/
def State.runChorus (s : State) (k u key : Nat) : State :=
  let s := s.startCmd k u
  match (s.cuOf k u).cur with
  | none => s
  | some d =>
    if d.key ≠ key then s
    else
      let s := (s.runK k u d.ksteps).drainPipe k u 1024
      let s := s.readAllOut k u 128
      let un := s.cuOf k u
      let s := if un.cur.isNone ∧ un.beatCyc = 0 ∧ un.fin.length ≠ 0 then s.setCu k u { un with beatCyc := 1 } else s
      (s.endBeat k u).completeHead k (.unit ⟨u % 12, Nat.mod_lt _ (by decide)⟩)

/-- MMA (R104). -/
def execMma (cl : Fin 144) (u : Fin 12) (s : State) : Host.Outcome State Fault Refusal :=
  perform s fun s => s.runChorus cl.val u.val 0x10

/-- MMA_QUAD (R74). -/
def execMmaQuad (cl : Fin 144) (u : Fin 12) (s : State) : Host.Outcome State Fault Refusal :=
  perform s fun s => s.runChorus cl.val u.val 0x11

/-! ## Counters (R89) -/

/-- Clear what a CNT_CLR write of a cluster names. -/
def State.clrClus (s : State) (k : Nat) (v : Word) : State :=
  let s := if fld v 0 1 = 1 then s.clearRegs .clus k (offsets 0x080 0x094) else s
  let s := if fld v 1 1 = 1 then s.clearRegs .clus k (offsets 0x060 0x07C) else s
  if fld v 2 1 = 1 then s.clearRegs .clus k [0x09C] else s

/-- CLUS_CNT_CLR_NUMERIC (R89). -/
def execClusCntClrNumeric (cl : Fin 144) (s : State) : Host.Outcome State Fault Refusal :=
  perform s fun s => s.clrClus cl.val 1

/-- CLUS_CNT_CLR_ACTIVITY (R89). -/
def execClusCntClrActivity (cl : Fin 144) (s : State) : Host.Outcome State Fault Refusal :=
  perform s fun s => s.clrClus cl.val 2

/-- CLUS_CNT_CLR_RESIDUE (R89). -/
def execClusCntClrResidue (cl : Fin 144) (s : State) : Host.Outcome State Fault Refusal :=
  perform s fun s => s.clrClus cl.val 4

end Sys2Proof.Machine
end

