-- ==== Sys2Proof/Machine/Vector.lean ====
section
/-! DEFINITION. The vector unit (R82, R83, R106, R107). -/

namespace Sys2Proof.Machine

/-! ## Operations -/

/-- Format code and bytes of a DTYPE (R106). -/
def dtFmt (dt : Nat) : Nat := if dt = 1 then 1 else if dt = 2 then 10 else 0
def dtBytes (dt : Nat) : Nat := if dt = 1 then 8 else 4

/-- The result of a float operation as a code of its type, rounded once to nearest even (R82). -/
def dtRound (dt : Nat) (v : Val) : Nat := (convert (fmtOf (dtFmt dt)) 0 true 0 v).1

/-- The value of a code of a type. -/
def dtVal (dt c : Nat) : Val := decodeFmt (fmtOf (dtFmt dt)) c

/-- The canonical code of a type in place of any NaN (R36). -/
def dtCanon (dt c : Nat) : Nat := if dt = 2 then c else canonCode (dtFmt dt) c

/-- A result of which the manual states none: a free value fixed by the operation and its operands, whose NaN is canonical
(R36, R178, log 2). -/
def openVop (vopc dt a b c : Nat) : Nat :=
  dtCanon dt (Config.openResult vopc dt (dtCanon dt a) (dtCanon dt b) (dtCanon dt c) % 2 ^ (8 * dtBytes dt))

/-- The smaller or larger of two floats; of a NaN or of zeros of both signs the manual states none. -/
def floatPick (less : Bool) (dt a b : Nat) : Nat :=
  let x := dtVal dt a
  let y := dtVal dt b
  if x = .nan ∨ y = .nan ∨ (x.isZero ∧ y.isZero ∧ a ≠ b) then openVop (if less then 4 else 5) dt a b 0
  else if less then (if y.lt x then b else a) else (if x.lt y then b else a)

/-- A float operation of VMAP. -/
def vopFloat (vopc dt a b c : Nat) : Nat :=
  let x := dtVal dt a
  let y := dtVal dt b
  let z := dtVal dt c
  match vopc with
  | 0x00 => dtRound dt (x.add y)
  | 0x01 => dtRound dt (x.add y.negate)
  | 0x02 => dtRound dt (x.mul y)
  | 0x03 => dtRound dt ((x.mul y).add z)
  | 0x04 => floatPick true dt a b
  | 0x05 => floatPick false dt a b
  | 0x06 => dtRound dt x.abs
  | 0x07 => dtRound dt x.negate
  | 0x08 => if x.lt y then dtRound dt (.fin false 1 0) else 0
  | 0x09 => dtCanon dt (if z.isZero then b else a)
  | 0x10 => dtRound dt ((Val.fin false 1 0).div x)
  | 0x11 => dtRound dt x.sqrt
  | 0x12 => dtRound dt x.rsqrt
  | 0x19 => dtRound dt (x.div y)
  | _ => specialF32 vopc a

/-- An INT32 operation of VMAP; the manual states no result of a shift by 32 or more, nor of ABS and NEG of the smallest
integer. -/
def vopInt (vopc a b c : Nat) : Nat :=
  let x := signed 32 a
  let y := signed 32 b
  let put := unsigned 32
  let free := openVop vopc 2 a b c
  match vopc with
  | 0x00 => put (x + y)
  | 0x01 => put (x - y)
  | 0x02 => put (x * y)
  | 0x03 => put (x * y + signed 32 c)
  | 0x04 => put (min x y)
  | 0x05 => put (max x y)
  | 0x06 => if x = -(2 ^ 31 : Nat) then free else put (if x < 0 then -x else x)
  | 0x07 => if x = -(2 ^ 31 : Nat) then free else put (-x)
  | 0x08 => bn (decide (x < y))
  | 0x09 => if c % 2 ^ 32 = 0 then b else a
  | 0x20 => a &&& b
  | 0x21 => a ||| b
  | 0x22 => a ^^^ b
  | 0x23 => if b < 32 then a * 2 ^ b % 2 ^ 32 else free
  | 0x24 => if b < 32 then a / 2 ^ b else free
  | 0x25 => if b < 32 then put (x / (2 ^ b : Nat)) else free
  | _ => free

/-- One element of VMAP. -/
def vop (vopc dt a b c : Nat) : Nat := if dt = 2 then vopInt vopc a b c else vopFloat vopc dt a b c

/-- How many sources an operation reads. -/
def vopSources (vopc : Nat) : Nat :=
  if vopc = 3 ∨ vopc = 9 then 3
  else if vopc = 6 ∨ vopc = 7 ∨ (0x10 ≤ vopc ∧ vopc ≤ 0x18) then 1 else 2

/-- The combination of two values in a reduction (R83): SUM, MIN or MAX. -/
def redOp (vopc dt a b : Nat) : Nat := vop (if vopc = 0x30 then 0 else if vopc = 0x31 then 4 else 5) dt a b 0

/-- The value of VRED over elements (R106): chunks of 64 by the tree of R83, then in ascending chunk order. In a chunk of
fewer than 64 elements, of which the manual gives no tree, an element without a neighbour goes up a level unchanged (DESIGN
CHOICE, log 57). -/
def reduce (vopc dt : Nat) (l : List Nat) : Nat :=
  let f := redOp vopc dt
  let parts := (pieces 64 (l.length / 64 + 1) l).map fun p => nth 0 (treeSum f 6 p) 0
  match parts with
  | [] => 0
  | a :: r => dtCanon dt (r.foldl f a)

/-- The index of the largest element, the lowest of a tie (R83); with a NaN among the elements the manual gives none. -/
def argmax (dt : Nat) (l : List Nat) : Nat :=
  if l.any fun c => dtVal dt c == .nan then Config.openIndex dt (l.map (dtCanon dt)) % 2 ^ 32
  else (l.zipIdx.foldl (fun (b : Nat × Nat) p => if (dtVal dt b.1).lt (dtVal dt p.1) then p else b)
    (nth 0 l 0, 0)).2

/-! ## Descriptors -/

/-- The elements of a source, as codes. -/
def State.vecSource (s : State) (k : Nat) (d : XDesc) (i dt n : Nat) : State × Nat × List Nat :=
  let (s, g) := s.storeRead k (nth 0 d.addrs i) (n * dtBytes dt)
  match g with
  | .ok b => (s, 0, (pieces (dtBytes dt) n b).map leNat)
  | .fail st => (s, st, [])
  | .wait => (s, stAccess, [])

/-- Write results of `w` bytes at DST and count the NaN values among them (R62). A result whose residue check found a mismatch
is a free value (R87, log 2). -/
def State.vecWrite (s : State) (k : Nat) (d : XDesc) (dt w : Nat) (l : List Nat) (bad : Option Nat) : State × Nat :=
  let wrong := (Config.freeWord s.free).toNat + 2 ^ 32 * (Config.freeWord (s.free + 1)).toNat
  let l := match bad with
    | some i => l.set i (dtCanon dt (wrong % 2 ^ (8 * w)))
    | none => l
  let s := { s with free := s.free + 2 * bn bad.isSome }
  let (s, g) := s.storeWrite k (nth 0 d.addrs 3) (l.flatMap (leBytes w)) false
  match g with
  | .fail st => (s, st)
  | _ => (s.countNum k { nan := (l.filter fun c => dtVal dt c == .nan).length }, 0)

/-- Run a VMAP (R106). -/
def State.runVmap (bad : Option Nat) (s : State) (k : Nat) (d : XDesc) : State × Nat :=
  let vopc := db d.raw 16 1
  let dt := db d.raw 17 1
  let n := db d.raw 20 4
  let imm := bit d.raw 144
  let src := vopSources vopc
  let (s, e0, a) := s.vecSource k d 0 dt n
  let (s, e1, b) := if e0 ≠ 0 ∨ src < 2 then (s, 0, [])
    else if imm then (s, 0, List.replicate n (db d.raw 40 (dtBytes dt))) else s.vecSource k d 1 dt n
  let (s, e2, c) := if e0 ≠ 0 ∨ e1 ≠ 0 ∨ src < 3 then (s, 0, []) else s.vecSource k d 2 dt n
  if e0 ≠ 0 then (s, e0) else if e1 ≠ 0 then (s, e1) else if e2 ≠ 0 then (s, e2)
  else
    let b := if b.isEmpty then List.replicate n 0 else b
    let c := if c.isEmpty then List.replicate n 0 else c
    s.vecWrite k d dt (dtBytes dt) ((a.zip (b.zip c)).map fun p => vop vopc dt p.1 p.2.1 p.2.2) bad

/-- Run a VRED (R106). -/
def State.runVred (bad : Option Nat) (s : State) (k : Nat) (d : XDesc) : State × Nat :=
  let vopc := db d.raw 16 1
  let dt := db d.raw 17 1
  let n := db d.raw 20 4
  let (s, e, a) := s.vecSource k d 0 dt n
  if e ≠ 0 then (s, e)
  else
    if vopc = 0x33 then s.vecWrite k d 2 4 [argmax dt a] bad else s.vecWrite k d dt (dtBytes dt) [reduce vopc dt a] bad

/-- Run a VCVT (R106). -/
def State.runVcvt (bad : Option Nat) (s : State) (k : Nat) (d : XDesc) : State × Nat :=
  let dt := db d.raw 17 1
  let (s, e, a) := s.vecSource k d 0 dt (db d.raw 20 4)
  if e ≠ 0 then (s, e)
  else
    let wrong := (Config.freeWord s.free).toNat + 2 ^ 32 * (Config.freeWord (s.free + 1)).toNat
    let v := (match bad with
      | some i => a.set i (wrong % 2 ^ (8 * dtBytes dt))
      | none => a).map (dtVal dt)
    let s := { s with free := s.free + 2 * bn bad.isSome }
    let (s, num, st) := s.putValues k d.ncw (s.onCl k).2.2.2 (nth 0 d.origins 0) (nth 0 d.addrs 3) (nth 0 d.addrs 1)
      (nth 0 d.addrs 2) 0 v
    (s.countNum k num, st)

/-- The lines that a vector descriptor reads and writes. -/
def XDesc.vecLines (d : XDesc) : List Nat × List Nat :=
  let n := db d.raw 20 4 * dtBytes (db d.raw 17 1)
  let src := fun (i : Nat) => linesAt (nth 0 d.addrs i) n
  if d.key = 0x22 then
    let r := d.ncw
    let m := db d.raw 20 4
    let blocks := if r.cont = 0 then 0 else (m + contN r.cont - 1) / contN r.cont
    (src 0, linesAt (nth 0 d.addrs 3) (packedBytes r.fmt m) ++ linesAt (nth 0 d.addrs 1) blocks
      ++ linesAt (nth 0 d.addrs 2) (if contSolo r.cont then 4 * blocks else 0))
  else if d.key = 0x21 then (src 0, linesAt (nth 0 d.addrs 3) 8)
  else ((List.range (vopSources (db d.raw 16 1))).flatMap fun i => if i = 1 ∧ bit d.raw 144 then [] else src i,
    linesAt (nth 0 d.addrs 3) n)

/-- Run the head of the vector unit's FIFO, when it is of a kind, its WAIT is satisfied and its banks serve it (R85), and
complete it. A residue mismatch raises source 0x1005 (R87). -/
def State.runVec (s : State) (cl key : Nat) (residue : Option Nat) (others : List BankReq)
    (f : Option Nat → State → Nat → XDesc → State × Nat) : State :=
  let k := s.served cl .vec
  match s.fifoOf k .vec with
  | [] => s
  | h :: _ =>
    if h.key ≠ key ∨ !s.live k then s
    else
      let (s, d) := s.startHead k .vec
      match d with
      | none => s
      | some d =>
        if d.ran then s.completeHead k .vec
        else
          let (s, ok) := s.bankServe cl .vec d.vecLines.1 d.vecLines.2 others
          if !ok then s
          else
            let s := if residue.isSome then (s.bump .clus cl 0x09C 1).raise (pageAt .clus cl) 5 (cuInfo 0xF 0x3F) else s
            let (s, st) := f residue s k d
            if st ≠ 0 then s.failX k st d.line else (s.ranHead k .vec).completeHead k .vec

/-- VMAP (R106). -/
def execVmap (cl : Fin 144) (residue : Option Nat) (others : List BankReq) (s : State) : Host.Outcome State Fault Refusal :=
  perform s fun s => s.runVec cl.val 0x20 residue others State.runVmap

/-- VRED (R106). -/
def execVred (cl : Fin 144) (residue : Option Nat) (others : List BankReq) (s : State) : Host.Outcome State Fault Refusal :=
  perform s fun s => s.runVec cl.val 0x21 residue others State.runVred

/-- VCVT (R106). -/
def execVcvt (cl : Fin 144) (residue : Option Nat) (others : List BankReq) (s : State) : Host.Outcome State Fault Refusal :=
  perform s fun s => s.runVec cl.val 0x22 residue others State.runVcvt

end Sys2Proof.Machine
end

