-- ==== Sys2Proof/Machine/Movers.lean ====
section
/-! DEFINITION. The data movers (R86, R108, R319, R356): rows between the cluster store and global memory, atomics and
fences. Rows go in segments of up to 1,024 elements; a descriptor that has to wait goes on where it stopped. -/

namespace Sys2Proof.Machine

/-! ## Bytes with poison (R319) -/

/-- Read a cluster-store range line by line; a poisoned byte reads `none`. -/
def State.storeMarked (s : State) (k off n : Nat) : State × Got × List (Option Byte) :=
  if csSize < off + n then (s, .fail stAccess, [])
  else (lineSpans off n).foldl (fun (p : State × Got × List (Option Byte)) sp =>
    let (s, r) := p.1.csRead (k % 300) (64 * sp.1 + sp.2.1) sp.2.2
    (s, .ok [], p.2.2 ++ match r with
      | some b => b.map some
      | none => List.replicate sp.2.2 none)) (s, .ok [], [])

/-- Read a global range line by line; a poisoned byte reads `none`. Every remote line is asked for before any waits. -/
def State.globalMarked (s : State) (w : Who) (ga n : Nat) : State × Got × List (Option Byte) :=
  (lineSpans ga n).foldl (fun (p : State × Got × List (Option Byte)) sp =>
    match p.2.1 with
    | .fail _ => p
    | g =>
      let (s, r) := p.1.gRead w (64 * sp.1 + sp.2.1) sp.2.2 false
      match r with
      | .ok b => (s, g, p.2.2 ++ b.map some)
      | .wait => (s, .wait, p.2.2)
      | .fail st => if st = stPoisoned then (s, g, p.2.2 ++ List.replicate sp.2.2 none) else (s, .fail st, []))
    (s, .ok [], [])

/-- Write marked bytes line by line: a line that takes a poisoned byte is poisoned. -/
def State.putMarked (s : State) (wr : State → Nat → List Byte → Bool → State × Got) (a : Nat) (l : List (Option Byte)) :
    State × Got :=
  (lineSpans a l.length).foldl (fun (p : State × Got) sp =>
    match p.2 with
    | .ok _ =>
      let m := (l.drop (64 * sp.1 + sp.2.1 - a)).take sp.2.2
      wr p.1 (64 * sp.1 + sp.2.1) (m.map fun b => b.getD 0) (m.any Option.isNone)
    | g => (p.1, g)) (s, .ok [])

/-! ## One side of a transfer -/

/-- Planes of a side: address, row stride, scale plane, soloist plane. -/
structure Side where
  addr : Nat
  str : Nat
  scale : Nat
  solo : Nat
  deriving DecidableEq, Repr

/-- The ranges that elements `e` to `e + n − 1` of row `r` take on a side: element plane, scales, soloist words. `m` is 2^32
for the cluster store and 2^64 for global memory. -/
def Side.ranges (x : Side) (m fmt cont rowElems r e n : Nat) : List (Nat × Nat) :=
  let el := ((x.addr + r * x.str + (fmtOf fmt).width * e / 8) % m, packedBytes fmt n)
  if cont = 0 then [el]
  else
    let nb := contN cont
    let blk := r * (rowElems / nb) + e / nb
    let sc := ((x.scale + blk) % m, n / nb)
    if contSolo cont then [el, sc, ((x.solo + 4 * blk) % m, 4 * (n / nb))] else [el, sc]

/-- The values of `n` elements from the bytes of their ranges; `none` for what a poisoned byte touches. -/
def valuesOf (fmt cont n : Nat) (el sc so : List (Option Byte)) : List (Option Val) :=
  let w := (fmtOf fmt).width
  let x := leNat (el.map fun b => b.getD 0)
  (List.range n).map fun i =>
    let lo := w * i / 8
    let hi := (w * i + w - 1) / 8
    let hurt := (List.range (hi + 1 - lo)).any fun j => (nth none el (lo + j)).isNone
    if cont = 0 then (if hurt then none else some (decodeFmt (fmtOf fmt) (element fmt x i)))
    else
      let b := i / contN cont
      let word := (so.drop (4 * b)).take 4
      if hurt || (nth none sc b).isNone || word.any Option.isNone then none
      else some (blockValue fmt cont ((nth none sc b).getD 0).toNat (leNat (word.map fun y => y.getD 0)) (i % contN cont)
        (element fmt x i))

/-- Bytes of codes, `none` where an element without a value lies. -/
def bytesOfCodes (fmt : Nat) (l : List (Option Nat)) : List (Option Byte) :=
  let w := (fmtOf fmt).width
  let raw := leBytes (packedBytes fmt l.length) (packElems fmt (l.map fun c => c.getD 0))
  raw.zipIdx.map fun p =>
    let lo := 8 * p.2 / w
    let hi := (8 * p.2 + 7) / w
    if (List.range (hi + 1 - lo)).any fun j => decide (lo + j < l.length) && (nth none l (lo + j)).isNone then none
    else some p.1

/-- Values converted by a control word: the bytes of the ranges they take, and what is counted. -/
def convertMarked (n : Ncw) (draw : Nat → Nat) (v : List (Option Val)) : List (List (Option Byte)) × Numeric :=
  if n.cont = 0 then
    let c := v.zipIdx.map fun p => p.1.map (convert (fmtOf n.fmt) n.rmode n.ovf (draw p.2))
    ([bytesOfCodes n.fmt (c.map fun x => x.map (·.1))], countFlags {} (c.filterMap fun x => x.map (·.2)))
  else
    let nb := contN n.cont
    let bs := (pieces nb (v.length / nb + 1) v).zipIdx.map fun p =>
      if p.1.any Option.isNone then none
      else some (storeBlock n (fun i => draw (nb * p.2 + i)) (p.1.map fun x => x.getD .nan))
    let codes := bs.flatMap fun b => match b with
      | some b => b.codes.map some
      | none => List.replicate nb none
    let num := bs.foldl (fun (a : Numeric) b => match b with
      | some b => countZero (countFlags a b.flags) b.zero
      | none => a) {}
    let sc := bs.map fun b => b.map fun b => BitVec.ofNat 8 b.scale
    let so := bs.flatMap fun b => match b with
      | some b => (leBytes 4 b.word).map some
      | none => List.replicate 4 none
    ((if contSolo n.cont then [bytesOfCodes n.fmt codes, sc, so] else [bytesOfCodes n.fmt codes, sc]), num)

/-! ## GET and PUT (R108) -/

/-- Fields of a mover descriptor. -/
def XDesc.mover (d : XDesc) : Nat := db d.raw 16 1 % 4
def XDesc.rows (d : XDesc) : Nat := db d.raw 20 4
def XDesc.rowElems (d : XDesc) : Nat := db d.raw 24 4

/-- The two sides of a transfer. -/
def XDesc.storeSide (d : XDesc) : Side := ⟨nth 0 d.addrs 0, db d.raw 28 4, nth 0 d.addrs 1, nth 0 d.addrs 2⟩
def XDesc.globalSide (d : XDesc) : Side := ⟨nth 0 d.addrs 3, db d.raw 48 8, nth 0 d.addrs 4, nth 0 d.addrs 5⟩

/-- Segments of a row, and of a descriptor. -/
def XDesc.segsPerRow (d : XDesc) : Nat := (d.rowElems + 1023) / 1024
def XDesc.segs (d : XDesc) : Nat := d.rows * d.segsPerRow

/-- Read ranges by a marked reader, in order. -/
def readRanges (rd : State → Nat → Nat → State × Got × List (Option Byte)) (s : State) (l : List (Nat × Nat)) :
    State × Got × List (List (Option Byte)) :=
  l.foldl (fun (p : State × Got × List (List (Option Byte))) r =>
    match p.2.1 with
    | .fail _ => p
    | g =>
      let (s, x, b) := rd p.1 r.1 r.2
      (s, (match g, x with
        | .wait, .fail st => .fail st
        | .wait, _ => .wait
        | _, y => y), p.2.2 ++ [b])) (s, .ok [], [])

/-- Write ranges, in order. -/
def writeRanges (wr : State → Nat → List Byte → Bool → State × Got) (s : State)
    (l : List ((Nat × Nat) × List (Option Byte))) : State × Got :=
  l.foldl (fun (p : State × Got) r => match p.2 with
    | .ok _ => p.1.putMarked wr r.1.1 r.2
    | g => (p.1, g)) (s, .ok [])

/-- Move segment `i` of a GET or PUT. -/
def State.moveSeg (s : State) (k : Nat) (w : Who) (d : XDesc) (i : Nat) : State × Got :=
  let get := d.key == 0x30
  let r := i / d.segsPerRow
  let e := i % d.segsPerRow * 1024
  let n := min 1024 (d.rowElems - e)
  let sf := bits d.raw 136 4
  let sc := bits d.raw 140 3
  let c := d.ncw
  let src := if get then d.globalSide.ranges (2 ^ 64) sf sc d.rowElems r e n
    else d.storeSide.ranges (2 ^ 32) sf sc d.rowElems r e n
  let dst := if get then d.storeSide.ranges (2 ^ 32) c.fmt c.cont d.rowElems r e n
    else d.globalSide.ranges (2 ^ 64) c.fmt c.cont d.rowElems r e n
  let (s, g, b) := readRanges (fun s a m => if get then s.globalMarked w a m else s.storeMarked k a m) s src
  match g with
  | .fail st => (if get then s.raise (pageAt .clus (k % 300)) 6 (BitVec.ofNat 32 (0xFFFF + d.mover * 2 ^ 26)) else s, .fail st)
  | .wait => (s, .wait)
  | .ok _ =>
    let v := valuesOf sf sc n (nth [] b 0) (nth [] b 1) (nth [] b 2)
    let origin : Int := nth 0 d.origins 0
    let e0 : Int := (((nth (0, 0) dst 0).1 : Int) - origin) * 8 / (fmtOf c.fmt).width
    let draw := fun (j : Nat) => srDraw (s.onCl k).2.2.2 c.stream ((origin + e0 + j) % (2 ^ 48 : Nat)).toNat
    let (out, num) := convertMarked c draw v
    let s := s.forget w.org
    if get then
      let (s, g) := writeRanges (fun s a l p => s.storeWrite k a l p) s (dst.zip out)
      (s.countNum k num, g)
    else
      -- room for every write of the segment before the first is made
      let pieces := sumBy (fun x => (lineSpans x.1 x.2).length) dst
      let node := bits (nth (0, 0) dst 0).1 50 14
      if !s.isHome w.v node ∧ (2048 < (s.srcPair node).unacked.length + pieces ∨ 65536 < s.unackedAll + pieces)
      then (s, .wait)
      else
        let (s, g) := writeRanges (fun s a l p => s.gWrite w a l p true) s (dst.zip out)
        match g with
        | .fail st => (s.raise (pageAt .clus (k % 300)) 6 (BitVec.ofNat 32 (0xFFFF + d.mover * 2 ^ 26)), .fail st)
        | .wait => (s, .wait)
        | .ok _ => (s.countNum k num, .ok [])

/-- Record how far the descriptor at the head of a mover's FIFO has come. -/
def State.moverAt (s : State) (k : Nat) (e : Engine) (n : Nat) : State :=
  match s.fifoOf k e with
  | d :: rest => s.setFifo k e ({ d with k0 := n } :: rest)
  | [] => s

/-- Move the segments of a descriptor from `i` on, until one waits or fails. -/
def State.moveSegs (s : State) (k : Nat) (e : Engine) (w : Who) (d : XDesc) : Nat → Nat → State × Got
  | 0, _ => (s, .ok [])
  | fuel + 1, i =>
    let (s, g) := s.moveSeg k w d i
    match g with
    | .ok _ => State.moveSegs (s.moverAt k e (i + 1)) k e w d fuel (i + 1)
    | g => (s, g)

/-- The lines of the cluster store that the next segment of a mover's descriptor reads and writes. -/
def XDesc.moverLines (d : XDesc) : List Nat × List Nat :=
  let i := d.k0
  let e := i % d.segsPerRow * 1024
  let lines := fun (fmt cont : Nat) => (d.storeSide.ranges (2 ^ 32) fmt cont d.rowElems (i / d.segsPerRow) e
    (min 1024 (d.rowElems - e))).flatMap fun r => linesAt r.1 r.2
  match d.key with
  | 0x30 => ([], lines d.ncw.fmt d.ncw.cont)
  | 0x31 => (lines (bits d.raw 136 4) (bits d.raw 140 3), [])
  | 0x32 => ([], linesAt (nth 0 d.addrs 0) (if bit d.raw 152 then 8 else 4))
  | _ => ([], [])

/-- Run the head of a mover's FIFO, when it is of a kind, its WAIT is satisfied, the running order serves the port and its
banks serve it (R85, R86, R160), and complete it once its writes are acknowledged. -/
def State.runMover (s : State) (cl mv key : Nat) (others : List BankReq) (f : State → Nat → Engine → Who → XDesc → State × Got) : State :=
  let e : Engine := .mover ⟨mv % 4, Nat.mod_lt _ (by decide)⟩
  let k := s.served cl e
  match s.fifoOf k e with
  | [] => s
  | h :: _ =>
    if h.key ≠ key ∨ !s.live k ∨ !s.servesCl k then s
    else
      let (s, d) := s.startHead k e
      match d with
      | none => s
      | some d =>
        if d.ran then s.completeHead k e
        else
          let (s, ok) := s.bankServe cl (.mover ⟨mv % 4, Nat.mod_lt _ (by decide)⟩) d.moverLines.1 d.moverLines.2 others
          let (s, g) := if ok then f s k e (s.clWho k e d.x) d else (s, .wait)
          match g with
          | .ok _ => (s.ranHead k e).completeHead k e
          | .wait => s
          | .fail st => s.failX k st d.line

/-- GET and PUT. -/
def State.transfer (s : State) (k : Nat) (e : Engine) (w : Who) (d : XDesc) : State × Got :=
  s.moveSegs k e w d (d.segs - d.k0) d.k0

/-- GET (R108). -/
def execGet (cl : Fin 144) (mv : Fin 4) (others : List BankReq) (s : State) : Host.Outcome State Fault Refusal :=
  perform s fun s => s.runMover cl.val mv.val 0x30 others State.transfer

/-- PUT (R108). -/
def execPut (cl : Fin 144) (mv : Fin 4) (others : List BankReq) (s : State) : Host.Outcome State Fault Refusal :=
  perform s fun s => s.runMover cl.val mv.val 0x31 others State.transfer

/-! ## Atomics (R108, R141, R350) -/

/-- Apply an atomic of a task at a global address; its old value in `n` bytes. Every one carries an effect tag. -/
def State.gAtom (s : State) (w : Who) (ga aopc n o0 o1 : Nat) : State × Got :=
  match s.place w.v ga with
  | .hbm off =>
    if off % n ≠ 0 ∨ !s.ownsHbm w.v off n then (s, .fail stAccess)
    else if s.compareOnly w.v then
      let (s, r) := s.gRead w ga n false
      match r with
      | .ok b =>
        let old := leNat b
        let new := if aopc = 8 then fadd32 old o0 f32add else atomNew aopc n old o0 o1
        (s.shadowPut w off (leBytes n new), .ok b)
      | g => (s, g)
    else if s.hbmWaits off n || !s.sceneFor w (some off) n false || (s.leads w.v && !s.canIssue s.undPeer) then (s, .wait)
    else match s.tagRec s.node off (s.tagFor w) with
      | some r => (s, if r.status = 0 then .ok (leBytes n r.old.toNat) else .fail r.status)
      | none =>
        if s.tagsFull then (s.tagBusy s.node, .wait)
        else
          let (s, st, old) := s.hbmAtom w.v off aopc n o0 o1 f32add (some (w.org, w.x))
          let s := s.recordTag w.v { src := s.node, tag := s.tagFor w, off := off, status := st, old := BitVec.ofNat 64 old }
          (s, if st = 0 then .ok (leBytes n old) else .fail st)
  | .remote dst off =>
    if s.compareOnly w.v then
      let (s, r) := s.gRead w ga n false
      match r with
      | .ok b =>
        let old := leNat (s.shadowed w off b)
        let new := if aopc = 8 then fadd32 old o0 f32add else atomNew aopc n old o0 o1
        (s.shadowPut w off (leBytes n new), .ok (leBytes n old))
      | g => (s, g)
    else match s.landedAt w.org ga with
      | some l => (s, if l.status = 0 then .ok (l.bytes.take n) else .fail l.status)
      | none =>
        if s.fab.reads.any fun o => o.org == w.org && o.addr == ga then (s, .wait)
        else if s.fab.lost.contains dst then (s, .fail stNodeLost)
        else if 4096 ≤ s.fab.reads.length then (s, .wait)
        else
          let rid := s.freeRid
          let r := { mkReq dst off n (s.fnOf w.v).fpid.toNat rid (leBytes 8 o0 ++ leBytes 8 o1) with
            tag := some (s.tagFor w), aopc := BitVec.ofNat 4 aopc, w64 := n == 8 }
          match s.issue tyAtom r (some (w.org, w.x)) (s.ownOf w) with
          | (s, .sent) =>
            (({ s with fab := { s.fab with
              reads := s.fab.reads ++ [{ rid := rid, dst := dst, org := w.org, addr := ga, isAtomic := true }],
              nextRid := (rid + 1) % 65536 } } : State).noteTagNode w.item dst, .wait)
          | (s, .lost) => (s, .fail stNodeLost)
          | (s, .wait) => (s, .wait)
  | _ => (s, .fail stAccess)

/-- ATOMIC: the old value goes to SADDR. -/
def State.moverAtom (s : State) (k : Nat) (_e : Engine) (w : Who) (d : XDesc) : State × Got :=
  let n := if bit d.raw 152 then 8 else 4
  let (s, g) := s.gAtom w (nth 0 d.addrs 3) (db d.raw 18 1) n (db d.raw 88 8) (db d.raw 96 8)
  match g with
  | .ok b => (s.forget w.org).storeWrite k (nth 0 d.addrs 0) b false
  | .wait => (s, .wait)
  | .fail st => (s.raise (pageAt .clus (k % 300)) 6 (BitVec.ofNat 32 (0xFFFF + d.mover * 2 ^ 26)), .fail st)

/-- ATOMIC (R108). -/
def execAtomic (cl : Fin 144) (mv : Fin 4) (others : List BankReq) (s : State) : Host.Outcome State Fault Refusal :=
  perform s fun s => s.runMover cl.val mv.val 0x32 others State.moverAtom

/-! ## Fences (R356) -/

/-- Whether every request up to a point of a pair is acknowledged. -/
def State.ackedTo (s : State) (dst seqNo : Nat) : Bool :=
  (s.srcPair dst).unacked.all fun u => decide (2 ^ 31 ≤ (seqNo + 2 ^ 32 - u.seqNo) % 2 ^ 32)

/-- Start a fence: the last SEQ issued to each destination concerned that has requests outstanding, and a FLUSH to each. -/
def State.startFence (s : State) (k mv x : Nat) (own : Option (Nat × Nat)) (dsts : List Nat) : State :=
  let waits : List (Nat × Nat) := (dsts.filter fun d => !(s.srcPair d).unacked.isEmpty).map fun (d : Nat) => (d, ((s.srcPair d).seqNo + 2 ^ 32 - 1) % 2 ^ 32)
  let s := { s with fab := { s.fab with fences := s.fab.fences ++ [{ cl := k, mv := mv, x := x, waits := waits }] } }
  waits.foldl (fun s w =>
    let r := { mkReq w.1 0 1 0 0 [] with src := nodeFin s.node, seqNo := BitVec.ofNat 32 w.2, epoch := (s.srcPair w.1).epoch }
    (s.transmit tyFlush r own).1) s

/-- FENCE: completes when every destination concerned has acknowledged its recorded SEQ; a lost destination ends it
NODE_LOST. -/
def State.moverFence (s : State) (k : Nat) (_e : Engine) (w : Who) (d : XDesc) : State × Got :=
  let named := bits (nth 0 d.addrs 3) 50 14
  let all := bit d.raw 153
  let mine := fun (f : FenceSt) => f.cl == k && f.mv == d.mover && f.x == d.x
  let s := match s.fab.fences.find? mine with
    | some _ => s
    | none => s.startFence k d.mover d.x (s.ownOf w) (if all then s.fab.src.map (fun (p : Nat × PairSrc) => p.1) else [named])
  match s.fab.fences.find? mine with
  | none => (s, .wait)
  | some f =>
    let gone := { s with fab := { s.fab with fences := s.fab.fences.filter fun x => !mine x } }
    if f.waits.any (fun p => s.fab.lost.contains p.1) || (!all && s.fab.lost.contains named) then (gone, .fail stNodeLost)
    else if f.waits.all fun p => s.ackedTo p.1 p.2 then (gone, .ok [])
    else (s, .wait)

/-- FENCE (R356). -/
def execFence (cl : Fin 144) (mv : Fin 4) (s : State) : Host.Outcome State Fault Refusal :=
  perform s fun s => s.runMover cl.val mv.val 0x33 [] State.moverFence

end Sys2Proof.Machine
end

