-- ==== Sys2Proof/Machine/Stagehands.lean ====
section
/-! DEFINITION. The stagehands (R110 to R115, R124, R186, R189, R388): call threads, the resident routines, and their
watchdogs. A routine first reads all that it reads and plans its writes, its status and its return value; it then writes;
both phases go on where they had to wait. -/

namespace Sys2Proof.Machine

/-! ## Threads -/

/-- A call thread: thread th serves on stagehand th / 7. -/
def State.thOf (s : State) (th : Nat) : Thread := Tbl.get {} s.sh.threads th

/-- Replace a call thread. -/
def State.setTh (s : State) (th : Nat) (x : Thread) : State :=
  { s with sh := { s.sh with threads := Tbl.set {} s.sh.threads th x } }

/-- Whether a stagehand is in service (`CORE_EN`). -/
def State.coreOn (s : State) (core : Nat) : Bool := fld (s.pr .stgh 0 0x068) core 1 == 1

/-- A free thread takes the oldest waiting call (R113). -/
def State.takeCall (s : State) (th : Nat) : State :=
  match (s.thOf th).call, s.sh.callq with
  | none, c :: rest =>
    if s.coreOn (th / 7) then
      ({ s with sh := { s.sh with callq := rest } } : State).setTh th { call := some c }
    else s
  | _, _ => s

/-- CALL_START (R113). -/
def execCallStart (th : Fin 224) (s : State) : Host.Outcome State Fault Refusal := perform s fun s => s.takeCall th.val

/-- Who a call thread is: its accesses are those of the calling task. -/
def State.callWho (s : State) (th : Nat) (c : Call) : Who :=
  { v := match s.itemOf c.item with
      | some it => it.fn
      | none => 0,
    org := 2000 + th, x := c.x, item := c.item, task := c.task }

/-- Line of the CALL descriptor in its stream. -/
def State.callLine (s : State) (c : Call) : Nat :=
  match (s.seqOf c.sq).hist.find? fun h => h.x == c.x with
  | some h => h.pt.line
  | none => 0

/-- What a routine's first phase gives: its writes with its status and return value, not yet, or a failed access. -/
inductive Plan where
  | ready (writes : List (Nat × List Byte)) (status value : Nat)
  | wait
  | fail (st : Nat)
  deriving DecidableEq, Repr

/-- Pieces of at most 16,384 bytes of a write. -/
def writePieces (a : Nat) (b : List Byte) : List (Nat × List Byte) :=
  (pieces 16384 (b.length / 16384 + 1) b).zipIdx.map fun p => ((a + 16384 * p.2) % 2 ^ 64, p.1)

/-- Make the planned writes of a thread, until one waits or fails. -/
def State.callWrites (s : State) (th : Nat) (w : Who) : List (Nat × List Byte) → State × Got
  | [] => (s, .ok [])
  | x :: rest =>
    let (s, g) := s.gWrite w x.1 x.2 false true
    match g with
    | .ok _ => State.callWrites (s.setTh th { s.thOf th with pos := (s.thOf th).pos + 1 }) th w rest
    | g => (s, g)

/-- A routine's access has failed: the calling task ends (R111). -/
def State.failCall (s : State) (c : Call) (st : Nat) : State := s.notice c.item c.task st 0 (s.callLine c)

/-- Run a thread's call when it is of a routine and has no result yet. -/
def State.runCall (s : State) (th rt : Nat) (f : State → Who → Call → State × Plan) : State :=
  let t := s.thOf th
  match t.call with
  | none => s
  | some c =>
    if c.routine ≠ rt ∨ t.result.isSome ∨ !s.coreOn (th / 7) ∨ s.work.ends.any (fun e => e.1 == c.item && e.2.1 == c.task)
    then s
    else
      let w := s.callWho th c
      let (s, p) := match t.plan with
        | some p => (s, Plan.ready p.1 p.2.1 p.2.2)
        | none => f s w c
      match p with
      | .wait => s
      | .fail st => s.failCall c st
      | .ready ws st v =>
        let s := s.setTh th { s.thOf th with plan := some (ws, st, v) }
        let (s, g) := s.callWrites th w (ws.drop (s.thOf th).pos)
        match g with
        | .wait => s
        | .fail st => s.failCall c st
        | .ok _ => s.setTh th { s.thOf th with result := some (st, v) }

/-- Argument `i` of a call. -/
def Call.arg (c : Call) (i : Nat) : Nat := nth 0 c.args i

/-- Read one range, then plan. -/
def State.planRead (s : State) (w : Who) (ga n : Nat) (f : State → List Byte → State × Plan) : State × Plan :=
  let (s, g) := s.gRead w ga n false
  match g with
  | .wait => (s, .wait)
  | .fail st => (s, .fail st)
  | .ok b => f s b

/-- Read several ranges, every one asked for before any waits. -/
def State.planReads (s : State) (w : Who) (l : List (Nat × Nat)) : State × Got × List (List Byte) :=
  l.foldl (fun (p : State × Got × List (List Byte)) r =>
    match p.2.1 with
    | .fail _ => p
    | g =>
      let (s, x) := p.1.gRead w r.1 r.2 false
      match x with
      | .ok b => (s, g, p.2.2 ++ [b])
      | .wait => (s, .wait, p.2.2)
      | .fail st => (s, .fail st, [])) (s, .ok [], [])

/-! ## Memory routines (R111) -/

/-- FILL: the byte at address x takes byte x mod 8 of the pattern. -/
def planFill (s : State) (_w : Who) (c : Call) : State × Plan :=
  let b := (List.range (c.arg 1)).map fun i => BitVec.ofNat 8 (bits (c.arg 2) (8 * ((c.arg 0 + i) % 8)) 8)
  (s, .ready (writePieces (c.arg 0) b) 0 0)

/-- FILL (R111). -/
def execFill (th : Fin 224) (s : State) : Host.Outcome State Fault Refusal :=
  perform s fun s => s.runCall th.val 1 planFill

/-- COPY, as if through a buffer. -/
def planCopy (s : State) (w : Who) (c : Call) : State × Plan :=
  s.planRead w (c.arg 0) (c.arg 2) fun s b => (s, .ready (writePieces (c.arg 1) b) 0 0)

/-- COPY (R111). -/
def execCopy (th : Fin 224) (s : State) : Host.Outcome State Fault Refusal :=
  perform s fun s => s.runCall th.val 2 planCopy

/-- The INT32 indices of an index list. -/
def indices (b : List Byte) : List Int := (pieces 4 (b.length / 4 + 1) b).map fun p => signed 32 (leNat p)

/-- Address of a table row. -/
def rowAddr (table rowBytes : Nat) (i : Int) : Nat := (((table : Int) + i * rowBytes) % (2 ^ 64 : Nat)).toNat

/-- GATHER_ROWS: row i of dst is row index[i] of the table. -/
def planGather (s : State) (w : Who) (c : Call) : State × Plan :=
  s.planRead w (c.arg 1) (4 * c.arg 2) fun s b =>
    let (s, g, rows) := s.planReads w ((indices b).map fun i => (rowAddr (c.arg 0) (c.arg 3) i, c.arg 3))
    match g with
    | .wait => (s, .wait)
    | .fail st => (s, .fail st)
    | .ok _ => (s, .ready (rows.zipIdx.flatMap fun p => writePieces (c.arg 4 + c.arg 3 * p.2) p.1) 0 0)

/-- GATHER_ROWS (R111). -/
def execGatherRows (th : Fin 224) (s : State) : Host.Outcome State Fault Refusal :=
  perform s fun s => s.runCall th.val 3 planGather

/-- The last pair of each index, in list order. -/
def lastOf : List (Int × List Byte) → List (Int × List Byte)
  | [] => []
  | x :: t => if t.any fun y => y.1 == x.1 then lastOf t else x :: lastOf t

/-- SCATTER_ROWS: row index[i] of the table is row i of src; the last of a repeated index wins. -/
def planScatter (s : State) (w : Who) (c : Call) : State × Plan :=
  s.planRead w (c.arg 1) (4 * c.arg 2) fun s b =>
    s.planRead w (c.arg 0) (c.arg 2 * c.arg 3) fun s d =>
      let rows := (indices b).zipIdx.map fun p => (p.1, (d.drop (p.2 * c.arg 3)).take (c.arg 3))
      (s, .ready ((lastOf rows).flatMap fun p => writePieces (rowAddr (c.arg 4) (c.arg 3) p.1) p.2) 0 0)

/-- SCATTER_ROWS (R111). -/
def execScatterRows (th : Fin 224) (s : State) : Host.Outcome State Fault Refusal :=
  perform s fun s => s.runCall th.val 4 planScatter

/-! ## Collectives (R111, R186, R351, R361) -/

/-- Bytes of an element of a reduction's format; 0 for a format that is not listed. -/
def redBytes (fmt : Nat) : Nat := if fmt = 0 ∨ fmt = 0xA then 4 else if fmt = 3 then 2 else 0

/-- BF16 widens to FP32 exactly. -/
def redWiden (fmt x : Nat) : Nat := if fmt = 3 then x % 2 ^ 16 * 2 ^ 16 else x

/-- The order of MIN and MAX: −0 below +0. -/
def redLt (fmt a b : Nat) : Bool :=
  if fmt = 0xA then decide (signed 32 a < signed 32 b)
  else
    let x := ofF32 a
    let y := ofF32 b
    x.lt y || (x.isZero && y.isZero && x.neg && !y.neg)

/-- Combine two values of the tree (R186). -/
def redCombine (fmt op a b : Nat) : Nat :=
  if op = 0 then (if fmt = 0xA then (a + b) % 2 ^ 32 else f32add a b)
  else if fmt ≠ 0xA ∧ (ofF32 a = .nan ∨ ofF32 b = .nan) then nanCode 0
  else if redLt fmt a b = (op == 1) then a else b

/-- Narrow a sum: one rounding to nearest even for BF16, and no change otherwise. -/
def redNarrow (fmt x : Nat) : Nat := if fmt = 3 then (convert (fmtOf 3) 0 true 0 (ofF32 x)).1 else x

/-- The fixed reduction tree over the contributions to one element, in member order (R186). -/
def redTree (fmt op : Nat) (l : List Nat) : Nat :=
  redNarrow fmt (nth 0 (treeSum (redCombine fmt op) l.length (l.map (redWiden fmt))) 0)

/-- The node's group that a call names (R361). -/
def State.groupOf (s : State) (g : Nat) : Group := if g < 64 then Tbl.get {} s.fab.groups g else {}

/-- The status of a collective that changes nothing: 4 for an invalid group, 3 for a lost member. -/
def State.groupStatus (s : State) (g : Nat) : Option Nat :=
  let x := s.groupOf g
  if !x.valid then some 4
  else if x.members.any fun n => n != s.node && s.fab.lost.contains n then some 3
  else none

/-- A list of one entry per member, with this node's own at its rank. -/
def atRank {α : Type} (rank : Nat) (own : α) (others : List α) : List α := others.take rank ++ own :: others.drop rank

/-- Elements of a buffer. -/
def elems (n : Nat) (b : List Byte) : List Nat := (pieces n (b.length / n + 1) b).map leNat

/-- `n` draws of free values. -/
def State.draws (s : State) (n : Nat) : State × List Nat :=
  ({ s with free := s.free + n }, (List.range n).map fun i => (Config.freeWord (s.free + i)).toNat)

/-- Reduce a buffer over the group: the reduced elements. The sum of three or more floating-point contributions in an
adaptive order is not fixed (R186; log 2). -/
def State.reduced (s : State) (c : Call) (rank : Nat) (own : List Nat) (others : List (List Nat)) : State × List Nat :=
  let fmt := c.arg 2
  let op := c.arg 3
  let all := atRank rank own others
  if c.algo = 1 ∧ op = 0 ∧ fmt ≠ 0xA ∧ 3 ≤ all.length then
    let (s, l) := s.draws own.length
    (s, l.map (· % 2 ^ (8 * redBytes fmt)))
  else (s, (List.range own.length).map fun i => redTree fmt op (all.map fun m => nth 0 m i))

/-- A reduction: format and op, group, the members' buffers; `out` says what is written from the reduced elements. -/
def planReduce (others : List (List (BitVec 32))) (out : State → Call → Group → List Nat → State × List (Nat × List Byte))
    (s : State) (w : Who) (c : Call) : State × Plan :=
  let nb := redBytes (c.arg 2)
  if nb = 0 ∨ 2 < c.arg 3 then (s, .ready [] 1 0)
  else match s.groupStatus (c.arg 4) with
    | some st => (s, .ready [] st 0)
    | none =>
      let g := s.groupOf (c.arg 4)
      if others.length + 1 ≠ g.members.length ∨ others.any (fun l => l.length != c.arg 1) then (s, .wait)
      else s.planRead w (c.arg 0) (nb * c.arg 1) fun s b =>
        let (s, r) := s.reduced c g.rank (if c.arg 1 = 0 then [] else elems nb b) (others.map fun l => l.map (·.toNat))
        let (s, ws) := out s c g r
        (s, .ready ws 0 0)

/-- Bytes of reduced elements. -/
def redOut (fmt : Nat) (l : List Nat) : List Byte := l.flatMap fun x => leBytes (redBytes fmt) x

/-- ALLREDUCE (R111): in place. -/
def execAllreduce (th : Fin 224) (others : List (List (BitVec 32))) (s : State) : Host.Outcome State Fault Refusal :=
  perform s fun s => s.runCall th.val 0x10 (planReduce others fun s c _ r => (s, writePieces (c.arg 0) (redOut (c.arg 2) r)))

/-- This member's share of a REDUCE_SCATTER: the elements from RANK × count / n on. A count that the members do not divide
has no stated shares (log 2). -/
def State.share (s : State) (c : Call) (g : Group) (r : List Nat) : State × List (Nat × List Byte) :=
  let n := g.members.length
  let k := r.length / n
  let mine := if r.length % n = 0 then (r.drop (g.rank * k)).take k
    else (List.range k).map fun i => Config.openShare n g.rank r i % 2 ^ (8 * redBytes (c.arg 2))
  (s, writePieces (c.arg 5) (redOut (c.arg 2) mine))

/-- REDUCE_SCATTER (R111). -/
def execReduceScatter (th : Fin 224) (others : List (List (BitVec 32))) (s : State) : Host.Outcome State Fault Refusal :=
  perform s fun s => s.runCall th.val 0x11 (planReduce others State.share)

/-- An exchange of blocks: this node reads `blocks` of them from its source, all that it sends (R111), and its own block is the
one at its rank, or the only one. -/
def planBlocks (n : Nat) (others : List (List Byte)) (blocks : Group → Nat)
    (out : Call → List (List Byte) → List (Nat × List Byte)) (s : State) (w : Who) (c : Call) : State × Plan :=
  match s.groupStatus (c.arg 4) with
  | some st => (s, .ready [] st 0)
  | none =>
    let g := s.groupOf (c.arg 4)
    if others.length + 1 ≠ g.members.length ∨ others.any (fun l => l.length != c.arg n) then (s, .wait)
    else
      let m := c.arg n
      s.planRead w (c.arg 0) (blocks g * m) fun s b =>
        let own := if blocks g = 1 then b else (b.drop (g.rank * m)).take m
        (s, .ready (out c (atRank g.rank own others)) 0 0)

/-- Blocks one after another. -/
def blocksOut (c : Call) (l : List (List Byte)) : List (Nat × List Byte) :=
  l.zipIdx.flatMap fun p => writePieces (c.arg 1 + c.arg 2 * p.2) p.1

/-- ALLGATHER (R111): concatenation in member order. -/
def execAllgather (th : Fin 224) (others : List (List (BitVec 8))) (s : State) : Host.Outcome State Fault Refusal :=
  perform s fun s => s.runCall th.val 0x12 (planBlocks 2 others (fun _ => 1) blocksOut)

/-- ALLTOALL (R111): exchange in member order. -/
def execAlltoall (th : Fin 224) (others : List (List (BitVec 8))) (s : State) : Host.Outcome State Fault Refusal :=
  perform s fun s =>
    s.runCall th.val 0x14 (planBlocks 2 others (fun g => g.members.length) blocksOut)

/-- BROADCAST: the root, a member index, reads its buffer, and every other member stores the root's bytes. -/
def planBroadcast (data : List Byte) (s : State) (w : Who) (c : Call) : State × Plan :=
  match s.groupStatus (c.arg 4) with
  | some st => (s, .ready [] st 0)
  | none =>
    let g := s.groupOf (c.arg 4)
    if g.rank = c.arg 2 then s.planRead w (c.arg 0) (c.arg 1) fun s _ => (s, .ready [] 0 0)
    else if data.length ≠ c.arg 1 then (s, .wait)
    else (s, .ready (writePieces (c.arg 0) data) 0 0)

/-- BROADCAST (R111). -/
def execBroadcast (th : Fin 224) (data : List (BitVec 8)) (s : State) : Host.Outcome State Fault Refusal :=
  perform s fun s => s.runCall th.val 0x13 (planBroadcast data)

/-- BARRIER: every member has called. -/
def planBarrier (s : State) (_w : Who) (c : Call) : State × Plan := (s, .ready [] ((s.groupStatus (c.arg 4)).getD 0) 0)

/-- BARRIER (R111). -/
def execBarrier (th : Fin 224) (s : State) : Host.Outcome State Fault Refusal :=
  perform s fun s => s.runCall th.val 0x15 planBarrier

/-! ## The other routines -/

/-- DIGEST_REGION (R189). -/
def planDigest (s : State) (w : Who) (c : Call) : State × Plan :=
  let role := bits (c.arg 2) 0 4
  match s.taskOf c.item c.task with
  | none => (s, .ready [] 0 0)
  | some x =>
    if role = 0 ∨ 4 < role then (s, .ready [] 1 0)
    else if 63 ≤ x.regions.length + 1 then (s, .ready [] 2 0)
    else if c.arg 1 = 0 ∨ 2 ^ 40 < c.arg 1 then (s, .ready [] 3 0)
    else
      let fin := fun (s : State) (b : List Byte) =>
        (s.setTask c.item c.task { x with regions := insertRegion (c.x, role, regionDigest role b) x.regions },
          Plan.ready [] 0 0)
      if bit (c.arg 2) 8 then
        (if c.sq = 144 ∨ c.sq = 145 then (s, .fail stAccess)
         else
           let (s, g) := s.storeRead c.sq (c.arg 0) (c.arg 1)
           match g with
           | .ok b => fin s b
           | .wait => (s, .wait)
           | .fail st => (s, .fail st))
      else s.planRead w (c.arg 0) (c.arg 1) fin

/-- DIGEST_REGION (R189). -/
def execDigestRegion (th : Fin 224) (s : State) : Host.Outcome State Fault Refusal :=
  perform s fun s => s.runCall th.val 0x20 planDigest

/-- SEM_ARRIVE: adds 1 to the semaphore word and returns its old value. -/
def planSem (s : State) (w : Who) (c : Call) : State × Plan :=
  if c.arg 0 % 8 ≠ 0 then (s, .fail stAccess)
  else
    let (s, g) := s.gAtom w (c.arg 0) 0 8 1 0
    match g with
    | .ok b => (s, .ready [] 0 (leNat b))
    | .wait => (s, .wait)
    | .fail st => (s, .fail st)

/-- SEM_ARRIVE (R111). -/
def execSemArrive (th : Fin 224) (s : State) : Host.Outcome State Fault Refusal :=
  perform s fun s => s.runCall th.val 0x21 planSem

/-- TIME_READ: a base in T64 form, or the LTC in ns. -/
def planTime (s : State) (_w : Who) (c : Call) : State × Plan :=
  if 8 < c.arg 0 then (s, .ready [] 1 0)
  else (s, .ready [] 0 (if c.arg 0 = 8 then s.time.ltcNs else s.t64 (c.arg 0)))

/-- TIME_READ (R111). -/
def execTimeRead (th : Fin 224) (s : State) : Host.Outcome State Fault Refusal :=
  perform s fun s => s.runCall th.val 0x22 planTime

/-- Offset that names a mailbox slot in the effect tag of a post. -/
def mboxSlot (v tm : Nat) : Nat := 0xC010000000 + 0x1000 * v + tm

/-- MBOX_POST (R388): a repeated post answers as the first did (R141). -/
def planMbox (s : State) (w : Who) (c : Call) : State × Plan :=
  let v := bits (c.arg 0) 0 8
  let tm := bits (c.arg 0) 8 1
  let n := c.arg 2
  if n = 0 ∨ 128 < n then (s, .ready [] 1 0)
  else if v ≠ w.v ∨ v = 0 then (s, .ready [] 2 0)
  else match s.tagRec s.node (mboxSlot v tm) (s.tagFor w) with
    | some r => (s, .ready [] r.old.toNat 0)
    | none =>
      if s.tagsFull then (s.tagBusy s.node, .wait)
      else s.planRead w (c.arg 1) n fun s b =>
        let f := s.fnOf v
        let busy := if tm = 1 then f.mb.tmPend else f.mb.ttPend
        let st := if busy then 3 else 0
        let s := if busy then s
          else if tm = 1 then
            (s.setFn v { f with mb := { f.mb with tm := fillSlot f.mb.tm 0 b } }).mbRingTm v n
          else (s.setFn v { f with mb := { f.mb with tt := fillSlot f.mb.tt 0 b } }).mbRingTt v n
        (s.recordTag w.v { src := s.node, tag := s.tagFor w, off := mboxSlot v tm, status := 0, old := BitVec.ofNat 64 st },
          .ready [] st 0)

/-- MBOX_POST (R388). -/
def execMboxPost (th : Fin 224) (s : State) : Host.Outcome State Fault Refusal :=
  perform s fun s => s.runCall th.val 0x30 planMbox

/-! ## Returns (R110) -/

/-- A routine returns once its writes are acknowledged: status and value in the cluster store, the SIG token, and the
sequencer goes on; a SYNC call with a nonzero status ends the task with cause 0x11. -/
def State.returnCall (s : State) (th : Nat) : State :=
  let t := s.thOf th
  match t.call, t.result with
  | some c, some (st, v) =>
    if !s.acked (2000 + th) c.x then s
    else
      let s := (s.setTh th {}).forget (2000 + th)
      let s := s.bump64 .stgh 0 0x060 1
      let (s, g) :=
        if c.sq = 144 ∨ c.sq = 145 then (s, .fail stAccess)
        else
          let (s, g) := s.storeWrite c.sq c.stat (leBytes 4 st) false
          match g with
          | .ok _ => s.storeWrite c.sq (c.stat + 8) (leBytes 8 v) false
          | g => (s, g)
      let line := s.callLine c
      let q := s.seqOf c.sq
      let s := s.setSeq c.sq { q with calls := q.calls - 1, syncWait := q.syncWait && !c.sync }
      match g with
      | .fail e => s.failX c.sq e line
      | _ =>
        (if c.sync && st != 0 then s.endStreamWith c.sq stMalformed 0x11 line else s).doneX c.sq c.x true
  | _, _ => s

/-- CALL_RETURN (R110). -/
def execCallReturn (th : Fin 224) (s : State) : Host.Outcome State Fault Refusal :=
  perform s fun s => s.returnCall th.val

/-! ## Watchdogs (R114, R115) -/

/-- The attempt of a task whose call was aborted ends: after the first expiry of the task it runs again on another cluster, after
a second it ends WATCHDOG (R114). -/
def State.endAttempt (s : State) (i t : Nat) : State :=
  match s.taskOf i t with
  | none => s
  | some x =>
    if 2 ≤ x.wd then s.finishTask i t stWatchdog 0 0
    else s.rerunTask i t true (match x.place with
      | some (_, k) => if x.ty = 1 then some (k % 300) else none
      | none => none)

/-- Abort the calls of threads: each counts as an expiry of its task, then the tasks' attempts end (R114, R115). -/
def State.abortCalls (s : State) (ths : List Nat) : State :=
  let calls := ths.filterMap fun th => (s.thOf th).call.map fun c => (c.item, c.task)
  let s := ths.foldl (fun s th => (s.setTh th {}).forget (2000 + th)) s
  let s := calls.foldl (fun s c => match s.taskOf c.1 c.2 with
    | some x => s.setTask c.1 c.2 { x with wd := x.wd + 1 }
    | none => s) s
  calls.eraseDups.foldl (fun s c => s.endAttempt c.1 c.2) s

/-- THREAD_WATCHDOG_EXPIRE (R114). The manual does not give the information word of source 0x0901 (log 2). -/
def execThreadWatchdogExpire (th : Fin 224) (s : State) : Host.Outcome State Fault Refusal :=
  perform s fun s =>
    if (s.thOf th.val).call.isNone then s
    else
      let s := s.bump .stgh 0 0x058 1
      let info := Config.freeWord s.free
      (({ s with free := s.free + 1 } : State).raise (pageAt .stgh 0) 1 info).abortCalls [th.val]

/-- HEARTBEAT_REFRESH (R115). -/
def execHeartbeatRefresh (core : Fin 32) (s : State) : Host.Outcome State Fault Refusal :=
  perform s fun s =>
    if s.coreOn core.val then { s with sh := { s.sh with beats := Tbl.set 0 s.sh.beats core.val s.time.clk } } else s

/-- A stagehand misses its heartbeat: it is reset and its calls aborted; the third miss within 60 minutes of the first
takes it out of service, on record. -/
def State.missBeat (s : State) (core : Nat) : State :=
  let s := (s.bump .stgh 0 0x05C 1).bump .pwr 0 0x080 1
  let info := Config.freeWord s.free
  let s := ({ s with free := s.free + 1 } : State).raise (pageAt .stgh 0) 2 info
  let now := s.time.clk
  let times := (now :: Tbl.get [] s.sh.misses core).take 3
  let s := { s with sh := { s.sh with misses := Tbl.set [] s.sh.misses core times,
                                      beats := Tbl.set 0 s.sh.beats core now } }
  let s := s.abortCalls ((List.range 7).map (7 * core + ·))
  if times.length = 3 ∧ now ≤ nth 0 times 2 + 3600000000000 then
    (s.setPr .stgh 0 0x068 (setFld (s.pr .stgh 0 0x068) core 1 0)).logEvent (pageAt .stgh 0) 0x0902 1 2 0 core
  else s

/-- HEARTBEAT_MISSED (R115). -/
def execHeartbeatMissed (core : Fin 32) (s : State) : Host.Outcome State Fault Refusal :=
  perform s fun s => if s.coreOn core.val then s.missBeat core.val else s

end Sys2Proof.Machine
end

