-- ==== Sys2Proof/Machine/Queues.lean ====
section
/-! DEFINITION. Queues (R118 to R123, R145, R151) and the Stage Manager's acceptance of their entries (R131, R132, R148,
R149). -/

namespace Sys2Proof.Machine

/-! ## Queue registers -/

/-- Entries of a queue's ring, and records of its completion ring. -/
def State.ringSize (s : State) (v q : Nat) : Nat := 2 ^ fld (s.rg (qreg v q 0x10)) 0 5
def State.cqSize (s : State) (v q : Nat) : Nat := 2 ^ fld (s.rg (qreg v q 0x28)) 0 5

/-- Whether a queue's completion ring has no room (R121). -/
def State.cqFull (s : State) (v q : Nat) : Bool :=
  decide (s.cqSize v q ≤ (s.rg (qreg v q 0x2C) - s.rg (qreg v q 0x30)).toNat)

/-- Completions held for a queue. -/
def State.heldOf (s : State) (v q : Nat) : List Compl := Tbl.get [] s.work.held (v * 16 + q)

/-- Whether the device's Stage Managers run: READY, and no warm reset in progress. -/
def State.smRuns (s : State) : Bool := s.boot.ready && !s.rst.warm

/-- A new stuck stretch begins on a queue (R122). -/
def State.newQStretch (s : State) (v q : Nat) : State :=
  { s with work := { s.work with fired := Tbl.set false s.work.fired (v * 16 + q) false } }

/-- A write of Q_TAIL (R119, R120, R383): ignored during a strike; one that overruns the ring only sets OVERRUN. -/
def State.writeQTail (s : State) (v q : Nat) (tail : Word) : State :=
  if (s.fnOf v).st = .striking ∨ s.shut v then s
  else if s.ringSize v q < (tail - s.rg (qreg v q 0x18)).toNat then
    s.setRg (qreg v q 4) (setFld (s.rg (qreg v q 4)) 1 1 1)
  else s.setRg (qreg v q 0x14) tail

/-- QUEUE_DOORBELL (R120). -/
def execQueueDoorbell (fn : Fin 256) (q : Fin 16) (tail : BitVec 32) (s : State) : Host.Outcome State Fault Refusal :=
  perform s fun s => s.writeQTail fn.val q.val tail

/-- A write of Q_CTRL (R119, R122, R123): one that changes WDOG_MS starts a new stretch. -/
def State.writeQCtrl (s : State) (v q : Nat) (val : Word) : State :=
  let old := fld (s.rg (qreg v q 0)) 8 8
  let s := s.storeAt (qreg v q 0) val
  if old = fld val 8 8 then s else s.newQStretch v q

/-- QUEUE_ENABLE_WRITE (R123). -/
def execQueueEnableWrite (fn : Fin 256) (q : Fin 16) (val : BitVec 32) (s : State) : Host.Outcome State Fault Refusal :=
  perform s fun s => s.writeQCtrl fn.val q.val val

/-- CQ_HEAD_WRITE (R121). -/
def execCqHeadWrite (fn : Fin 256) (q : Fin 16) (val : BitVec 32) (s : State) : Host.Outcome State Fault Refusal :=
  perform s fun s => s.setRg (qreg fn.val q.val 0x30) val

/-- A stuck stretch has reached WDOG_MS: once per stretch, WDOG and the function's source (R122, R395). -/
def State.queueStuck (s : State) (v q : Nat) : State :=
  if fld (s.rg (qreg v q 0)) 8 8 = 0 ∨ s.qDepth v q = 0 ∨ Tbl.get false s.work.fired (v * 16 + q) then s
  else
    let s := { s with work := { s.work with fired := Tbl.set false s.work.fired (v * 16 + q) true } }
    let s := s.setRg (qreg v q 4) (setFld (s.rg (qreg v q 4)) 2 1 1)
    s.raise (fnPage v) 1 (BitVec.ofNat 32 (v + 256 * q))

/-- QUEUE_WATCHDOG_EXPIRE (R122). -/
def execQueueWatchdogExpire (fn : Fin 256) (q : Fin 16) (s : State) : Host.Outcome State Fault Refusal :=
  perform s fun s => s.queueStuck fn.val q.val

/-! ## Acceptance (R118, R120, R131, R148) -/

/-- Whether a queue has an entry that may be accepted now, the prompt book apart. -/
def State.mayAccept (s : State) (v q : Nat) : Bool :=
  s.smRuns && !s.shut v && decide ((s.fnOf v).st = .live) && !(s.fnOf v).freezing && fld (s.rg (qreg v q 0)) 0 1 == 1
    && decide (s.rg (qreg v q 0x14) ≠ s.rg (qreg v q 0x18)) && decide (s.qDepth v q < s.qlimit v q)

/-- Whether a queue entry has cause 0x28 (R118). -/
def entryBad (e : Nat) : Bool :=
  db e 0 1 == 0 || decide (3 < db e 0 1) || decide (1 < db e 1 1) || db e 2 2 != 0 || db e 20 4 != 0 || db e 33 31 != 0

/-- Read the entry of a queue's ring that stands next, at `Q_HEAD` (R119). -/
def State.readEntry (s : State) (v q : Nat) : State × Got :=
  s.gRead (s.smWho v 0 0) (s.pair (qreg v q 0x08) + 64 * ((s.rg (qreg v q 0x18)).toNat % s.ringSize v q)) 64 false

/-- Accept one entry that has been read from a queue's ring. -/
def State.takeEntry (s : State) (v q e : Nat) : State :=
  let base := s.newItem v q (db e 0 1) (db e 1 1 % 2) (db e 4 4) (db e 8 8)
  let s := if s.qDepth v q = 0 then s.newQStretch v q else s
  if entryBad e then
    let (s, i) := (s.forget 7000).recordAccept base true
    s.rejectItem i 0x28
  else if base.kind = 1 then (s.acceptGraph base (db e 16 4) .ring).1
  else if base.kind = 2 then (s.acceptStream base (db e 24 8) (db e 32 1) .ring).1
  else
    let (s, i) := (s.forget 7000).recordAccept base true
    s.releaseItem i

/-- Acceptance: it waits, once with source 0x0802, while the book has no free record, and is tried again when the tail copy
cannot be written (R148, R149). An entry that cannot be read is not accepted, and is read again (log 12). -/
def State.acceptEntry (s : State) (v q : Nat) (tailOk : Bool) : State :=
  if !s.mayAccept v q then s
  else if s.pbFree = 0 then
    (if s.work.bookWait then s
     else ({ s with work := { s.work with bookWait := true } } : State).raise (pageAt .stage (s.homeOpen v)) 2
       (stageInfo v 0xFFF))
  else
    match s.readEntry v q with
    | (s, .ok b) =>
      if tailOk then s.takeEntry v q (leNat b) else s.raise (pageAt .stage (s.homeOpen v)) 4 (stageInfo v 0xFFF)
    | (s, .fail _) => s.forget 7000
    | (s, .wait) => s

/-- ENTRY_ACCEPT (R131). -/
def execEntryAccept (fn : Fin 256) (q : Fin 16) (tailOk : Bool) (s : State) : Host.Outcome State Fault Refusal :=
  perform s fun s => s.acceptEntry fn.val q.val tailOk

/-! ## Completions (R121, R145, R151, R386) -/

/-- Something of an old generation is discarded (R386). -/
def State.discardGen (s : State) (v : Nat) : State :=
  if v = 0 then s
  else (s.setPr .vf v 0x048 (satAdd (s.pr .vf v 0x048) 1)).raise (pageAt .vf v) 3 (BitVec.ofNat 32 v)

/-- Drop the record that a queue's completion belongs to: the item is over, its `Q_DEPTH` entry free. -/
def State.dropItem (s : State) (v q seqNo : Nat) : State :=
  { s with work := { s.work with
      items := s.work.items.filter fun p => !(p.2.fn == v && p.2.queue == q && p.2.seqNo == seqNo),
      held := Tbl.set [] s.work.held (v * 16 + q) ((s.heldOf v q).drop 1) } }

/-- Write a record to a completion ring, and its queue's vector: `none` while the write has to wait. -/
def State.ringWrite (s : State) (v q : Nat) (b : List Byte) : Option State :=
  let tail := s.rg (qreg v q 0x2C)
  let (s, g) := s.gWrite (s.smWho v 0 0) (s.pair (qreg v q 0x20) + 32 * (tail.toNat % s.cqSize v q)) b false false
  match g with
  | .wait => none
  | _ => some ((s.setRg (qreg v q 0x2C) (tail + 1)).msix v q)

/-- Write the next completion of a queue: its lowest sequence number not completed, while the ring has room. One of an old
generation is discarded. -/
def State.writeCompletion (s : State) (v q : Nat) : State :=
  match s.heldOf v q with
  | [] => s
  | c :: _ =>
    if !s.smRuns || decide ((s.fnOf v).st = .striking)
      || s.work.items.any (fun p => p.2.fn == v && p.2.queue == q && decide (p.2.seqNo < c.seqNo)) then s
    else if c.gen ≠ (s.fnOf v).gen.toNat then (s.dropItem v q c.seqNo).discardGen v
    else if s.cqFull v q then s
    else match s.ringWrite v q (c.bytes c.gen) with
      | none => s
      | some s => (s.dropItem v q c.seqNo).newQStretch v q

/-- COMPLETION_WRITE (R121). -/
def execCompletionWrite (fn : Fin 256) (q : Fin 16) (s : State) : Host.Outcome State Fault Refusal :=
  perform s fun s => s.writeCompletion fn.val q.val

/-- Whether one report goes before another: ascending (FUNC, QUEUE, SEQ). -/
def TailCopy.before (a b : TailCopy) : Bool :=
  lexLt [(a.fn : Int), a.queue, a.seqNo] [(b.fn : Int), b.queue, b.seqNo]

/-- The report to write next. -/
def firstReport (l : List TailCopy) : Option TailCopy :=
  l.foldl (fun (b : Option TailCopy) t => match b with
    | none => some t
    | some x => if t.before x then some t else some x) none

/-- Write one report of R151 to the completion ring of PF queue 0. -/
def State.writeReport (s : State) : State :=
  match firstReport s.work.reports with
  | none => s
  | some t =>
    if !s.smRuns || fld (s.rg (qreg 0 0 0)) 0 1 == 0 || s.cqFull 0 0 then s
    else
      let c : Compl :=
        { seqNo := t.seqNo, tag := t.tag, status := stReturned, cause := 0, fn := t.fn, queue := t.queue, gen := t.gen,
          task := 0xFFFFFFFF, tDone := s.tsNow 4, flags := 0x10 }
      match s.ringWrite 0 0 (c.bytes t.gen) with
      | none => s
      | some s => { s with work := { s.work with reports := dropFirst t s.work.reports } }

/-- RETURNED_REPORT_WRITE (R151). -/
def execReturnedReportWrite (s : State) : Host.Outcome State Fault Refusal := perform s State.writeReport

/-- A write of SM_CTRL of any instance: every instance takes the value; an ATTEMPT_MAX of 0 is ignored (R153). -/
def State.writeSmCtrl (s : State) (v : Word) : State :=
  let v' := if fld v 4 4 = 0 then setFld v 4 4 (fld (s.pr .stage 0 0x040) 4 4) else v
  (List.range 6).foldl (fun s i => s.storeAt (pageAddr .stage i + 0x040) v') s

/-- SM_CTRL_WRITE (R153). -/
def execSmCtrlWrite (_inst : Fin 6) (val : BitVec 32) (s : State) : Host.Outcome State Fault Refusal :=
  perform s fun s => s.writeSmCtrl val

end Sys2Proof.Machine
end

