-- ==== Sys2Proof/Machine/Tasks.lean ====
section
/-! DEFINITION. Placement, run-ahead, first dispatch and completion of tasks (R133 to R138, R182 to R184). -/

namespace Sys2Proof.Machine

/-! ## Where a task may go (R134, R162, R183) -/

/-- Whether a unit of a die can take work: its domain neither resets nor is in fault state. -/
def State.domOk (s : State) (d : Nat) : Bool := !(s.rst.doms.contains d) && !s.domFault d

/-- Whether the claims of a logical cluster let a task be placed there (R162, R168): a radio or maintenance task at the start of
the run that it claims, once the run's lead point has passed and until its first scene is over; an open task where the scene serves open
work and no claim waits. -/
def State.runLets (s : State) (it : Item) (i t l : Nat) : Bool :=
  let mine := fun j => match Tbl.look s.ro.claims j with
    | some cl => cl.task == some (i, t)
    | none => false
  if it.radio then mine (2 * l + 1) || (mine (2 * l) && s.runFirst (arbCl l))
  else s.openScene l && !(match Tbl.look s.ro.claims (2 * l + 1) with
    | some cl => cl.claimed
    | none => false)

/-- Whether a re-run task keeps away from a physical cluster: its unit there failed, and its grant has another cluster in
service (R139; log 60). -/
def State.avoids (s : State) (it : Item) (x : Task) (k : Nat) : Bool :=
  x.avoid.contains k && (List.range 128).any fun l => match s.physCl l with
    | some m => s.fitsCl it x l && decide (s.unitSt clsCluster m = .active) && !(x.avoid.contains m)
    | none => false

/-- Whether a logical cluster is free for a CLUSTER task (R79, R162, R424): present, in service, lit or dimmed, with no task
on it, let by the running order, and for an open task no unit holds another task's context. -/
def State.freeCl (s : State) (it : Item) (i t : Nat) (x : Task) (l : Nat) : Bool :=
  match s.physCl l with
  | none => false
  | some k =>
    let c := s.clOf k
    s.fitsCl it x l && decide (s.unitSt clsCluster k = .active) && !s.avoids it x k && decide (c.pwr ≠ .dark)
      && c.placed.isNone && s.domOk (k / 36) && !(s.rst.units.contains ((pageAddr .clus k) / 256)) && fld (s.pr .clus k 8) 0 1 == 1
      && s.runLets it i t l && (it.radio || c.units.all fun u => u.2.ctx.isNone || u.2.ctx == some (i, t))

/-- The cluster a CLUSTER task takes (R134, R193): that of its context, the one its intermission image names, its PIN affinity, the lowest free LIT one, the lowest free
DIMMED one. -/
def State.pickCl (s : State) (it : Item) (i t : Nat) (x : Task) : Option Nat :=
  let free := (List.range 128).filter (s.freeCl it i t x)
  let lit := free.filter fun l => match s.physCl l with
    | some k => decide ((s.clOf k).pwr = .lit)
    | none => false
  match x.ctxAt.bind s.logCl with
  | some l => if free.contains l then some l else lit.head?.orElse fun _ => free.head?
  | none =>
    let saved := if x.back then x.last.filter free.contains else none
    saved.orElse fun _ => lit.head?.orElse fun _ => free.head?

/-- Whether logical core `j` of a tile is free for a DSP task of a partition, its mover of the task before included. -/
def State.freeCore (s : State) (it : Item) (x : Task) (e j : Nat) : Bool :=
  match s.physCore (e * 128 + j) with
  | none => false
  | some k =>
    (s.part it.owner).dsp.getLsbD j && decide (s.unitSt clsDsp k = .active) && !(x.avoid.contains k)
      && (!bit x.flags 1 || x.affinity == j) && s.domOk (4 + e) && !(s.rst.units.contains ((pageAddr .rdsp k) / 256))
      && fld (s.pr .rdsp k 8) 0 1 == 1 && (s.coreOf k).moverRun.isNone
      && (s.placedTasks fun y => y.ty == 2 && (match y.place with
        | some (_, m) => m == k
        | none => false)).isEmpty

/-- The place a task takes: logical and physical index. -/
def State.pick (s : State) (it : Item) (i t : Nat) (x : Task) : Option (Nat × Nat) :=
  let e := (s.part it.owner).tile
  if x.ty = 1 then (s.pickCl it i t x).bind fun l => (s.physCl l).map fun k => (l, k)
  else if x.ty = 2 then
    (least (s.freeCore it x e) 128).bind fun j => (s.physCore (e * 128 + j)).map fun k => (e * 128 + j, k)
  else if s.domOk (4 + e) && (s.placedTasks fun y => y.ty == 3 && (match y.place with
      | some (_, m) => m == e
      | none => false)).isEmpty then some (e, e)
  else none

/-- Whether a task may be placed at all: READY, of an item that runs and whose home is not in reset (R150), of a function that is
LIVE. -/
def State.placeable (s : State) (it : Item) (x : Task) : Bool :=
  s.smRuns && decide (x.st = .ready) && !it.released && !it.returned && decide ((s.fnOf it.fn).st = .live)
    && !(s.fnOf it.fn).freezing && !(s.rst.doms.contains it.home)

/-- The order of R133, after the functions over their share for open CLUSTER tasks (R165). -/
def State.order (s : State) (it : Item) (x : Task) (t : Nat) : List Int :=
  (if !it.radio && x.ty == 1 && s.overShare it.fn then 1 else 0) :: s.rank it x t

/-- Whether no READY task that could take the same unit goes before a task. -/
def State.isFirst (s : State) (it : Item) (x : Task) (t : Nat) (p : Nat × Nat) : Bool :=
  s.work.items.all fun e => e.2.tasks.zipIdx.all fun y =>
    y.1.ty != x.ty || !s.placeable e.2 y.1 || !lexLt (s.order e.2 y.1 y.2) (s.order it x t) ||
      (if x.ty = 1 then !s.freeCl e.2 e.1 y.2 y.1 p.1
       else if x.ty = 2 then (s.part e.2.owner).tile != p.1 / 128 || !s.freeCore e.2 y.1 (p.1 / 128) (p.1 % 128)
       else (s.part e.2.owner).tile != p.1)

/-! ## Run-ahead (R136, R137) -/

/-- The 4 KiB pages of a range: first byte and bytes. -/
def pagesOf (a n : Nat) : List (Nat × Nat) :=
  if n = 0 then []
  else (List.range ((a + n - 1) / 4096 - a / 4096 + 1)).map fun i =>
    let lo := max a ((a / 4096 + i) * 4096)
    (lo, min (a + n) ((a / 4096 + i + 1) * 4096) - lo)

/-- Whether run-ahead may read a page: local with SPEC_OK, or in another node's HBM window. -/
def State.aheadOk (s : State) (v : Nat) (p : Nat × Nat) : Bool :=
  match s.place v p.1 with
  | .hbm off => s.specOk off && s.ownsHbm v off p.2
  | .remote _ off => decide (off + p.2 ≤ hbmSize)
  | _ => false

/-- The reads of a task's run-ahead, through data mover 3. -/
def aheadWho (fn i t k : Nat) : Who := { v := fn, org := k * 8 + 3, x := 2 ^ 32, item := i, task := t }

/-- A page of run-ahead has arrived, and its bytes go to the cluster store. -/
def State.aheadLand (s : State) (i t k fn : Nat) (x : Task) (p : Nat × Nat) (b : List Byte) : State :=
  let off := x.pfDst + (p.1 - x.pfSrc)
  let s := if off + b.length ≤ csSize then (s.csWrite k fn off b false).1 else s
  (s.forget (k * 8 + 3)).setTask i t { x with ahead := 0, aheadAt := x.aheadAt + 1 }

/-- Run ahead for a CUED task on cluster `k`, page after page from the one it stands at, up to the first page that may not be
read: one that this node knows to have SPEC_OK = 0, or whose target refuses the read (log 59). Answers whether a read is
outstanding. -/
def State.aheadOn (s : State) (i t k : Nat) : Nat → State × Bool
  | 0 => (s, false)
  | fuel + 1 =>
    match s.itemOf i, s.taskOf i t with
    | some it, some x =>
      match (pagesOf x.pfSrc x.pfBytes).drop x.aheadAt with
      | [] => (s, false)
      | p :: _ =>
        let w := aheadWho it.fn i t k
        let stop := fun (s : State) => (s.forget w.org).setTask i t { x with ahead := 0, aheadAt := 2 ^ 20 }
        if x.ahead = 0 && (!bit x.flags 0 || fld (s.pr .stage 0 0x040) 0 1 == 0 || !s.aheadOk it.fn p) then (stop s, false)
        else
          let n := (p.2 + 63) / 64
          let count := fun (s : State) => if x.ahead = 0 then s.bump64 .stage it.home 0x070 n else s
          let (s', g) := s.gRead w p.1 p.2 true
          match g with
          | .ok b => State.aheadOn ((count s').aheadLand i t k it.fn x p b) i t k fuel
          | .fail _ => (stop (count s'), false)
          | .wait =>
            match s.place w.v p.1 with
            | .remote _ _ => ((count s').setTask i t { x with ahead := n }, true)
            | _ => (s', true)
    | _, _ => (s, false)

/-- Pages that a run-ahead can span, and one more (R128). -/
def aheadFuel : Nat := 258

/-! ## Placement -/

/-- A sequencer loaded with a task's stream, before its first dispatch. -/
def loadSeq (i t : Nat) (x : Task) (h : Bool × Nat × Nat × Nat × Nat) : Seq :=
  { item := i, task := t, script := x.script, entry := x.entry, adlib := h.1, lines := h.2.1, footLo := h.2.2.1,
    footHi := h.2.2.2.1, unitMask := h.2.2.2.2 }

/-- Place a task at a place (R134, R138): CUED, its CUE record, a SCRIPT attempt's clearing (R184) and run-ahead. A task
that resumes elsewhere than where its context is held runs again from its first line in the same attempt. -/
def State.placeAt (s : State) (i t : Nat) (it : Item) (x : Task) (p : Nat × Nat) (h : Option (Bool × Nat × Nat × Nat × Nat)) :
    State :=
  let k := p.2
  let moved := match x.ctxAt with
    | some c => c != k
    | none => false
  let fresh := x.save.isNone
  let start := decide (x.save.getD {} = {}) || moved
  let s := if moved then s.dropCtx i t else s
  let x := { x with st := .cued, place := some p, last := some p.1, back := false,
                    script := if fresh then s.scriptNow it else x.script,
                    attempt := max 1 x.attempt, ahead := 0, aheadAt := 0,
                    save := if moved then none else x.save, ctxAt := if moved then none else x.ctxAt,
                    num := if moved then {} else x.num, regions := if moved then [] else x.regions }
  let s := s.setTask i t x
  let s := s.journal (s.recOf it kCue 0 t x.attempt 0 x.placeWord)
  if x.ty = 1 then
    let s := s.setCl k { s.clOf k with placed := some (i, t), vec := [], movers := [] }
    let s := s.setSeq k { loadSeq i t x (h.getD (false, 0, 0, 0, 0)) with cause := (s.seqOf k).cause }
    let s := match h with
      | some f => if x.script && start then s.csZero k f.2.2.1 (f.2.2.2.1 - f.2.2.1) else s
      | none => s
    (s.aheadOn i t k aheadFuel).1
  else if x.ty = 3 then s.setSeq (144 + k) (loadSeq i t x (h.getD (false, 0, 0, 0, 0)))
  else
    let s := s.setCore k { s.coreOf k with fn := it.fn, item := i, task := t }
    if x.script then s.dspZero (k * 0x80000) 0x40000 else s

/-- The clusters that an open CLUSTER task could take were the playing open task there not on them, and that come after it under
R133, the last one first. -/
def State.behind (s : State) (it : Item) (i t : Nat) (x : Task) : List (List Int × Nat) :=
  (List.range 128).foldl (fun (l : List (List Int × Nat)) c =>
    match s.physCl c with
    | none => l
    | some k =>
      match (s.clOf k).placed with
      | none => l
      | some (i', t') =>
        match s.itemOf i', s.taskOf i' t' with
        | some it', some x' =>
          let o := s.order it' x' t'
          if it'.owner = 0x10 && decide (x'.st = .playing) && lexLt (s.order it x t) o
              && (s.setCl k { s.clOf k with placed := none }).freeCl it i t x c then
            (match l with
              | (m, a) :: r => if lexLt m o then (o, k) :: (m, a) :: r else (m, a) :: (o, k) :: r
              | [] => [(o, k)])
          else l
        | _, _ => l) []

/-- A READY open CLUSTER task for which no cluster is free preempts one that comes later (R135): the last of them under R133
(DESIGN CHOICE, log 25), unless such a request is on its way. -/
def State.preemptFor (s : State) (it : Item) (i t : Nat) (x : Task) : State :=
  if it.radio || x.ty != 1 then s
  else
    let l := s.behind it i t x
    if l.any fun p => (s.seqOf p.2).draining || (List.range 12).any fun u => (s.cuOf p.2 u).preempt.isSome then s
    else match l with
      | (_, k) :: _ => (s.preemptCl k .openTask).1
      | [] => s

/-- Place a READY task if a unit is free for it and it comes first; with none free it may preempt one (R135). -/
def State.placeTask (s : State) (i t : Nat) : State :=
  match s.itemOf i, s.taskOf i t with
  | some it, some x =>
    if !s.placeable it x then s
    else match s.pick it i t x with
      | none => s.preemptFor it i t x
      | some p =>
        if !s.isFirst it x t p then s
        else
          let (s', h) := s.readHdrs it.fn [x]
          match h with
          | none => s'
          | some h => (s'.forget 7000).placeAt i t it x p (nth none h 0)
  | _, _ => s

/-- TASK_PLACE (R134). -/
def execTaskPlace (item : Nat) (task : Fin 4096) (s : State) : Host.Outcome State Fault Refusal :=
  perform s fun s => s.placeTask item task.val

/-! ## First dispatch and completion -/

/-- A CUED stream dispatches its first descriptor once its cluster is LIT and every run-ahead read has returned: the task is
PLAYING (R136, R138). A preemption requested while it was CUED then lands (log 25). The entry of a DSP task is DSP_TASK_START. -/
def State.firstDispatch (s : State) (i t : Nat) : State :=
  match s.taskOf i t with
  | none => s
  | some x =>
    if x.st ≠ .cued ∨ x.ty = 2 ∨ !s.smRuns then s
    else match x.place with
      | none => s
      | some (l, k) =>
        let sq := if x.ty = 3 then 144 + l else k
        if x.ty = 1 ∧ (s.clOf k).pwr ≠ .lit then s
        else
          let (s, waits) := if x.ty = 1 then s.aheadOn i t k aheadFuel else (s, false)
          if waits then s
          else
            let q := { s.seqOf sq with running := true }
            let s := s.setSeq sq (match x.save with
              | some v => q.resume v
              | none => q)
            let s := s.setTask i t { x with st := .playing, save := none, ahead := 0, aheadAt := 0,
                                            tStart := if x.save.getD {} = {} then s.tsNow (((s.itemOf i).map (·.home)).getD 0) else x.tStart }
            let s := s.dispatch sq fun _ => true
            if x.ty = 1 && (List.range 12).any (fun u => (s.cuOf k u).preempt.isSome) then s.landNow k else s

/-- TASK_FIRST_DISPATCH (R138). -/
def execTaskFirstDispatch (item : Nat) (task : Fin 4096) (s : State) : Host.Outcome State Fault Refusal :=
  perform s fun s => s.firstDispatch item task.val

/-- TASK_COMPLETE (R138). -/
def execTaskComplete (item : Nat) (task : Fin 4096) (pbOk : Bool) (s : State) : Host.Outcome State Fault Refusal :=
  perform s fun s => s.completeTask item task.val pbOk

end Sys2Proof.Machine
end

