-- ==== Sys2Proof/Machine/Dsp.lean ====
section
/-! DEFINITION. Radio DSP cores (R206 to R231): bundles and their checks, the syllables, the exposed pipeline, loops,
interrupts, tasks and the block mover. The syllables of the bundle at the program counter issue one command each; the
write of results ends the issue cycle. -/

namespace Sys2Proof.Machine

/-! ## A core's state -/

/-- Visible values of the registers of the active bank (R206). -/
def DspCore.dv (d : DspCore) (i : Nat) : Nat := (Tbl.get 0 d.d (d.key i)).toNat
def DspCore.av (d : DspCore) (i : Nat) : Nat := (Tbl.get 0 d.ac (d.key i)).toNat
def DspCore.pv (d : DspCore) (i : Nat) : Nat := (Tbl.get 0 d.p (d.key i)).toNat
def DspCore.mv (d : DspCore) (i : Nat) : Nat := (Tbl.get 0 d.m (d.key i)).toNat
def DspCore.lcv (d : DspCore) (i : Nat) : Nat := (Tbl.get 0 d.lc (d.key i)).toNat
def DspCore.lsv (d : DspCore) (i : Nat) : Nat := (Tbl.get 0 d.ls (d.key i)).toNat
def DspCore.lev (d : DspCore) (i : Nat) : Nat := (Tbl.get 0 d.le (d.key i)).toNat

/-- Loop state of the active bank. -/
def DspCore.loop (d : DspCore) : LoopBank := if d.sh then d.loopSh else d.loopFg

/-- Replace the loop state of the active bank. -/
def DspCore.setLoop (d : DspCore) (l : LoopBank) : DspCore := if d.sh then { d with loopSh := l } else { d with loopFg := l }

/-- Number of active loop levels. -/
def DspCore.depth (d : DspCore) : Nat := d.loop.active.length

/-- Syllable `slot` of the bundle at program offset `pc` (R208). -/
def State.syl (s : State) (k pc slot : Nat) : Nat := s.dspMem.num (dspAddr k (0x40000 + (pc + 4 * slot) % 0x10000)) 4

/-- Syllable `slot` of the bundle at the program counter: a bundle that has begun to issue issues whole (R228). -/
def State.bundleSyl (s : State) (k slot : Nat) : Nat :=
  let d := s.coreOf k
  if d.bundle.isEmpty then s.syl k d.pc slot else nth 0 d.bundle slot

/-! ## Fields and checks of a syllable (R209 to R211) -/

def sOp (w : Nat) : Nat := bits w 26 6
def sD (w : Nat) : Nat := bits w 21 5
def sA (w : Nat) : Nat := bits w 16 5
def sB (w : Nat) : Nat := bits w 11 5
def sSh (w : Nat) : Nat := bits w 6 5
def sPn (w : Nat) : Nat := bits w 17 4
def sMm (w : Nat) : Nat := bits w 13 4
def sForm (w : Nat) : Nat := bits w 11 2
def sImm11 (w : Nat) : Int := signed 11 (bits w 0 11)
def sImm17 (w : Nat) : Int := signed 17 (bits w 0 17)

/-- A P or M register field: whether M, and its index. -/
def sIsM (w : Nat) : Bool := bit w 25
def sPmIdx (w : Nat) : Nat := bits w 21 4

/-- Loop level and COND. -/
def sLevel (w : Nat) : Nat := bits w 21 2
def sCond (w : Nat) : Nat := bits w 24 2

/-- Whether an OP uses the vector format, and the memory format. -/
def opVec (op : Nat) : Bool := (decide (1 ≤ op) && decide (op ≤ 6)) || (decide (8 ≤ op) && decide (op ≤ 0xD))
def opMem (op : Nat) : Bool := decide (0x10 ≤ op) && decide (op ≤ 0x13)
def opAdr (op : Nat) : Bool := decide (0x14 ≤ op) && decide (op ≤ 0x16)
def opCtl (op : Nat) : Bool := decide (0x20 ≤ op) && decide (op ≤ 0x2B)

/-- Whether a syllable's OP may stand in a slot (R208, R210). -/
def slotOk (w slot : Nat) : Bool :=
  w == 0 || (opVec (sOp w) && decide (slot < 2)) || ((opMem (sOp w) || opAdr (sOp w)) && decide (2 ≤ slot))
    || (opCtl (sOp w) && slot == 3)

/-- Whether the bits marked zero are zero; an accumulator index above 7 names no register (log 33). -/
def zeroOk (w : Nat) : Bool :=
  let op := sOp w
  if opVec op then
    bits w 0 6 == 0 && (op != 3 || bits w 9 2 == 0) && (!(decide (op ≤ 4)) || decide (sD w < 8))
      && (op != 6 || decide (sA w < 8))
  else if op = 0x20 ∨ op = 0x21 ∨ op = 0x22 then bits w 23 3 == 0
  else if op = 0x23 then bit w 23 == false
  else if op = 0x24 then bits w 21 3 == 0
  else if opCtl op then bits w 21 5 == 0
  else true

/-- Whether a modifier may be used with FORM 0b10 (R211). -/
def modOk (m : Nat) : Bool :=
  match bits m 30 2 with
  | 0 => true
  | 1 => bits m 16 14 != 0
  | 2 => decide (1 ≤ bits m 16 5) && decide (bits m 16 5 ≤ 17)
  | _ => false

/-- End bundle of the loop that a LOOP or LOOPI at `pc` enters; `none` for an end offset below 0. -/
def loopEnd (pc w : Nat) : Option Nat :=
  let off : Int := if sOp w = 0x21 then (bits w 0 8 : Nat) else sImm17 w
  if off < 0 then none else some (pc + 16 + 16 * off.toNat)

/-- Whether the loop control of a slot-3 syllable is proper (R220, R221). -/
def DspCore.loopOk (d : DspCore) (w : Nat) : Bool :=
  let op := sOp w
  let n := d.depth
  if op = 0x20 ∨ op = 0x21 then
    sLevel w == n && decide (n < 4) && (match loopEnd d.pc w with
      | none => false
      | some e => n == 0 || decide (e ≤ d.lev (n - 1)))
  else if op = 0x23 then decide (sLevel w < n)
  else true

/-- Whether the bundle at `pc` is illegal (R211). -/
def State.illegal (s : State) (k : Nat) : Bool :=
  let d := s.coreOf k
  [0, 1, 2, 3].any fun i =>
    let w := s.bundleSyl k i
    !slotOk w i || !zeroOk w || (opMem (sOp w) && sForm w == 2 && !modOk (d.mv (sMm w)))
      || (i == 3 && !d.loopOk w)

/-- Address of a memory syllable, its low bits not yet ignored (R212). -/
def DspCore.ea (d : DspCore) (w : Nat) : Nat :=
  let p := d.pv (sPn w)
  if sForm w = 1 then (((p : Int) + 32 * sImm11 w) % (2 ^ 32 : Nat)).toNat else p

/-- Whether a syllable's address is outside the data memories (R212, R228). -/
def DspCore.badAddr (d : DspCore) (w : Nat) : Bool :=
  (opMem (sOp w) && decide (0x20000 ≤ d.ea w)) || (sOp w == 0x29 && decide (0x20000 < d.pv (sPn w) + 32))

/-! ## Arithmetic (R213, R218, R219) -/

/-- Convergent rounding of x / 2^s (R218). -/
def cround (x : Int) (s : Nat) : Int :=
  if s = 0 then x
  else
    let q := x / (2 ^ s : Nat)
    let r := x % (2 ^ s : Nat)
    let half : Int := (2 ^ (s - 1) : Nat)
    if half < r ∨ (r = half ∧ q % 2 = 1) then q + 1 else q

/-- Saturate to 16 bits, and whether that changed the value. -/
def sat16 (x : Int) : Int × Bool := (clampInt (-32768) 32767 x, decide (x < -32768) || decide (32767 < x))

/-- Parts of `w` bits of a register, from the lowest. -/
def partsOf (w n v : Nat) : List Int := (List.range n).map fun i => signed w (bits v (w * i) w)

/-- A register from its parts. -/
def packParts (w : Nat) (l : List Int) : Nat := (l.zipIdx.map fun p => unsigned w p.1 * 2 ^ (w * p.2)).foldl (· + ·) 0

/-- Saturate parts; whether any saturated. -/
def satParts (l : List Int) : List Int × Bool := (l.map fun x => (sat16 x).1, l.any fun x => (sat16 x).2)

/-- Complex product of lane parts: real and imaginary. -/
def cmulParts (a b : Int × Int) : Int × Int := (a.1 * b.1 - a.2 * b.2, a.1 * b.2 + a.2 * b.1)

/-- Lane `i` of a D register. -/
def laneOf (v i : Nat) : Int × Int := (signed 16 (bits v (32 * i) 16), signed 16 (bits v (32 * i + 16) 16))

/-- Accumulate products into an accumulator register: the value, and whether a true sum left 40 bits. -/
def accumulate40 (acc : Nat) (prods : List (Int × Int)) : Nat × Bool :=
  let old := partsOf 40 16 acc
  let add := prods.flatMap fun p => [p.1, p.2]
  let sums := (old.zip add).map fun p => p.1 + p.2
  (packParts 40 sums, sums.any fun x => decide (x < -(2 ^ 39 : Nat)) || decide (((2 ^ 39 : Nat) : Int) ≤ x))

/-- Reverse the low `k` bits. -/
def revBits (k x : Nat) : Nat := (List.range k).foldl (fun r i => 2 * r + bn (bit x i)) 0

/-- Update of Pn by a modifier (R213). -/
def modUpdate (pn m : Nat) : Nat :=
  let inc := signed 16 (bits m 0 16)
  match bits m 30 2 with
  | 1 =>
    let l := 8 * bits m 16 14
    let k := ceilLog2 l
    let b := pn / 2 ^ k * 2 ^ k
    ((b + (((pn : Int) - b + inc) % (l : Int)).toNat) % 2 ^ 32)
  | 2 =>
    let k := bits m 16 5
    let i := unsigned k inc
    pn / 2 ^ k * 2 ^ k + revBits k (revBits k (pn % 2 ^ k) + revBits k i) % 2 ^ k
  | _ => (((pn : Int) + inc) % (2 ^ 32 : Nat)).toNat

/-! ## What a syllable does -/

/-- What a syllable issues: results (latency, class, index, value), a memory access (store, address, bytes, stored value,
class and index loaded), and the sticky bits it sets. -/
structure Syl where
  out : List (Nat × RegClass × Nat × Nat) := []
  mem : Option (Bool × Nat × Nat × Nat × RegClass × Nat) := none
  sat : Bool := false
  ovf : Bool := false
  deriving DecidableEq, Repr

/-- Update of Pn by a memory syllable (R212). -/
def DspCore.pnUpdate (d : DspCore) (w : Nat) : List (Nat × RegClass × Nat × Nat) :=
  let p := d.pv (sPn w)
  if sForm w = 2 then [(1, .p, sPn w, modUpdate p (d.mv (sMm w)))]
  else if sForm w = 3 then [(1, .p, sPn w, (((p : Int) + 32 * sImm11 w) % (2 ^ 32 : Nat)).toNat)]
  else []

/-- Class of a P or M register field, and its value. -/
def pmClass (w : Nat) : RegClass := if sIsM w then .m else .p
def DspCore.pmVal (d : DspCore) (w : Nat) : Nat := if sIsM w then d.mv (sPmIdx w) else d.pv (sPmIdx w)

/-- Sum of Pa and the immediate, modulo 2^32. -/
def DspCore.paImm (d : DspCore) (w : Nat) : Nat := (((d.pv (sPn w) : Int) + sImm17 w) % (2 ^ 32 : Nat)).toNat

/-- Products of the lanes of Da with those of Db, conjugated, or with one lane of Db. -/
def DspCore.prods (d : DspCore) (w : Nat) : List (Int × Int) :=
  (List.range 8).map fun i =>
    let a := laneOf (d.dv (sA w)) i
    let b := laneOf (d.dv (sB w)) (if sOp w = 3 then bits w 6 3 else i)
    cmulParts a (if sOp w = 2 then (b.1, -b.2) else b)

/-- The effect of a syllable on results and memory, from the registers visible at its issue (R210, R214). `base` is the
core's data memory of the slot. -/
def DspCore.effect (d : DspCore) (w base : Nat) : Syl :=
  let a := partsOf 16 16 (d.dv (sA w))
  let b := partsOf 16 16 (d.dv (sB w))
  match sOp w with
  | 0x01 | 0x02 | 0x03 =>
    let r := accumulate40 (d.av (sD w)) (d.prods w)
    { out := [(1, .ac, sD w, r.1)], ovf := r.2 }
  | 0x04 => { out := [(1, .ac, sD w, 0)] }
  | 0x05 =>
    let r := satParts ((d.prods w).flatMap fun p => [cround p.1 15, cround p.2 15])
    { out := [(2, .d, sD w, packParts 16 r.1)], sat := r.2 }
  | 0x06 =>
    let r := satParts ((partsOf 40 16 (d.av (sA w))).map fun x => cround x (sSh w))
    { out := [(2, .d, sD w, packParts 16 r.1)], sat := r.2 }
  | 0x08 =>
    let r := satParts ((a.zip b).map fun p => p.1 + p.2)
    { out := [(1, .d, sD w, packParts 16 r.1)], sat := r.2 }
  | 0x09 =>
    let r := satParts ((a.zip b).map fun p => p.1 - p.2)
    { out := [(1, .d, sD w, packParts 16 r.1)], sat := r.2 }
  | 0x0A => { out := [(1, .d, sD w, d.dv (sA w) &&& d.dv (sB w))] }
  | 0x0B => { out := [(1, .d, sD w, d.dv (sA w) ||| d.dv (sB w))] }
  | 0x0C => { out := [(1, .d, sD w, d.dv (sA w) ^^^ d.dv (sB w))] }
  | 0x0D => { out := [(1, .d, sD w, packParts 16 (a.map fun x => x / (2 ^ sSh w : Nat)))] }
  | 0x10 => { out := d.pnUpdate w, mem := some (false, base + d.ea w / 32 * 32, 32, 0, .d, sD w) }
  | 0x11 => { out := d.pnUpdate w, mem := some (true, base + d.ea w / 32 * 32, 32, d.dv (sD w), .d, 0) }
  | 0x12 => { out := d.pnUpdate w, mem := some (false, base + d.ea w / 4 * 4, 4, 0, pmClass w, sPmIdx w) }
  | 0x13 => { out := d.pnUpdate w, mem := some (true, base + d.ea w / 4 * 4, 4, d.pmVal w, .p, 0) }
  | 0x14 => { out := [(1, pmClass w, sPmIdx w, d.paImm w)] }
  | 0x15 => { out := [(1, pmClass w, sPmIdx w, d.pmVal w / 65536 * 65536 + bits w 0 16)] }
  | 0x16 => { out := [(1, pmClass w, sPmIdx w, d.pmVal w % 65536 + bits w 0 16 * 65536)] }
  | 0x22 => { out := [(1, .lc, sLevel w, d.paImm w)] }
  | 0x25 => { out := [(1, .p, 15, d.pc + 16)] }
  | 0x2B => { out := [(1, .imask, 0, bits w 0 8)] }
  | _ => {}

/-- Registers a syllable reads (R214). -/
def readsOf (w : Nat) : List (RegClass × Nat) :=
  let mem := (RegClass.p, sPn w) :: (if sForm w = 2 then [(RegClass.m, sMm w)] else [])
  match sOp w with
  | 0x01 | 0x02 | 0x03 => [(.d, sA w), (.d, sB w), (.ac, sD w)]
  | 0x05 | 0x08 | 0x09 | 0x0A | 0x0B | 0x0C => [(.d, sA w), (.d, sB w)]
  | 0x06 => [(.ac, sA w)]
  | 0x0D => [(.d, sA w)]
  | 0x10 | 0x12 => mem
  | 0x11 => (.d, sD w) :: mem
  | 0x13 => (pmClass w, sPmIdx w) :: mem
  | 0x14 | 0x22 | 0x29 => [(.p, sPn w)]
  | 0x15 | 0x16 => [(pmClass w, sPmIdx w)]
  | 0x20 => [(.lc, sLevel w)]
  | 0x23 | 0x24 => if sCond w = 0 then [] else [(.p, sPn w)]
  | 0x26 => [(.p, 15)]
  | _ => []

/-- Results of a syllable: latency, class, index. -/
def DspCore.resultsOf (d : DspCore) (w : Nat) : List (Nat × RegClass × Nat) :=
  let e := d.effect w 0
  e.out.map (fun r => (r.1, r.2.1, r.2.2.1)) ++ (match e.mem with
    | some (false, _, _, _, c, i) => [(3, c, i)]
    | _ => []) ++ (if sOp w = 0x21 then [(1, .lc, sLevel w)] else [])

/-- Whether a COND of a register holds (R210). -/
def DspCore.cond (d : DspCore) (w : Nat) : Bool :=
  let p := d.pv (sPn w)
  match sCond w with
  | 0 => true
  | 1 => p == 0
  | 2 => p != 0
  | _ => bit p 31

/-- Program offset of a branch. -/
def DspCore.branchTo (d : DspCore) (w : Nat) : Nat := (((d.pc : Int) + 16 + 16 * sImm17 w) % (0x10000 : Nat)).toNat

/-- Enter loop level `l` with a count; a count of 0 skips the body (R220). -/
def DspCore.enterLoop (d : DspCore) (w count : Nat) : DspCore :=
  let l := sLevel w
  let e := (loopEnd d.pc w).getD 0
  let d := { d with ls := Tbl.set 0 d.ls (d.key l) (BitVec.ofNat 32 (d.pc + 16)),
                    le := Tbl.set 0 d.le (d.key l) (BitVec.ofNat 32 e) }
  if count = 0 then { d with target := some ((e + 16) % 0x10000) }
  else d.setLoop { active := d.loop.active ++ [l], rc := d.loop.rc.set l count }

/-- What a control syllable does to the core's control state. -/
def DspCore.control (d : DspCore) (w x : Nat) : DspCore :=
  match sOp w with
  | 0x20 => d.enterLoop w (d.lcv (sLevel w))
  | 0x21 =>
    ({ d with lc := Tbl.set 0 d.lc (d.key (sLevel w)) (BitVec.ofNat 32 (bits w 8 9)) } : DspCore).enterLoop w (bits w 8 9)
  | 0x23 =>
    if d.cond w then
      { d.setLoop { d.loop with active := d.loop.active.take (sLevel w) } with
        target := some ((d.lev (sLevel w) + 16) % 0x10000) }
    else d
  | 0x24 => if d.cond w then { d with target := some (d.branchTo w) } else d
  | 0x25 => { d with target := some (d.branchTo w) }
  | 0x26 => { d with target := some (d.pv 15 % 0x10000 / 16 * 16) }
  | 0x27 => { d with target := some d.ira }
  | 0x28 => { d with tret := true, ending := some (0, 0, 0) }
  | 0x29 => { d with mover := d.mover ++ [x + 2 ^ 256 * d.pc] }
  | _ => d

/-! ## Interrupt lines and endings (R222 to R227) -/

/-- Make an interrupt line pending. -/
def State.raiseIrq (s : State) (k n : Nat) : State :=
  s.setPr .rdsp k 0x054 (s.pr .rdsp k 0x054 ||| BitVec.ofNat 32 (2 ^ n))

/-- SIGNAL: line 3 of logical core `j` of the core's partition (R210). -/
def State.signal (s : State) (k j : Nat) : State :=
  match s.itemOf (s.coreOf k).item with
  | none => s
  | some it =>
    let g := s.part it.owner
    if g.dsp.getLsbD j then
      match s.physCore (g.tile * 128 + j) with
      | some m => s.raiseIrq m 3
      | none => s
    else s

/-- The lowest pending line that IMASK lets through. -/
def State.irqLine (s : State) (k : Nat) : Option Nat :=
  least (fun n => fld (s.pr .rdsp k 0x054) n 1 == 1 && (s.coreOf k).imask.getLsbD n) 8

/-- A core that has found an ending takes it at a bundle boundary: what is issued completes, the mover's descriptor in
progress too, queued ones are discarded; after TRET the mover's queue runs out first (log 34). The task's home is told; an
uncorrectable error on the way ends the attempt (R227). -/
def State.endCore (s : State) (k : Nat) : State :=
  let d := s.coreOf k
  match d.ending with
  | none => s
  | some (st, cause, line) =>
    if !d.playing || d.issued != 0 then s
    else
      let (s, ok) := s.drainCore k 8
      if !ok then s.rerunTask d.item d.task true (some k)
      else
        let d := s.coreOf k
        let d := if d.tret then d else { d with mover := [] }
        let s := s.setCore k d
        if d.moverRun.isSome || !d.mover.isEmpty then s
        else
          -- an interrupt that could be accepted at this boundary gives way, and pending lines are cleared (R225)
          let s := if (d.tret || d.stopping) && !d.sh && (s.irqLine k).isSome then
              s.setPr .rdsp k 0x054 (s.pr .rdsp k 0x054 &&& 0xFFFFFF00) else s
          (s.setCore k { d with playing := false }).notice d.item d.task st cause line

/-- Count stall cycles (R229). -/
def State.stall (s : State) (k n : Nat) : State := (s.bump .rdsp k 0x07C n).bump64 .rdsp k 0x070 n

/-! ## Issue -/

/-- Class codes of HZ_INFO (R229). -/
def clsCode : RegClass → Nat
  | .d => 0
  | .ac => 1
  | .p => 2
  | .m => 3
  | .lc => 4
  | .imask => 5

/-- The first hazard of the bundle at `pc`: slot, class, index, kind (R217). -/
def State.hazard (s : State) (k : Nat) : Option (Nat × RegClass × Nat × Nat) :=
  let d := s.coreOf k
  let ws := [0, 1, 2, 3].map fun i => (i, s.bundleSyl k i)
  let pend : List (Nat × RegClass × Nat) := (d.flight.filter fun f => f.sh == d.sh).map (fun f => (f.due, f.cls, f.idx))
    ++ (d.memq.filter fun m => m.sh == d.sh && !m.store).map fun m => (m.at_ + 1, m.cls, m.idx)
  let res : List (Nat × Nat × RegClass × Nat) :=
    ws.flatMap fun w => (d.resultsOf w.2).map fun r => (w.1, d.cyc + r.1 - 1, r.2.1, r.2.2)
  let isEarly := fun (i : Nat) (r : RegClass × Nat) =>
    pend.any (fun p => decide (p.2.1 = r.1) && p.2.2 == r.2) ||
      res.any fun p => p.1 != i && decide (p.2.2.1 = r.1) && p.2.2.2 == r.2
  let early := ws.flatMap fun w => ((readsOf w.2).filter (isEarly w.1)).map fun r => (w.1, r.1, r.2, 0)
  let hits := fun (r : Nat × Nat × RegClass × Nat) =>
    pend.any (fun p => p.1 == r.2.1 && decide (p.2.1 = r.2.2.1) && p.2.2 == r.2.2.2) ||
      res.any fun p => p.1 != r.1 && p.2.1 == r.2.1 && decide (p.2.2.1 = r.2.2.1) && p.2.2.2 == r.2.2.2
  let coll := (res.filter hits).map fun r => (r.1, r.2.2.1, r.2.2.2, 1)
  (early ++ coll).foldl (fun (b : Option (Nat × RegClass × Nat × Nat)) x => match b with
    | none => some x
    | some y => if x.1 < y.1 then some x else some y) none

/-- A sentinel trap (R217): at a halt the memory accesses of the bundles issued complete; their registers are written in the
cycles of R214, so that the trapped bundle, once released, issues as at full speed (log 16). -/
def State.trap (s : State) (k : Nat) (h : Nat × RegClass × Nat × Nat) : State :=
  let d := s.coreOf k
  let s := s.setPr .rdsp k 0x050 (BitVec.ofNat 32 (d.pc + 65536 * h.1 + 2 ^ 18 * h.2.2.1 + 2 ^ 23 * clsCode h.2.1 + 2 ^ 26 * h.2.2.2))
  let s := (s.setPr .rdsp k 0x048 (setFld (s.pr .rdsp k 0x048) 5 1 1)).bump .rdsp k 0x088 1
  if fld (s.pr .rdsp k 0x044) 1 1 = 1 then
    let (s, ok) := s.drainMem k 8
    if ok then s.setCore k { s.coreOf k with halted := true } else s.rerunTask d.item d.task true (some k)
  else (s.setCore k { d with ending := some (stMalformed, 0x12, d.pc) }).endCore k

/-- The bundle at `pc` is fetched and checked, unless it has begun to issue: what keeps it from issuing is acted on, an error of
program memory, an illegal bundle, an address outside the data memories, a sentinel trap, a full mover queue. The answer is
whether it stops. -/
def State.bundleStop (s : State) (k : Nat) : State × Bool :=
  let d := s.coreOf k
  if d.issued ≠ 0 then (s, false)
  else
  let (s, ok) := s.dspCheck k (dspAddr k (0x40000 + d.pc)) 16
  if !ok then (s.rerunTask d.item d.task true (some k), true)
  else if s.illegal k then ((s.setCore k { d with ending := some (stMalformed, 0x13, d.pc) }).endCore k, true)
  else if [0, 1, 2, 3].any fun i => d.badAddr (s.bundleSyl k i) then
    ((s.setCore k { d with ending := some (stAccess, 0, d.pc) }).endCore k, true)
  else match (if fld (s.pr .rdsp k 0x044) 0 1 = 1 ∧ !d.released then s.hazard k else none) with
    | some h => (s.trap k h, true)
    | none => if sOp (s.bundleSyl k 3) = 0x29 ∧ 8 ≤ d.mover.length then (s.stall k 1, true) else (s, false)

/-- Whether a core issues: a bundle in progress is completed whatever ends the task. -/
def DspCore.runs (d : DspCore) : Bool :=
  d.playing && !d.halted && (d.ending.isNone || d.issued != 0)

/-- Issue the syllable of a slot when its OP is `op` (R208, R214). -/
def State.syllable (s : State) (k slot op : Nat) : State :=
  let d := s.coreOf k
  if !d.runs || d.issued.getLsbD slot || !s.boot.ready then s
  else
    let (t, stops) := s.bundleStop k
    let w := t.bundleSyl k slot
    if stops then t
    else
      if sOp w ≠ op then s
      else
        let (s, ok) := if op = 0x29 then t.dspCheck k (dspAddr k (d.pv (sPn w))) 32 else (t, true)
        if !ok then s.rerunTask d.item d.task true (some k)
        else
        let e := d.effect w (dspAddr k (if slot = 3 then 0x20000 else 0))
        let fl := e.out.map fun r =>
          ({ due := d.cyc + r.1 - 1, born := d.cyc, slot := slot, sh := d.sh, cls := r.2.1, idx := r.2.2.1,
             val := BitVec.ofNat 640 r.2.2.2 } : Flight)
        let mq : List MemOp := match e.mem with
          | some (st, a, n, v, c, i) =>
            [{ at_ := d.cyc + 1, slot := slot, store := st, addr := a, bytes := n, val := BitVec.ofNat 256 v, sh := d.sh,
               cls := c, idx := i }]
          | none => []
        let desc := if op = 0x29 then s.dspMem.num (dspAddr k (d.pv (sPn w))) 32 else 0
        let d := { d with flight := d.flight ++ fl, memq := d.memq ++ mq, issued := d.issued ||| BitVec.ofNat 4 (2 ^ slot),
                          bundle := [0, 1, 2, 3].map fun i => s.bundleSyl k i }
        let d := if slot = 3 then d.control w desc else d
        let s := s.setCore k d
        let st := s.pr .rdsp k 0x048
        let st := if e.sat then setFld st 3 1 1 else st
        let st := if e.ovf then setFld st 4 1 1 else st
        let s := s.setPr .rdsp k 0x048 st
        if op = 0x2A then s.signal k (bits w 0 7) else s

/-- NOP (R210). -/
def execNop (core : Fin 272) (slot : Fin 4) (s : State) : Host.Outcome State Fault Refusal :=
  perform s fun s => s.syllable core.val slot.val 0x00

/-- CMAC (R210, R219): ACd += Da × Db. -/
def execCmac (core : Fin 272) (slot : Fin 4) (s : State) : Host.Outcome State Fault Refusal :=
  perform s fun s => s.syllable core.val slot.val 0x01

/-- CMACJ (R210, R219): ACd += Da × conj(Db). -/
def execCmacj (core : Fin 272) (slot : Fin 4) (s : State) : Host.Outcome State Fault Refusal :=
  perform s fun s => s.syllable core.val slot.val 0x02

/-- CMACB (R210, R219): ACd += Da × Db[LANE]. -/
def execCmacb (core : Fin 272) (slot : Fin 4) (s : State) : Host.Outcome State Fault Refusal :=
  perform s fun s => s.syllable core.val slot.val 0x03

/-- ACCLR (R210). -/
def execAcclr (core : Fin 272) (slot : Fin 4) (s : State) : Host.Outcome State Fault Refusal :=
  perform s fun s => s.syllable core.val slot.val 0x04

/-- CMUL (R210, R218). -/
def execCmul (core : Fin 272) (slot : Fin 4) (s : State) : Host.Outcome State Fault Refusal :=
  perform s fun s => s.syllable core.val slot.val 0x05

/-- RND (R210, R218). -/
def execRnd (core : Fin 272) (slot : Fin 4) (s : State) : Host.Outcome State Fault Refusal :=
  perform s fun s => s.syllable core.val slot.val 0x06

/-- VADD (R210). -/
def execVadd (core : Fin 272) (slot : Fin 4) (s : State) : Host.Outcome State Fault Refusal :=
  perform s fun s => s.syllable core.val slot.val 0x08

/-- VSUB (R210). -/
def execVsub (core : Fin 272) (slot : Fin 4) (s : State) : Host.Outcome State Fault Refusal :=
  perform s fun s => s.syllable core.val slot.val 0x09

/-- VAND (R210). -/
def execVand (core : Fin 272) (slot : Fin 4) (s : State) : Host.Outcome State Fault Refusal :=
  perform s fun s => s.syllable core.val slot.val 0x0A

/-- VOR (R210). -/
def execVor (core : Fin 272) (slot : Fin 4) (s : State) : Host.Outcome State Fault Refusal :=
  perform s fun s => s.syllable core.val slot.val 0x0B

/-- VXOR (R210). -/
def execVxor (core : Fin 272) (slot : Fin 4) (s : State) : Host.Outcome State Fault Refusal :=
  perform s fun s => s.syllable core.val slot.val 0x0C

/-- VSHR (R210). -/
def execVshr (core : Fin 272) (slot : Fin 4) (s : State) : Host.Outcome State Fault Refusal :=
  perform s fun s => s.syllable core.val slot.val 0x0D

/-- LD (R210, R212, R216). -/
def execLd (core : Fin 272) (slot : Fin 4) (s : State) : Host.Outcome State Fault Refusal :=
  perform s fun s => s.syllable core.val slot.val 0x10

/-- ST (R210, R212, R216). -/
def execSt (core : Fin 272) (slot : Fin 4) (s : State) : Host.Outcome State Fault Refusal :=
  perform s fun s => s.syllable core.val slot.val 0x11

/-- LDA (R210, R212, R216). -/
def execLda (core : Fin 272) (slot : Fin 4) (s : State) : Host.Outcome State Fault Refusal :=
  perform s fun s => s.syllable core.val slot.val 0x12

/-- STA (R210, R212, R216). -/
def execSta (core : Fin 272) (slot : Fin 4) (s : State) : Host.Outcome State Fault Refusal :=
  perform s fun s => s.syllable core.val slot.val 0x13

/-- ADDA (R210). -/
def execAdda (core : Fin 272) (slot : Fin 4) (s : State) : Host.Outcome State Fault Refusal :=
  perform s fun s => s.syllable core.val slot.val 0x14

/-- MOVAL (R210). -/
def execMoval (core : Fin 272) (slot : Fin 4) (s : State) : Host.Outcome State Fault Refusal :=
  perform s fun s => s.syllable core.val slot.val 0x15

/-- MOVAH (R210). -/
def execMovah (core : Fin 272) (slot : Fin 4) (s : State) : Host.Outcome State Fault Refusal :=
  perform s fun s => s.syllable core.val slot.val 0x16

/-- DSP LOOP (R220). -/
def execDspLoop (core : Fin 272) (s : State) : Host.Outcome State Fault Refusal :=
  perform s fun s => s.syllable core.val 3 0x20

/-- LOOPI (R220). -/
def execLoopi (core : Fin 272) (s : State) : Host.Outcome State Fault Refusal :=
  perform s fun s => s.syllable core.val 3 0x21

/-- MOVL (R210). -/
def execMovl (core : Fin 272) (s : State) : Host.Outcome State Fault Refusal :=
  perform s fun s => s.syllable core.val 3 0x22

/-- BRKL (R221). -/
def execBrkl (core : Fin 272) (s : State) : Host.Outcome State Fault Refusal :=
  perform s fun s => s.syllable core.val 3 0x23

/-- BR (R221). -/
def execBr (core : Fin 272) (s : State) : Host.Outcome State Fault Refusal :=
  perform s fun s => s.syllable core.val 3 0x24

/-- DSP CALL (R221). -/
def execDspCall (core : Fin 272) (s : State) : Host.Outcome State Fault Refusal :=
  perform s fun s => s.syllable core.val 3 0x25

/-- RET (R221). -/
def execRet (core : Fin 272) (s : State) : Host.Outcome State Fault Refusal :=
  perform s fun s => s.syllable core.val 3 0x26

/-- RTI (R224). -/
def execRti (core : Fin 272) (s : State) : Host.Outcome State Fault Refusal :=
  perform s fun s => s.syllable core.val 3 0x27

/-- TRET (R226). -/
def execTret (core : Fin 272) (s : State) : Host.Outcome State Fault Refusal :=
  perform s fun s => s.syllable core.val 3 0x28

/-- MOVB (R228). -/
def execMovb (core : Fin 272) (s : State) : Host.Outcome State Fault Refusal :=
  perform s fun s => s.syllable core.val 3 0x29

/-- SIGNAL (R210). -/
def execSignal (core : Fin 272) (s : State) : Host.Outcome State Fault Refusal :=
  perform s fun s => s.syllable core.val 3 0x2A

/-- SETIM (R210). -/
def execSetim (core : Fin 272) (s : State) : Host.Outcome State Fault Refusal :=
  perform s fun s => s.syllable core.val 3 0x2B

/-! ## The end of an issue cycle -/

/-- The loop-back of a bundle at `pc`: the innermost levels that end here, and where control goes (R220). -/
def DspCore.loopBack (d : DspCore) : Nat → DspCore × Nat
  | 0 => (d, (d.pc + 16) % 0x10000)
  | n + 1 =>
    if d.lev n ≠ d.pc then (d, (d.pc + 16) % 0x10000)
    else
      let rc := nth 0 d.loop.rc n
      if 1 < rc then (d.setLoop { d.loop with rc := d.loop.rc.set n (rc - 1) }, d.lsv n % 0x10000)
      else (d.setLoop { d.loop with active := d.loop.active.take n }).loopBack n

/-- The bundle at `pc` has issued: results due are written, control moves on, and counters count (R214, R220, R221,
R229). -/
def State.endCycle (s : State) (k : Nat) : State :=
  let d := s.coreOf k
  if !d.playing || d.issued != 15 then s
  else
    let rti := sOp (s.bundleSyl k 3) == 0x27
    let (s, ok) := s.retireCycle k
    if !ok then s.rerunTask d.item d.task true (some k)
    else
    let d := s.coreOf k
    let (d', next, stalls) := match d.target with
      | some t => (d, t, if rti then 1 else 2)
      | none =>
        let (d', t) := d.loopBack d.depth
        (d', t, 0)
    let sh := d.sh && !rti
    let d' := { d' with pc := next, lastPc := d.pc, issued := 0, bundle := [], target := none }
    let s := s.setCore k { d' with sh := sh, released := rti && d.relIra, relIra := d.relIra && !rti }
    let s := (s.bump .rdsp k 0x078 1).bump64 .rdsp k 0x070 1
    let slow := if fld (s.pr .rdsp k 0x044) 0 1 = 1 then 3 else 0
    let s := if stalls + slow = 0 then s else s.stall k (max stalls slow)
    s.endCore k

/-- DSP_RESULT_WRITE (R214). -/
def execDspResultWrite (core : Fin 272) (s : State) : Host.Outcome State Fault Refusal :=
  perform s fun s => s.endCycle core.val

/-- A 1 is written to HZ_TRAP: a halted core resumes, and the trapped bundle issues without the sentinel's checks (R217). -/
def State.clearTrap (s : State) (k : Nat) : State :=
  let s := s.setPr .rdsp k 0x048 (setFld (s.pr .rdsp k 0x048) 5 1 0)
  let d := s.coreOf k
  if d.halted then s.setCore k { d with halted := false, released := true } else s

/-- HZ_TRAP_RESUME (R217). -/
def execHzTrapResume (core : Fin 272) (s : State) : Host.Outcome State Fault Refusal :=
  perform s fun s => s.clearTrap core.val

/-! ## Interrupts -/

/-- Whether the time of base TCMP_TB has reached TCMP (R222). -/
def State.tcmpMet (s : State) (k : Nat) : Bool :=
  decide ((s.t64On (4 + k / 136) (fld (s.pr .rdsp k 0x044) 8 3) + 2 ^ 64 - s.pair (pageAddr .rdsp k + 0x058)) % 2 ^ 64 < 2 ^ 63)

/-- DSP_TIMER_COMPARE (R222): line 0, once each time the base reaches TCMP. -/
def execDspTimerCompare (core : Fin 272) (s : State) : Host.Outcome State Fault Refusal :=
  perform s fun s =>
    let k := core.val
    let met := s.tcmpMet k
    let t := s.setCore k { s.coreOf k with timer := met }
    if met && !(s.coreOf k).timer then t.raiseIrq k 0 else t

/-- A write of IRQ_PEND: bits 7 to 5 are set by writing 1 (R229). -/
def State.writeIrqPend (s : State) (k : Nat) (v : Word) : State :=
  s.setPr .rdsp k 0x054 (s.pr .rdsp k 0x054 ||| (v &&& 0xE0))

/-- DSP_SOFT_IRQ_SET (R222). -/
def execDspSoftIrqSet (core : Fin 272) (val : BitVec 32) (s : State) : Host.Outcome State Fault Refusal :=
  perform s fun s => s.writeIrqPend core.val val

/-- Accept the highest-priority pending line at a bundle boundary in bank FG (R223). -/
def State.acceptIrq (s : State) (k : Nat) : State :=
  let d := s.coreOf k
  if !d.playing || d.halted || d.ending.isSome || d.issued != 0 || d.sh then s
  else match s.irqLine k with
    | none => s
    | some n =>
      let s := s.setPr .rdsp k 0x054 (setFld (s.pr .rdsp k 0x054) n 1 0)
      ((s.setCore k { d with ira := d.pc, sh := true, pc := 0x40 * n, released := false, relIra := d.released }).bump .rdsp k 0x084 1).stall k 1

/-- INTERRUPT_ACCEPT (R223). -/
def execInterruptAccept (core : Fin 272) (s : State) : Host.Outcome State Fault Refusal :=
  perform s fun s => s.acceptIrq core.val

/-! ## Tasks (R226, R227) -/

/-- The task CUED on a core. -/
def State.cuedOn (s : State) (k : Nat) : Option (Nat × Nat) :=
  (s.placedTasks fun y => y.ty == 2 && decide (y.st = .cued) && (match y.place with
    | some (_, m) => m == k
    | none => false)).head?

/-- A core starts its task: registers cleared, D0 with seed, SEQ and task index, sticky bits clear (R226). An ENTRY that is
not a program offset ends the task as an illegal bundle does (log 33). -/
def State.startCore (s : State) (k : Nat) : State :=
  match s.cuedOn k with
  | none => s
  | some (i, t) =>
    match s.itemOf i, s.taskOf i t with
    | some it, some x =>
      let old := s.coreOf k
      if !s.smRuns then s
      else
        let s := s.setTask i t { x with st := .playing, tStart := s.tsNow it.home }
        let s := s.setPr .rdsp k 0x048 (s.pr .rdsp k 0x048 &&& ~~~0x3C)
        let d0 := x.seed + 2 ^ 64 * it.seqNo + 2 ^ 128 * t
        let d : DspCore := { playing := true, fn := it.fn, item := i, task := t, pc := x.entry % 0x10000, lastPc := old.lastPc,
                             timer := old.timer,
                             d := Tbl.set 0 [] 0 (BitVec.ofNat 256 d0) }
        if x.entry % 16 = 0 ∧ x.entry < 0x10000 then s.setCore k d
        else (s.setCore k { d with ending := some (stMalformed, 0x13, x.entry % 2 ^ 32) }).endCore k
    | _, _ => s

/-- DSP_TASK_START (R226). -/
def execDspTaskStart (core : Fin 272) (s : State) : Host.Outcome State Fault Refusal :=
  perform s fun s => s.startCore core.val

/-- DSP_STOP (R227): a core told to stop ends its task once its bundle and its mover's descriptor are over. -/
def execDspStop (core : Fin 272) (s : State) : Host.Outcome State Fault Refusal :=
  perform s fun s => if (s.coreOf core.val).stopping then s.endCore core.val else s

/-- DSP_MEMORY_ERROR (R207, R227, R231, R316): positions of the word at an offset of a memory are found to fail; the word is
checked, and an uncorrectable error ends the attempt as for a retired unit. -/
def execDspMemoryError (core : Fin 272) (mem : Fin 3) (off : BitVec 17) (flips : List (Fin 72)) (s : State) :
    Host.Outcome State Fault Refusal :=
  perform s fun s =>
    let k := core.val
    let a := dspAddr k (0x20000 * mem.val + (if mem.val = 2 then off.toNat % 0x10000 else off.toNat))
    let s := { s with dspEcc := flipBits s.dspEcc (a / 8) (flips.map (Fin.castLE (by omega))) }
    let (s, ok) := s.dspCheck k a 1
    let d := s.coreOf k
    if d.playing && !ok then s.rerunTask d.item d.task true (some k) else s

/-! ## The block mover (R228) -/

/-- BLOCK_MOVER_START (R228). -/
def execBlockMoverStart (core : Fin 272) (s : State) : Host.Outcome State Fault Refusal :=
  perform s fun s =>
    let d := s.coreOf core.val
    match d.moverRun, d.mover with
    | none, x :: rest => s.setCore core.val { d with mover := rest, moverRun := some x, moverWrote := false }
    | _, _ => s

/-- Function, queue of a Q_TAIL register at a BAR0 address. -/
def tailAt (v a : Nat) : Option Nat := least (fun q => qreg v q 0x14 == a) 16

/-- Copy the bytes of a mover's descriptor; a 4-byte write to a Q_TAIL of the task's function, or to the
TXQ_TAIL of a transmit queue of that function, rings its doorbell (R228, R281). An uncorrectable error of the core's memory
answers WATCHDOG: the attempt ends (R227). -/
def State.moverCopy (s : State) (k : Nat) (w : Who) (raw : Nat) : State × Got :=
  let ga := db raw 0 8
  let la := db raw 8 4
  let n := db raw 12 4
  let mem := bits la 17 2
  let size := if mem = 2 then 0x10000 else 0x20000
  let base := dspAddr k (mem * 0x20000 + bits la 0 17)
  if 3 ≤ mem ∨ size < bits la 0 17 + n then (s, .fail stAccess)
  else if bit raw (16 * 8) then
    let (s, ok) := s.dspCheck k base n
    let data := s.dspMem.read base n
    if !ok then (s, .fail stWatchdog)
    else match s.place w.v ga with
    | .none =>
      if s.isHome w.v (bits ga 50 14) ∧ n = 4 ∧ 0xC000000000 ≤ ga % 2 ^ 50 then
        match tailAt w.v (ga % 2 ^ 50 - 0xC000000000) with
        | some q => (s.writeQTail w.v q (BitVec.ofNat 32 (leNat data)), .ok [])
        | none => match txTailAt (ga % 2 ^ 50 - 0xC000000000) with
          | some (p, q) =>
            if fld (s.rg (txqReg p q 0)) 16 8 = w.v then (s.writeTxTail p q (BitVec.ofNat 32 (leNat data)), .ok [])
            else (s, .fail stAccess)
          | none => (s, .fail stAccess)
      else (s, .fail stAccess)
    | _ => s.gWrite w ga data false false
  else
    let (s, g) := s.gRead w ga n false
    match g with
    | .ok b =>
      let (s, ok) := s.dspPut k base b
      (s, if ok then .ok [] else .fail stWatchdog)
    | g => (s, g)

/-- The mover's descriptor completes: copy, acknowledgements, done word, line 1 (R228). -/
def State.moverDone (s : State) (k : Nat) : State :=
  let d := s.coreOf k
  match d.moverRun with
  | none => s
  | some raw =>
    let w : Who := { v := d.fn, org := 6000 + k, x := 0, item := d.item, task := d.task }
    let (s, g) := if d.moverWrote then (s, .ok []) else s.moverCopy k w raw
    match g with
    | .wait => s
    | .fail st =>
      let s := (s.forget w.org).setCore k { s.coreOf k with moverRun := none, moverWrote := false }
      let d := s.coreOf k
      if !d.playing then s
      else if st = stWatchdog then s.rerunTask d.item d.task true (some k)
      else if d.stopping then s.endCore k
      else (s.setCore k { d with ending := some (st, 0, raw / 2 ^ 256), tret := false }).endCore k
    | .ok _ =>
      let s := (s.forget w.org).setCore k { s.coreOf k with moverWrote := true }
      if !s.acked w.org 0 then s
      else
        let (s, ok) := s.dspPut k (dspAddr k (db raw 20 4 % 0x20000)) (leBytes 4 (db raw 24 4))
        let s := s.setCore k { s.coreOf k with moverRun := none, moverWrote := false }
        let d := s.coreOf k
        if !d.playing then s
        else if !ok then s.rerunTask d.item d.task true (some k)
        else (if bit raw (16 * 8 + 1) then s.raiseIrq k 1 else s).endCore k

/-- BLOCK_MOVER_COMPLETE (R228). -/
def execBlockMoverComplete (core : Fin 272) (s : State) : Host.Outcome State Fault Refusal :=
  perform s fun s => s.moverDone core.val

/-! ## Registers (R229) -/

/-- An access of PMEM_DATA: the word at PMEM_ADDR, which moves on; a write while PLAYING is ignored. -/
def State.pmemAccess (s : State) (k : Nat) (write : Bool) (v : Word) : State :=
  let a := (s.pr .rdsp k 0x060).toNat % 0x10000
  let at_ := dspAddr k (0x40000 + a)
  let s := if write then (if (s.coreOf k).playing then s else (s.dspPut k at_ (leBytes 4 v.toNat)).1)
    else
      let s := (s.dspCheck k at_ 4).1
      s.answer (BitVec.ofNat 32 (s.dspMem.num at_ 4))
  s.setPr .rdsp k 0x060 (BitVec.ofNat 32 ((a + 4) % 0x10000))

/-- PMEM_DATA_ACCESS (R229). -/
def execPmemDataAccess (core : Fin 272) (write : Bool) (val : BitVec 32) (s : State) : Host.Outcome State Fault Refusal :=
  perform s fun s => s.pmemAccess core.val write val

/-- A write of CNT_CLR. -/
def State.dspClear (s : State) (k : Nat) (v : Word) : State :=
  if fld v 0 1 = 1 then s.clearRegs .rdsp k (offsets 0x070 0x088) else s

/-- DSP_CNT_CLR (R229). -/
def execDspCntClr (core : Fin 272) (val : BitVec 32) (s : State) : Host.Outcome State Fault Refusal :=
  perform s fun s => s.dspClear core.val val

end Sys2Proof.Machine
end

