-- ==== Sys2Proof/Machine/Accel.lean ====
section
/-! DEFINITION. Radio accelerators (R170, R232 to R248, R263, R264): jobs, their engine times and status records, and what
the FFT, LDPC, polar and CRC engines make of their jobs. -/

namespace Sys2Proof.Machine

/-! ## Jobs -/

/-- Page of an engine class on a tile (R263). -/
def enginePage (e k : Nat) : Page :=
  if k = 0 then pageAt .fft e else if k = 3 then pageAt .polar e else if k = 5 then pageAt .chirp e else pageAt .ldpc e

/-- `PG_ERR_INFO` of an engine (R267). -/
def engineInfo (k eng ch : Nat) : Word := BitVec.ofNat 32 (eng + 256 * k + 2048 * ch)

/-- The accelerators of a tile. -/
def State.accOf (s : State) (e : Nat) : AccSt := Tbl.get {} s.acc e

/-- Replace the accelerators of a tile. -/
def State.setAcc (s : State) (e : Nat) (a : AccSt) : State := { s with acc := Tbl.set {} s.acc e a }

/-- The job on an engine. -/
def State.jobOn (s : State) (e k eng : Nat) : Option Job := Tbl.look (s.accOf e).run (k * 64 + eng)

/-- Replace the job on an engine. -/
def State.setJob (s : State) (e k eng : Nat) (j : Job) : State :=
  s.setAcc e { s.accOf e with run := Tbl.put (s.accOf e).run (k * 64 + eng) j }

/-- Who an engine is, for its job. -/
def State.jobWho (_s : State) (j : Job) (eng : Nat) : Who :=
  { v := j.fn, org := 5000 + j.tile * 384 + j.cls * 64 + eng, x := j.x, item := j.item, task := j.task }

/-- Length of a job (R235). -/
def jobLen (k : Nat) : Nat := if k = 1 ∨ k = 2 ∨ k = 5 then 64 else 48

/-- COUNT of a job's header. -/
def jobCount (raw : Nat) : Nat := db raw 2 2

/-- The lifting sizes of TS 38.212 (R242). -/
def liftOk (z : Nat) : Bool :=
  [2, 3, 5, 7, 9, 11, 13, 15].any fun a => (List.range 8).any fun j => a * 2 ^ j == z && decide (z ≤ 384)

/-- Sizes of the FFT engines with their cycles S(N) (R240). -/
def fftCycles (n : Nat) : Option Nat :=
  if [64, 128, 256, 512, 1024, 2048, 4096, 8192].contains n then some (n / 8)
  else if [384, 768, 1536, 3072, 6144].contains n then some (n / 8)
  else if (List.range 9).any (fun a => (List.range 6).any fun b => (List.range 4).any fun c =>
      12 * 2 ^ a * 3 ^ b * 5 ^ c == n) && decide (n ≤ 3240) then some (2 * ((n + 7) / 8))
  else match n with
    | 139 => some 144
    | 571 => some 576
    | 839 => some 768
    | 1151 => some 1152
    | _ => none

/-! ## LDPC fields (R243) -/

def ldBg2 (raw : Nat) : Bool := bit raw 256
def ldCb (raw : Nat) : Bool := bit raw 257
def ldTb (raw : Nat) : Nat := bits raw 258 2
def ldScr (raw : Nat) : Bool := bit raw 260
def ldIter (raw : Nat) : Nat := db raw 33 1
def ldZ (raw : Nat) : Nat := db raw 34 2
def ldKp (raw : Nat) : Nat := db raw 36 2
def ldRv (raw : Nat) : Nat := bits raw 304 2
def ldQm (raw : Nat) : Nat := 2 * bits raw 308 3
def ldE (raw r : Nat) : Nat := if r < db raw 52 2 then db raw 44 4 else db raw 48 4

/-- Information bits K, and coded bits N, of a code block (TS 38.212). -/
def ldK (raw : Nat) : Nat := (if ldBg2 raw then 10 else 22) * ldZ raw
def ldN (raw : Nat) : Nat := (if ldBg2 raw then 50 else 66) * ldZ raw

/-- Length of the circular buffer. -/
def ldNcb (raw : Nat) : Nat := if bit raw 312 then min (ldN raw) (db raw 40 4) else ldN raw

/-- Bits of the TB CRC. -/
def ldTbBits (raw : Nat) : Nat := match ldTb raw with
  | 1 => 24
  | 2 => 16
  | _ => 0

/-- Bits of the transport block, without its CRC; negative when the blocks do not hold it. -/
def ldA (raw : Nat) : Int := (jobCount raw : Int) * ((ldKp raw : Int) - 24 * bn (ldCb raw)) - ldTbBits raw

/-- Whether the fields of an LDPC job are in range (R243, R245). -/
def ldOk (dec : Bool) (raw : Nat) : Bool :=
  (if dec then decide (1 ≤ ldIter raw) && decide (ldIter raw ≤ 32) else ldIter raw == 0)
    && liftOk (ldZ raw) && decide (1 ≤ ldKp raw) && decide (ldKp raw ≤ ldK raw) && decide (ldTb raw < 3)
    && decide (1 ≤ bits raw 308 3) && decide (bits raw 308 3 ≤ 5) && decide (db raw 52 2 ≤ jobCount raw)
    && (dec || decide (db raw 54 2 < 2 ^ 15)) && decide (0 < ldA raw)
    && ((List.range (jobCount raw)).all fun r => ldE raw r % ldQm raw == 0)

/-! ## Polar fields (R246) -/

def poDir (raw : Nat) : Nat := bits raw 256 1
def poChan (raw : Nat) : Nat := bits raw 257 2
def poL (raw : Nat) : Nat := 2 ^ bits raw 260 2
def poA (raw : Nat) : Nat := db raw 34 2
def poE (raw : Nat) : Nat := db raw 36 2

/-- Whether the fields of a polar job are in range. -/
def poOk (raw : Nat) : Bool :=
  let a := poA raw
  decide (1 ≤ poE raw) && (match poChan raw with
    | 0 => decide (12 ≤ a) && decide (a ≤ 140)
    | 1 => a == 32
    | 2 => decide (12 ≤ a) && decide (a ≤ 1706)
    | _ => false)

/-- Mother code length N. -/
def poN (raw : Nat) : Nat := (polarCode (poChan raw) (poA raw) (poE raw)).n

/-! ## CRC and scrambling fields (R247) -/

def crMode (raw : Nat) : Nat := db raw 32 1
def crLen (raw : Nat) : Nat := db raw 36 4

/-- Width and generator of a CRC. -/
def crcPoly (p : Nat) : Option (Nat × Nat) :=
  match p with
  | 0 => some (24, 0x864CFB)
  | 1 => some (24, 0x800063)
  | 2 => some (24, 0xB2B117)
  | 3 => some (16, 0x1021)
  | 4 => some (11, 0x621)
  | 5 => some (6, 0x21)
  | _ => none

/-! ## Checks and engine time (R235, R236, R239) -/

/-- Cause of a MALFORMED job: 1 header, 2 an engine field, 3 JOB_BYTES; 0 when it is well formed. -/
def jobCause (j : Job) (eng : Nat) : Nat :=
  let raw := j.raw
  let n := jobCount raw
  if j.bytes ≠ jobLen j.cls then 3
  else if db raw 0 1 ≠ j.cls + 1 ∨ db raw 1 1 ≠ 1 ∨ n = 0 ∨ 4096 < n ∨ (j.cls = 5 ∧ n ≠ 1) then 1
  else
    let ok := match j.cls with
      | 0 => (fftCycles (db raw 32 2)).isSome && db raw 36 4 % 4 == 0 && db raw 40 4 % 4 == 0
      | 1 => ldOk true raw
      | 2 => ldOk false raw
      | 3 => poOk raw
      | 4 => decide (1 ≤ crMode raw) && decide (crMode raw ≤ 5) && (decide (2 < crMode raw) || (crcPoly (db raw 33 1)).isSome)
      | _ => db raw 32 1 == eng && decide (1024 ≤ db raw 36 4) && decide (db raw 36 4 ≤ 1048576) && db raw 36 4 % 16 == 0
    if ok then 0 else 2

/-- Engine time of a job in accelerator-clock cycles (R239); a MALFORMED job has none. -/
def engineTime (j : Job) (eng : Nat) : Nat :=
  let raw := j.raw
  let n := jobCount raw
  let up := fun a b => (a + b - 1) / b
  if jobCause j eng ≠ 0 then 0
  else match j.cls with
    | 0 => 96 + n * (fftCycles (db raw 32 2)).getD 0
    | 1 => 128 + sumBy (fun r => ldIter raw * (if ldBg2 raw then 197 else 316) + up (ldE raw r) 64) (List.range n)
    | 2 => 96 + sumBy (fun r => (if ldBg2 raw then 52 else 68) + up (ldE raw r) 128) (List.range n)
    | 3 => if poDir raw = 0 then 32 + n * (16 + poN raw / 8) else 64 + n * (64 + poN raw * poL raw / 2)
    | 4 => 32 + n * (8 + up (crLen raw) 512)
    | _ => 64 + up (db raw 36 4) 4

/-- Time left of the current run of partition `p` on an arbiter, in ns (R170); the period's end ends it when idle scenes follow
(R157). -/
def State.runLeft (s : State) (arb p : Nat) : Nat :=
  let n := scenesOf s.ro.period
  if s.ownerNow arb ≠ p then 0
  else
    let l := (List.range (if s.stretchAhead then n - s.ro.scene else n)).takeWhile fun i =>
      s.roOwner s.roBank arb ((s.ro.scene + i) % n) == p
    l.length * 50 - (((s.roNow : Int) - s.ro.align) % 50).toNat

/-- Whether a waiting job may start: its WAIT is satisfied (R97), the run of its partition is on (R170), and the partition's
share has an engine left (R109). -/
def State.jobMay (s : State) (e k : Nat) (j : Job) : Bool :=
  (s.seqOf j.sq).ready j.wait && s.ownerNow (400 + 6 * e + k) == j.owner
    && decide (((s.accOf e).run.filter fun r => r.1 / 64 == k && r.2.owner == j.owner).length < s.engineGrant j.owner k)

/-- The first job that may start, behind no other job of its own sequencer (log 17). -/
def firstJob (may : Job → Bool) : List Nat → List Job → Option Job
  | _, [] => none
  | held, j :: rest => if held.contains j.sq then firstJob may held rest
      else if may j then some j else firstJob may (j.sq :: held) rest

/-- A result without items. -/
def endRes (status cause : Nat) : JobRes := { status := status, cause := cause, done := 0, failed := 0, summary := 0 }

/-- A job goes from its class queue to an engine: the oldest of the class that may start, on a free engine in service, when its
engine time ends within the partition's current run (R109, R170). Its token is taken as it starts (R97). -/
def State.startJob (s : State) (e k eng : Nat) : State :=
  let a := s.accOf e
  match firstJob (s.jobMay e k) [] (a.queue.filter fun j => j.cls == k) with
  | none => s
  | some j =>
    if (s.jobOn e k eng).isSome || !s.engineOn e k eng || !s.smRuns || !s.domOk (4 + e) then s
    else
      let w := s.jobWho j eng
      let (s', g) := s.gRead w j.addr (min j.bytes (jobLen k)) false
      let go := fun (s : State) (j' : Job) =>
        let s := s.setSeq j.sq { s.seqOf j.sq with tok := applyTok (s.seqOf j.sq).tok j.wait none }
        (s.forget w.org).setAcc e { s.accOf e with
          queue := dropFirst j (s.accOf e).queue, run := Tbl.put (s.accOf e).run (k * 64 + eng) j',
          lastOn := Tbl.put (s.accOf e).lastOn (k * 64 + eng) j.owner }
      match g with
      | .wait => s'
      | .fail st =>
        go s' { j with tStart := s.tsNow (4 + e), res := some (endRes (if st = stAccess then 3 else st) 0) }
      | .ok b =>
        let j' := { j with raw := leNat b, tStart := s.tsNow (4 + e) }
        if k = 5 ∧ jobCause j' eng = 2 ∧ db j'.raw 32 1 ≠ eng ∧ db j'.raw 32 1 < 4 then s
        else if 5 * engineTime j' eng ≤ 6 * s'.runLeft (400 + 6 * e + k) j.owner then go s' j'
        else s'.forget w.org

/-- ACCEL_JOB_START (R170). -/
def execAccelJobStart (tile : Fin 2) (cls : Fin 6) (eng : Fin 32) (s : State) : Host.Outcome State Fault Refusal :=
  perform s fun s => s.startJob tile.val cls.val eng.val

/-! ## Running a job -/

/-- What a job's first phase gives. -/
inductive JobPlan where
  | ready (writes : List (Nat × List Byte)) (res : JobRes)
  | wait
  | fail (st : Nat)
  deriving DecidableEq, Repr

/-- Make the planned writes of a job, until one waits or fails. -/
def State.jobWrites (s : State) (e k eng : Nat) (w : Who) : List (Nat × List Byte) → State × Got
  | [] => (s, .ok [])
  | x :: rest =>
    let (s, g) := s.gWrite w x.1 x.2 false false
    match g, s.jobOn e k eng with
    | .ok _, some j => State.jobWrites (s.setJob e k eng { j with pos := j.pos + 1 }) e k eng w rest
    | g, _ => (s, g)

/-- Run the job on an engine, when it is of a kind: its plan, then its writes; a MALFORMED job only gets its status. -/
def State.runJob (s : State) (e k eng : Nat) (kind : Nat → Bool) (f : State → Who → Job → State × JobPlan) : State :=
  match s.jobOn e k eng with
  | none => s
  | some j =>
    if j.res.isSome then s
    else if jobCause j eng ≠ 0 then s.setJob e k eng { j with res := some (endRes 2 (jobCause j eng)) }
    else if !kind j.raw then s
    else
      let w := s.jobWho j eng
      let (s, p) := match j.plan with
        | some p => (s, JobPlan.ready p.1 p.2)
        | none => f s w j
      match p with
      | .wait => s
      | .fail st => (s.forget w.org).setJob e k eng { j with res := some (endRes (if st = stAccess then 3 else st) 0) }
      | .ready ws r =>
        let j := { j with plan := some (ws, r) }
        let s := (s.forget w.org).setJob e k eng j
        let (s, g) := s.jobWrites e k eng w (ws.drop j.pos)
        match g, s.jobOn e k eng with
        | .ok _, some j => s.setJob e k eng { j with plan := none, res := some r }
        | .fail st, some j => s.setJob e k eng { j with plan := none, res := some (endRes (if st = stAccess then 3 else st) 0) }
        | _, _ => s

/-- Read a job's input, then plan. -/
def State.jobRead (s : State) (w : Who) (ga n : Nat) (f : State → List Byte → State × JobPlan) : State × JobPlan :=
  let (s, g) := s.gRead w ga n false
  match g with
  | .wait => (s, .wait)
  | .fail st => (s, .fail st)
  | .ok b => f s b

/-- Addresses of a job. -/
def jobIn (raw : Nat) : Nat := db raw 8 8
def jobOut (raw : Nat) : Nat := db raw 16 8
def jobAux (raw : Nat) : Nat := db raw 24 8

/-- Items of equal stride, read one by one. -/
def State.jobItems (s : State) (w : Who) (ga stride n count : Nat) : State × Got × List (List Byte) :=
  s.planReads w ((List.range count).map fun i => ((ga + i * stride) % 2 ^ 64, n))

/-! ## FFT (R241) -/

/-- Complex samples of bytes. -/
def samplesOf (b : List Byte) : List (Int × Int) :=
  (pieces 4 (b.length / 4 + 1) b).map fun p => (signed 16 (leNat p), signed 16 (leNat p / 65536))

/-- Whether a value fits 16 bits. -/
def fits16 (x : Int) : Bool := decide (-32768 ≤ x) && decide (x ≤ 32767)

/-- One transform: its output, e, and its saturated outputs. -/
def fftOne (n : Nat) (inv bfp : Bool) (x : List (Int × Int)) : List Byte × Nat × Nat :=
  let bins := (List.range n).map (dftBin n inv x)
  let at_ := fun e => bins.map (scaleBin e)
  let e := if bfp then (least (fun e => (at_ e).all fun y => fits16 y.1 && fits16 y.2) 32).getD 32 else ceilLog2 n
  let y := at_ e
  let sat := y.filter fun p => !(fits16 p.1 && fits16 p.2)
  (y.flatMap fun p => leBytes 2 (unsigned 16 (sat16 p.1).1) ++ leBytes 2 (unsigned 16 (sat16 p.2).1), e, sat.length)

/-- An FFT job. -/
def planFft (s : State) (w : Who) (j : Job) : State × JobPlan :=
  let raw := j.raw
  let n := db raw 32 2
  let bfp := bit raw 273
  let (s, g, l) := s.jobItems w (jobIn raw) (db raw 36 4) (4 * n) (jobCount raw)
  match g with
  | .wait => (s, .wait)
  | .fail st => (s, .fail st)
  | .ok _ =>
    let out := l.map fun b => fftOne n (bit raw 272) bfp (samplesOf b)
    let ws := out.zipIdx.flatMap fun p => writePieces (jobOut raw + p.2 * db raw 40 4) p.1.1
    let es := if bfp then writePieces (jobAux raw) (out.map fun p => BitVec.ofNat 8 p.2.1) else []
    let emax := if bfp then maxBy (fun (p : List Byte × Nat × Nat) => p.2.1) out else 0
    let nsat := sumBy (fun (p : List Byte × Nat × Nat) => p.2.2) out
    (s, .ready (ws ++ es) { status := 0, cause := 0, done := jobCount raw, failed := 0, summary := emax + 256 * min 255 nsat })

/-- FFT_JOB (R241). -/
def execFftJob (tile : Fin 2) (eng : Fin 24) (s : State) : Host.Outcome State Fault Refusal :=
  perform s fun s => s.runJob tile.val 0 eng.val (fun _ => true) planFft

/-! ## LDPC (R242 to R245) -/

/-- Negation of LLRs, and their reading of −128 as −127 (R234). -/
def llrOf (b : Byte) : Int := max (-127) (signed 8 b.toNat)

/-- First position of a redundancy version in the circular buffer (TS 38.212). -/
def ldStart (raw : Nat) : Nat :=
  let z := ldZ raw
  let n := ldNcb raw
  let f := fun m => m * n / ((if ldBg2 raw then 50 else 66) * z) * z
  match ldRv raw with
  | 0 => 0
  | 1 => f (if ldBg2 raw then 13 else 17)
  | 2 => f (if ldBg2 raw then 25 else 33)
  | _ => f (if ldBg2 raw then 43 else 56)

/-- Whether a position of the circular buffer holds a filler bit. -/
def ldFiller (raw i : Nat) : Bool := decide (ldKp raw - 2 * ldZ raw ≤ i) && decide (i < ldK raw - 2 * ldZ raw)

/-- Positions of the circular buffer that carry bits, once around from the start of a redundancy version. -/
def ldRound (raw : Nat) : List Nat :=
  ((List.range (ldNcb raw)).map fun i => (ldStart raw + i) % ldNcb raw).filter fun i => !ldFiller raw i

/-- Positions that the E bits of a block take, in order. -/
def ldSelect (raw e : Nat) : List Nat :=
  let r := ldRound raw
  if r.isEmpty then [] else (List.range e).map fun k => nth 0 r (k % r.length)

/-- Bit interleaving: place i + j × Qm of the output holds bit i × E / Qm + j (TS 38.212 5.4.2.2). -/
def interleave (e qm : Nat) : List Nat := (List.range e).map fun k => k % qm * (e / qm) + k / qm

/-- Soft values of a block's circular buffer: the received LLRs added at their positions, fillers +127, others 0. -/
def ldSoft (raw e : Nat) (llrs : List Int) : List Int :=
  let inter := (interleave e (ldQm raw)).zip llrs
  let bitLlr := inter.foldl (fun (l : List Int) p => l.set p.1 p.2) (List.replicate e 0)
  let l := (ldSelect raw e).zip bitLlr |>.foldl (fun (l : List Int) p => l.set p.1 (clampInt (-127) 127 (nth 0 l p.1 + p.2)))
    (List.replicate (ldNcb raw) 0)
  l.zipIdx.map fun p => if ldFiller raw p.2 then 127 else p.1

/-- The CRC of a transport block passes. -/
def tbPass (raw : Nat) (l : List Bool) : Bool :=
  match ldTb raw with
  | 1 => crcBits 24 0x864CFB l == 0
  | 2 => crcBits 16 0x1021 l == 0
  | _ => true

/-- The first `n` bits of what a code answers. -/
def bitsTo (n : Nat) (l : List Bool) : List Bool := (List.range n).map fun i => nth false l i

/-- Cut a list at given lengths. -/
def cuts {α : Type} : List Nat → List α → List (List α)
  | [], _ => []
  | n :: t, l => l.take n :: cuts t (l.drop n)

/-- Rate-matched lengths of a job's blocks. -/
def ldEs (raw : Nat) : List Nat := (List.range (jobCount raw)).map (ldE raw)

/-- Decode blocks, given their LLRs and soft buffers. -/
def ldDecode (raw : Nat) (llrs : List Int) (old : List (List Int)) : List (List Int) × List (List Bool × Nat × Bool) :=
  let scr := if ldScr raw then gold (bits (db raw 56 4) 0 31) (db raw 60 4) llrs.length else []
  let llrs := llrs.zipIdx.map fun p => if nth false scr p.2 then -p.1 else p.1
  let soft := (cuts (ldEs raw) llrs).zipIdx.map fun p =>
    let l := ldSoft raw (ldE raw p.2) p.1
    if bit raw 261 then (l.zip (nth [] old p.2)).map fun q => clampInt (-127) 127 (q.1 + q.2) else l
  (soft, soft.map fun l =>
    let v := List.replicate (2 * ldZ raw) 0 ++ l ++ List.replicate (ldN raw - ldNcb raw) 0
    ldpcDecode (ldBg2 raw) (ldZ raw) (ldKp raw) (ldCb raw) 0 v [] (ldIter raw))

/-- An LDPC decoder job. -/
def planLdpcDecode (s : State) (w : Who) (j : Job) : State × JobPlan :=
  let raw := j.raw
  let n := jobCount raw
  let total := sumBy id (ldEs raw)
  s.jobRead w (jobIn raw) total fun s b =>
    let (s, g, old) := if bit raw 261 then s.jobItems w (jobAux raw) (ldNcb raw) (ldNcb raw) n else (s, .ok [], [])
    match g with
    | .wait => (s, .wait)
    | .fail st => (s, .fail st)
    | .ok _ =>
      let (soft, dec) := ldDecode raw (b.map llrOf) (old.map fun l => l.map llrOf)
      let harq := if bit raw 262 then
          writePieces (jobAux raw) (soft.flatMap fun l => l.map fun x => BitVec.ofNat 8 (unsigned 8 x)) else []
      let info := dec.flatMap fun d => bitsTo (ldKp raw - 24 * bn (ldCb raw)) d.1
      let a := (ldA raw).toNat
      let failed := (dec.filter fun d => !d.2.2).length
      let checked := ldTb raw != 0
      let bad := checked && !tbPass raw info
      let iters := sumBy (fun (d : List Bool × Nat × Bool) => d.2.1) dec
      let most := maxBy (fun (d : List Bool × Nat × Bool) => d.2.1) dec
      (s, .ready (harq ++ writePieces (jobOut raw) (bytesOfBits (info.take a)))
        { status := if failed = 0 ∧ !bad then 0 else 1, cause := 0, done := n, failed := failed,
          summary := iters % 65536 + 65536 * (most % 256) + 2 ^ 24 * bn checked + 2 ^ 25 * bn bad,
          early := dec.any fun d => decide (d.2.1 < ldIter raw) })

/-- LDPC_DECODE_JOB (R244). -/
def execLdpcDecodeJob (tile : Fin 2) (eng : Fin 32) (s : State) : Host.Outcome State Fault Refusal :=
  perform s fun s => s.runJob tile.val 1 eng.val (fun _ => true) planLdpcDecode

/-- One component of a constellation point of TS 38.211 5.1, as an odd integer over the square root of the norm. -/
def qamPart : List Bool → Int
  | [] => 0
  | [b] => if b then -1 else 1
  | b :: t => (if b then -1 else 1) * ((2 ^ t.length : Nat) - qamPart t)

/-- The norm's square of a modulation order. -/
def qamNorm (qm : Nat) : Nat :=
  match qm with
  | 2 => 2
  | 4 => 10
  | 6 => 42
  | 8 => 170
  | _ => 682

/-- m × AMP / √norm to the nearest integer; no tie occurs but at 0. -/
def scaleQam (m : Int) (amp norm : Nat) : Int :=
  let x := m.natAbs * amp
  let r := (isqrt (4 * x * x / norm) 64 0 + 1) / 2
  if m < 0 then -(r : Int) else (r : Int)

/-- The symbol of Qm bits: real and imaginary component. -/
def qamSymbol (qm amp : Nat) (l : List Bool) : Int × Int :=
  let part := fun o => (List.range (qm / 2)).map fun i => nth false l (2 * i + o)
  (scaleQam (qamPart (part 0)) amp (qamNorm qm), scaleQam (qamPart (part 1)) amp (qamNorm qm))

/-- Coded, rate-matched and interleaved bits of a block. -/
def ldBlock (raw r : Nat) (l : List Bool) : List Bool :=
  let cb := if ldCb raw then l ++ natBits 24 (crcBits 24 0x800063 l) else l
  let coded := (ldpcWord (ldBg2 raw) (ldZ raw) (cb ++ List.replicate (ldK raw - cb.length) false)).drop (2 * ldZ raw)
  let e := (ldSelect raw (ldE raw r)).map fun i => nth false coded i
  (interleave (ldE raw r) (ldQm raw)).map fun i => nth false e i

/-- An LDPC encoder job. Components that the 16-bit samples cannot hold have no stated value (log 2). -/
def planLdpcEncode (s : State) (w : Who) (j : Job) : State × JobPlan :=
  let raw := j.raw
  let a := (ldA raw).toNat
  s.jobRead w (jobIn raw) ((a + 7) / 8) fun s b =>
    let tb := (bitsOfBytes b).take a
    let tb := match ldTb raw with
      | 1 => tb ++ natBits 24 (crcBits 24 0x864CFB tb)
      | 2 => tb ++ natBits 16 (crcBits 16 0x1021 tb)
      | _ => tb
    let k := ldKp raw - 24 * bn (ldCb raw)
    let coded := (pieces k (jobCount raw + 1) tb).zipIdx.flatMap fun p => ldBlock raw p.2 p.1
    let scr := if ldScr raw then gold (bits (db raw 56 4) 0 31) (db raw 60 4) coded.length else []
    let coded := coded.zipIdx.map fun p => p.1 != nth false scr p.2
    let qm := ldQm raw
    let syms := if bit raw 261 then (pieces qm (coded.length / qm + 1) coded).map (qamSymbol qm (db raw 54 2)) else []
    let parts := syms.flatMap fun p => [p.1, p.2]
    let bytes := if bit raw 261 then
        parts.flatMap fun p => leBytes 2 (if fits16 p then unsigned 16 p else Config.openSample p)
      else bytesOfBits coded
    (s, .ready (writePieces (jobOut raw) bytes)
      { status := 0, cause := 0, done := jobCount raw, failed := 0, summary := Config.openSummary raw [b] })

/-- LDPC_ENCODE_JOB (R245). -/
def execLdpcEncodeJob (tile : Fin 2) (eng : Fin 16) (s : State) : Host.Outcome State Fault Refusal :=
  perform s fun s => s.runJob tile.val 2 eng.val (fun _ => true) planLdpcEncode

/-! ## Polar (R246) -/

/-- A polar encoder job. -/
def planPolarEncode (s : State) (w : Who) (j : Job) : State × JobPlan :=
  let raw := j.raw
  let n := (poA raw + 7) / 8
  let (s, g, l) := s.jobItems w (jobIn raw) n n (jobCount raw)
  match g with
  | .wait => (s, .wait)
  | .fail st => (s, .fail st)
  | .ok _ =>
    let out := l.flatMap fun b =>
      bytesOfBits (bitsTo (poE raw) (polarEncode (poChan raw) (poA raw) (poE raw) (db raw 38 2) ((bitsOfBytes b).take (poA raw))))
    (s, .ready (writePieces (jobOut raw) out)
      { status := 0, cause := 0, done := jobCount raw, failed := 0, summary := Config.openSummary raw l })

/-- POLAR_ENCODE_JOB (R246). -/
def execPolarEncodeJob (tile : Fin 2) (eng : Fin 8) (s : State) : Host.Outcome State Fault Refusal :=
  perform s fun s => s.runJob tile.val 3 eng.val (fun raw => poDir raw == 0) planPolarEncode

/-- A polar decoder job. -/
def planPolarDecode (s : State) (w : Who) (j : Job) : State × JobPlan :=
  let raw := j.raw
  let (s, g, l) := s.jobItems w (jobIn raw) (poE raw) (poE raw) (jobCount raw)
  match g with
  | .wait => (s, .wait)
  | .fail st => (s, .fail st)
  | .ok _ =>
    let dec := l.map fun b => polarDecode (poChan raw) (poA raw) (poE raw) (db raw 38 2) (poL raw) (b.map llrOf)
    let failed := (dec.filter fun d => !d.2).length
    (s, .ready (writePieces (jobOut raw) (dec.flatMap fun d => bytesOfBits (bitsTo (poA raw) d.1)))
      { status := bn (failed != 0), cause := 0, done := jobCount raw, failed := failed,
        summary := Config.openSummary raw l })

/-- POLAR_DECODE_JOB (R246). -/
def execPolarDecodeJob (tile : Fin 2) (eng : Fin 8) (s : State) : Host.Outcome State Fault Refusal :=
  perform s fun s => s.runJob tile.val 3 eng.val (fun raw => poDir raw == 1) planPolarDecode

/-! ## CRC and scrambling (R247, R248) -/

/-- What a mode makes of an item: its output bytes, and whether it fails. -/
def crcItem (raw i : Nat) (b : List Byte) : List Byte × Bool :=
  let len := crLen raw
  let bitsIn := (bitsOfBytes b).take len
  let poly := (crcPoly (db raw 33 1)).getD (24, 0)
  let step := if crMode raw = 4 then (len + 7) / 8 else len
  let c := gold (bits (db raw 40 4) 0 31) (db raw 44 4 + i * step) step
  match crMode raw with
  | 1 => (bytesOfBits (bitsIn ++ natBits poly.1 (crcBits poly.1 poly.2 bitsIn)), false)
  | 2 =>
    let pass := crcBits poly.1 poly.2 bitsIn == 0
    ([BitVec.ofNat 8 (bn pass)], !pass)
  | 3 => (bytesOfBits (bitsIn.zipIdx.map fun p => p.1 != nth false c p.2), false)
  | 4 => (b.zipIdx.map fun p => BitVec.ofNat 8 (unsigned 8 (if nth false c p.2 then -(llrOf p.1) else llrOf p.1)), false)
  | _ => (bytesOfBits c, false)

/-- A CRC and scrambling job: items of LEN bits at a stride of ceil(LEN / 8) bytes. An item of SCR_LLR is that many LLRs of a byte
each, and each of them takes one bit of the sequence (DEDUCED, log 17). -/
def planCrc (s : State) (w : Who) (j : Job) : State × JobPlan :=
  let raw := j.raw
  let n := (crLen raw + 7) / 8
  let (s, g, l) := if crMode raw = 5 then (s, .ok [], List.replicate (jobCount raw) [])
    else s.jobItems w (jobIn raw) n n (jobCount raw)
  match g with
  | .wait => (s, .wait)
  | .fail st => (s, .fail st)
  | .ok _ =>
    let out := l.zipIdx.map fun p => crcItem raw p.2 p.1
    let failed := (out.filter (·.2)).length
    (s, .ready (writePieces (jobOut raw) (out.flatMap (·.1)))
      { status := bn (failed != 0), cause := 0, done := jobCount raw, failed := failed,
        summary := Config.openSummary raw l })

/-- CRC_APPEND (R247). -/
def execCrcAppend (tile : Fin 2) (eng : Fin 8) (s : State) : Host.Outcome State Fault Refusal :=
  perform s fun s => s.runJob tile.val 4 eng.val (fun raw => crMode raw == 1) planCrc

/-- CRC_CHECK (R247). -/
def execCrcCheck (tile : Fin 2) (eng : Fin 8) (s : State) : Host.Outcome State Fault Refusal :=
  perform s fun s => s.runJob tile.val 4 eng.val (fun raw => crMode raw == 2) planCrc

/-- SCR_BITS (R247). -/
def execScrBits (tile : Fin 2) (eng : Fin 8) (s : State) : Host.Outcome State Fault Refusal :=
  perform s fun s => s.runJob tile.val 4 eng.val (fun raw => crMode raw == 3) planCrc

/-- SCR_LLR (R247). -/
def execScrLlr (tile : Fin 2) (eng : Fin 8) (s : State) : Host.Outcome State Fault Refusal :=
  perform s fun s => s.runJob tile.val 4 eng.val (fun raw => crMode raw == 4) planCrc

/-- SEQ (R247). -/
def execSeq (tile : Fin 2) (eng : Fin 8) (s : State) : Host.Outcome State Fault Refusal :=
  perform s fun s => s.runJob tile.val 4 eng.val (fun raw => crMode raw == 5) planCrc

/-! ## The end of a job (R236 to R238) -/

/-- Summary of a job: a chirp bank's is its records (R253). -/
def State.jobSummary (s : State) (e k eng : Nat) (r : JobRes) : Nat :=
  if k = 5 ∧ r.status = 0 then
    let b := Tbl.get {} (s.accOf e).banks eng
    b.written % 65536 + 65536 * (b.dropped % 65536)
  else r.summary

/-- The status record of a job (R236). -/
def jobRecord (e eng : Nat) (r : JobRes) (cycles t0 t1 sum : Nat) : List Byte :=
  leBytes 1 r.status ++ leBytes 1 r.cause ++ leBytes 1 e ++ leBytes 1 eng ++ leBytes 4 r.done ++ leBytes 4 r.failed
    ++ leBytes 4 cycles ++ leBytes 4 t0 ++ leBytes 4 t1 ++ leBytes 8 sum

/-- Line 2 of every core that plays a DSP task of an item (R222). -/
def State.accelIrq (s : State) (i : Nat) : State :=
  (s.placedTasks fun x => x.ty == 2 && decide (x.st = .playing)).foldl (fun s p =>
    if p.1 = i then
      match s.taskOf p.1 p.2 with
      | some x => (match x.place with
        | some (_, k) => s.raiseIrq k 2
        | none => s)
      | none => s
    else s) s

/-- Count a job that an engine has ended (R264). -/
def State.countJob (s : State) (e k cycles : Nat) (r : JobRes) : State :=
  let p := enginePage e k
  let s := ((s.bump64 p.kind p.inst 0x048 1).bump64 p.kind p.inst 0x050 cycles).bump p.kind p.inst 0x058 r.failed
  if r.status = 2 then s.bump p.kind p.inst 0x05C 1 else s

/-- A job that ends its task (R237): the stream ends with the status, cause and line once the jobs that have started are complete;
its jobs that have not started go. -/
def State.jobEnds (s : State) (j : Job) (st cause : Nat) : State :=
  let a := s.accOf j.tile
  let q := s.seqOf j.sq
  let left := a.queue.filter fun x => x.sq == j.sq
  let q := (j :: left).foldl (fun q x => q.done x.x false) q
  let s := (s.setAcc j.tile { a with queue := a.queue.filter fun x => x.sq != j.sq }).setSeq j.sq q
  if q.ending.isSome then s.wrapUp j.sq else s.endStreamWith j.sq st cause j.line

/-- A job ends (R236, R237): status after every output byte, counters, the SIG token; MALFORMED, ACCESS and a failed
access end the task. The status of a job whose task is over is discarded (R171). -/
def State.endJob (s : State) (e k eng cycles : Nat) : State :=
  match s.jobOn e k eng with
  | none => s
  | some j =>
    match j.res with
    | none => s
    | some r =>
      let w := s.jobWho j eng
      let t := engineTime j eng
      if !s.acked w.org j.x || decide (t < cycles) || (!r.early && r.status < 2 && cycles != t) then s
      else
        let orphan := j.task == 5000
        let (s, g) := if orphan || decide (3 < r.status) then (s, .ok [])
          else s.gWrite w j.stat (jobRecord e eng r cycles j.tStart (s.tsNow (4 + e)) (s.jobSummary e k eng r)) false false
        match g with
        | .wait => s
        | g =>
          let s := s.setAcc e { s.accOf e with run := Tbl.del (s.accOf e).run (k * 64 + eng) }
          let s := s.countJob e k cycles r
          if orphan then s
          else match g with
            | .fail st => s.jobEnds j st 0
            | _ =>
              let s := if r.status < 4 then s.accelIrq j.item else s
              if r.status = 2 then s.jobEnds j stMalformed 0x14
              else if r.status = 3 then s.jobEnds j stAccess 0
              else if 3 < r.status then s.jobEnds j r.status 0
              else s.doneX j.sq j.x true

/-- What the code of an engine's buffers makes of the failing positions of a word (R316). -/
def bufferEcc (flips : List (Fin 72)) : Ecc :=
  let l := flips.foldl (fun l f => addSorted f.val l) []
  if l.length ≤ 2 then eccFew l
  else match Config.syndrome l with
    | none => .bad (nth 0 l 0)
    | some f => .single (nth 0 f 0)

/-- ACCEL_ENGINE_ERROR (R238, R267): a residue mismatch, or else failing positions of a word of the engine's buffers. A
corrected error is raised; any other ends the attempt of the job's task, and the job writes no status. -/
def execAccelEngineError (tile : Fin 2) (cls : Fin 6) (eng : Fin 32) (residue : Bool) (flips : List (Fin 72)) (s : State) :
    Host.Outcome State Fault Refusal :=
  perform s fun s =>
    let e := tile.val
    let k := cls.val
    let w := bufferEcc flips
    if !s.engineOn e k eng.val || (!residue && decide (w = .good)) then s
    else if !residue && w.fixed then s.raise (enginePage e k) 1 (engineInfo k eng.val 0)
    else
      let a := (enginePage e k).base
      let s := s.setRg (a + 0x060) (satAdd (s.rg (a + 0x060)) 1)
      let s := s.raise (enginePage e k) (if residue then 3 else 2) (engineInfo k eng.val 0)
      match s.jobOn e k eng.val with
      | none => s
      | some j =>
        let s := (s.forget (s.jobWho j eng.val).org).setAcc e
          { s.accOf e with run := Tbl.del (s.accOf e).run (k * 64 + eng.val) }
        s.rerunTask j.item j.task true none

/-! ## Registers (R264) -/

/-- A write of CNT_CLR on one of the four pages of a tile. -/
def State.accelClear (s : State) (k : PageKind) (e : Nat) (v : Word) : State :=
  let s := if fld v 0 1 = 1 then s.clearRegs k e (offsets 0x048 0x060) else s
  if k = .chirp ∧ fld v 1 1 = 1 then
    [0, 1, 2, 3].foldl (fun s b => s.clearRegs .chirp e (offsets (0x114 + 0x40 * b) (0x13C + 0x40 * b))) s
  else s

/-- Page kind 0 FFT, 1 LDPC, 2 POLAR, 3 CHIRP (R263). -/
def accelKind (k : Nat) : PageKind := if k = 0 then .fft else if k = 1 then .ldpc else if k = 2 then .polar else .chirp

/-- ACCEL_CNT_CLR_JOBS (R264). -/
def execAccelCntClrJobs (tile : Fin 2) (kind : Fin 4) (s : State) : Host.Outcome State Fault Refusal :=
  perform s fun s => s.accelClear (accelKind kind.val) tile.val 1

/-- ACCEL_CNT_CLR_BANKS (R264). -/
def execAccelCntClrBanks (tile : Fin 2) (s : State) : Host.Outcome State Fault Refusal :=
  perform s fun s => s.accelClear .chirp tile.val 2

end Sys2Proof.Machine
end

