-- ==== Sys2Proof/Machine/Hbm.lean ====
section
/-! DEFINITION. The memory controllers' commands: device-level reads and writes of HBM lines, write-backs, scrubbing, row
repair, wipes, address translation, counters and stack temperature (R312 to R330, R476). -/

namespace Sys2Proof.Machine

/-- Whether a channel serves: trained in phase 4, its quarter and the device in no reset (R324, R329, R435). -/
def State.hbmUp (s : State) (inst : Nat) : Bool := decide (5 ≤ s.boot.phase) && !s.hbmHeld inst && !s.rst.warm

/-- Whether a full wipe runs. -/
def State.fullWipe (s : State) : Bool := s.wipes.contains .full

/-- Whether a line is of the HBM window and its channel serves. -/
def State.lineUp (s : State) (line : Nat) : Bool := decide (64 * line < hbmSize) && s.hbmUp (hbmInst (64 * line))

/-- The function that owns the extent of an HBM offset. -/
def State.ownerOf (s : State) (off : Nat) : Option Nat := (s.extent (off / 2 ^ 26)).map (·.1)

/-- Mirror a change of HBM for the function that owns the page (R362). -/
def State.mirrorOwner (s : State) (off : Nat) (data : List Byte) : State :=
  match s.ownerOf off with
  | some v => s.mirrorW v off data none
  | none => s

/-- A line's bytes of a 512-bit number. -/
def lineBytes (x : BitVec 512) : List Byte := leBytes 64 x.toNat

/-- HBM_READ (R317, R330): `flips` are the positions that have newly failed since the line was last read; `retried`, whether
the stack's interface erred and the read was made again. -/
def execHbmRead (line : BitVec 34) (spec retried : Bool) (flips : List (Fin 576)) (s : State) :
    Host.Outcome State Fault Refusal :=
  perform s fun s =>
    if !s.lineUp line.toNat then s
    else
      let a := 64 * line.toNat
      let s := if retried then s.raise (pageAt .hbmc (hbmInst a)) 6 (hbmInfo (hbmLa a)) else s
      let s := { s with ecc := flipBits s.ecc (8 * line.toNat) flips }
      let (s, r) := s.hbmLineRead line.toNat spec
      { s with mdata := r }

/-- HBM_WRITE (R319, R362). -/
def execHbmWrite (line : BitVec 34) (data : BitVec 512) (poison : Bool) (s : State) : Host.Outcome State Fault Refusal :=
  perform s fun s =>
    if !s.lineUp line.toNat then s
    else
      let (s, ok) := s.hbmLineWrite line.toNat (lineBytes data) poison
      if ok then { s.mirrorOwner (64 * line.toNat) (lineBytes data) with mdata := some [] } else { s with mdata := none }

/-- HBM_PARTIAL_WRITE (R319, R476): bytes from `first` on, within the line. -/
def execHbmPartialWrite (line : BitVec 34) (first : Fin 64) (data : List (BitVec 8)) (s : State) :
    Host.Outcome State Fault Refusal :=
  perform s fun s =>
    if !s.lineUp line.toNat then s
    else
      let d := data.take (64 - first.val)
      let (s, ok) := s.hbmPartWrite line.toNat first.val d
      if ok then { s.mirrorOwner (64 * line.toNat + first.val) d with mdata := some [] } else { s with mdata := none }

/-- CORRECTED_WRITE_BACK (R318): only while no write has come between; a line poisoned since has nothing to write. -/
def execCorrectedWriteBack (line : BitVec 34) (s : State) : Host.Outcome State Fault Refusal :=
  perform s fun s =>
    if !(s.wb.contains line.toNat) || !s.lineUp line.toNat then s
    else
      let s := { s with wb := s.wb.erase line.toNat }
      if s.poison.contains line.toNat then s else { s with ecc := clearEcc s.ecc (8 * line.toNat) 8 }

/-! ## Scrubbing (R320, R321) -/

/-- Lines of a channel. -/
def chanLines : Nat := 50331648

/-- Whether maintenance is deferred (R427). -/
def State.maintOff (s : State) : Bool := fld (s.pr .pwr 0 0x044) 3 1 == 1

/-- Patrol passes that every channel has completed. -/
def State.passes (s : State) : Nat :=
  (List.range 256).foldl (fun n i => min n ((s.hcOf i).scrub / chanLines)) (2 ^ 32 - 1)

/-- HBM_SCRUB_READ (R320), as maintenance traffic: a line that is poisoned already, or that a stack in fault state does not give, is only passed. -/
def execHbmScrubRead (ch : Fin 256) (flips : List (Fin 576)) (s : State) : Host.Outcome State Fault Refusal :=
  perform s fun s =>
    let i := ch.val
    if !s.hbmUp i || s.fullWipe || s.maintOff || !s.mayServe (16 + i) 0x11 then s
    else
      let h := s.hcOf i
      let line := hbmOffset i (64 * (h.scrub % chanLines)) / 64
      let s := (s.setHc i { h with scrub := h.scrub + 1 }).bump64 .hbmc i 0x05C 1
      let s := { s with ecc := flipBits s.ecc (8 * line) flips }
      let s := if s.poison.contains line || s.stackFault i then s else (s.hbmCheck (8 * line) 8).1
      s.setPr .hash 0 0x068 (BitVec.ofNat 32 s.passes)

/-- CS_SCRUB_READ (R321). A DARK cluster has nothing to scrub (R423). -/
def execCsScrubRead (cl : Fin 144) (flips : List (Fin 576)) (s : State) : Host.Outcome State Fault Refusal :=
  perform s fun s =>
    let k := cl.val
    let c := s.clOf k
    if c.pwr = .dark ∨ s.maintOff ∨ s.rst.warm ∨ s.rst.doms.contains (k / 36) then s
    else
      let line := k * (csSize / 64) + c.scrub % (csSize / 64)
      let s := s.setCl k { c with scrub := (c.scrub + 1) % (csSize / 64) }
      let s := { s with csEcc := flipBits s.csEcc (8 * line) flips }
      if s.csPoison.contains line then s else (s.csCheck k (8 * line) 8).1

/-! ## Row repair (R322, R323) -/

/-- Bank of a row: pseudo-channel and the four bank bits. -/
def bankOf (row : Nat) : Nat := row % 32

/-- Channel-local address at which a row begins. -/
def rowLa (row : Nat) : Nat := row / 32 * 2 ^ 15 + row % 32 * 2 ^ 8

/-- The 16 lines of a row of a channel. -/
def rowLines (inst row : Nat) : List Nat :=
  (List.range 16).map fun c => hbmOffset inst (rowLa row + c % 4 * 64 + c / 4 * 8192) / 64

/-- Spare rows of a bank as shipped (log 4). -/
def spareRows : Nat := 4

/-- Copy a line of a row, correcting as it goes; a line that cannot be corrected is poisoned, and a poisoned one stays so. -/
def State.copyLine (s : State) (line : Nat) : State :=
  if s.poison.contains line then s
  else
    let c := Checked.words { mem := s.hbm, ecc := s.ecc, free := s.free, found := [] } (8 * line) 8
    let s := { s with hbm := c.mem, ecc := c.ecc, free := c.free }
    if c.found.any fun f => f.2.isBad then s.hbmPoison line
    else { s with ecc := clearEcc s.ecc (8 * line) 8, wb := s.wb.erase line }

/-- ROW_REPAIR_PPR (R322): the row is in the repair buffer, which serves its accesses from then on, and the repair is issued in
a scene of owner 0x11 or 0x1F. -/
def execRowRepairPpr (ch : Fin 256) (s : State) : Host.Outcome State Fault Refusal :=
  perform s fun s =>
    let h := s.hcOf ch.val
    let o := s.ownerNow (16 + ch.val)
    match h.repair with
    | some r =>
      if s.hbmUp ch.val && !r.issued && (o == 0x11 || o == 0x1F) then
        let s := (rowLines ch.val r.row).foldl State.copyLine s
        s.setHc ch.val { s.hcOf ch.val with repair := some { r with issued := true } }
      else s
    | none => s

/-- The repair that is due beside that of a row: another row that has reached `REPAIR_N`. -/
def HbmCh.due (h : HbmCh) (n row : Nat) : Option Repair :=
  (h.rows.find? fun p => p.1 != row && decide (n ≤ sumBy id p.2)).map fun p => ⟨p.1, false⟩

/-- ROW_REPAIR_COMPLETE (R322, R323). A row that reached `REPAIR_N` meanwhile goes into repair. -/
def execRowRepairComplete (ch : Fin 256) (ok : Bool) (s : State) : Host.Outcome State Fault Refusal :=
  perform s fun s =>
    let i := ch.val
    let h := s.hcOf i
    match h.repair with
    | some r =>
      if !r.issued || !s.hbmUp i then s
      else
        let b := bankOf r.row
        let info := hbmInfo (rowLa r.row)
        let next := h.due (fld (s.pr .hbmc i 0x080) 0 8) r.row
        if !ok ∨ spareRows ≤ Tbl.get 0 h.used b then
          (s.setHc i { h with repair := next }).raise (pageAt .hbmc i) 5 info
        else
          let used := Tbl.upd 0 h.used b (· + 1)
          let s := s.setHc i { h with repair := next, used := used, rows := h.rows.filter fun p => p.1 != r.row }
          let s := (s.bump .hbmc i 0x078 1).setPr .hbmc i 0x07C (BitVec.ofNat 32 (spareRows - maxBy (·.2) used))
          let s := s.raise (pageAt .hbmc i) 4 info
          s.logEvent (pageAt .hbmc i) 0x1804 6 0 info (rowLa r.row)
    | none => s

/-! ## Wipes (R325, R326) -/

/-- Whether a function's strike has quietened and its wipe has not ended. -/
def State.wipeDue (s : State) (v : Nat) : Bool := (s.fnOf v).st == .striking && (s.fnOf v).wiping && !(s.fnOf v).wiped

/-- WIPE_START (R325, R326): the full wipe of phase 4; a strike's wipe once it is quiet, one at a time. -/
def execWipeStart (scope : WipeScope) (s : State) : Host.Outcome State Fault Refusal :=
  perform s fun s =>
    match scope with
    | .full => if s.boot.phase = 4 ∧ !s.fullWipe then { s with wipes := [.full], wipeAt := s.time.clk } else s
    | .strike v => if s.wipeDue v.val && s.wipes.isEmpty then { s with wipes := [.strike v] } else s

/-- Zero every memory of the device. -/
def State.wipeAll (s : State) : State :=
  { s with hbm := [], store := [], dspMem := [], dspEcc := [], poison := [], csPoison := [], ecc := [], csEcc := [], wb := [],
           cls := s.cls.map fun p => (p.1, { p.2 with written := [] }) }

/-- Wipe the store of a cluster for function `v`: whole, or only the lines its tasks wrote where another function shares the
cluster (R383). -/
def State.wipeStore (s : State) (v l : Nat) : State :=
  match s.physCl l with
  | none => s
  | some k =>
    let c := s.clOf k
    if (List.range 256).any fun w => w != v && s.hasCl w l then
      let s := (c.written.filter fun p => p.1 == v).foldl (fun s p => s.csZero k (64 * p.2) 64) s
      s.setCl k { s.clOf k with written := c.written.filter fun p => p.1 != v }
    else (s.csZero k 0 csSize).setCl k { c with written := [] }

/-- The wipe of a strike of function `v`: its extents and the stores of its clusters. -/
def State.wipeFn (s : State) (v : Nat) : State :=
  let s := s.hst.exts.foldl (fun s p => match p.2 with
    | some (o, _) => if o = v then s.hbmZero (p.1 * 2 ^ 26) (2 ^ 26) else s
    | none => s) s
  (List.range 128).foldl (fun s l => if s.hasCl v l then s.wipeStore v l else s) s

/-- WIPE_COMPLETE (R325): zero data with valid check bits. The patrol restarts the pass that a full wipe paused (R320); WIPE_LAST_US shows
how long the wipe took. -/
def execWipeComplete (scope : WipeScope) (s : State) : Host.Outcome State Fault Refusal :=
  perform s fun s =>
    if !(s.wipes.contains scope) then s
    else
      let s := { s with wipes := s.wipes.erase scope }
      match scope with
      | .full =>
        let s := s.wipeAll
        let hc : Tbl HbmCh := s.hc.map fun p => (p.1, { p.2 with scrub := p.2.scrub / chanLines * chanLines })
        ({ s with hc := hc.filter fun p => decide (p.2 ≠ ({} : HbmCh)) } : State).setPr .hash 0 0x05C
          (BitVec.ofNat 32 ((s.time.clk - s.wipeAt) / 1000))
      | .strike v =>
        let s := s.wipeFn v.val
        s.setFn v.val { s.fnOf v.val with wiped := true }

/-- WIPE_TIMEOUT (R325): the manual gives no information word (log 2). -/
def execWipeTimeout (s : State) : Host.Outcome State Fault Refusal :=
  perform s fun s =>
    if s.fullWipe then ({ s with free := s.free + 1 } : State).raise (pageAt .hash 0) 1 (Config.freeWord s.free) else s

/-! ## Registers -/

/-- XL_ADDR_HI (R314, R327): commits the address and translates it. Outside the window only VALID is given (log 2). -/
def State.writeXl (s : State) (req : Requestor) (v : Word) : State :=
  let a := pageAddr .hash 0 + 0x040
  let (s, x) := s.takePair req a v
  let s := (s.setRg a (BitVec.ofNat 32 x)).setRg (a + 4) v
  if x < hbmSize then
    let c := hbmChan x
    (s.setPr .hash 0 0x048 (BitVec.ofNat 32 (c + 256 * (c % 8) + 2048 * (c / 8) + 2 ^ 31))).setPr .hash 0 0x04C
      (BitVec.ofNat 32 (hbmLa x))
  else
    (({ s with free := s.free + 2 } : State).setPr .hash 0 0x048 (Config.freeWord s.free &&& 0x0000FFFF)).setPr .hash 0 0x04C
      (Config.freeWord (s.free + 1))

/-- XL_TRANSLATE (R327). -/
def execXlTranslate (req : Requestor) (val : BitVec 32) (s : State) : Host.Outcome State Fault Refusal :=
  perform s fun s => s.writeXl req val

/-- A write of CNT_CLR of an HBMC page (R328). -/
def State.writeHbmcClr (s : State) (i : Nat) (v : Word) : State :=
  if fld v 0 1 = 1 then s.clearRegs .hbmc i (offsets 0x044 0x070) else s

/-- HBMC_CNT_CLR (R328). -/
def execHbmcCntClr (ch : Fin 256) (val : BitVec 32) (s : State) : Host.Outcome State Fault Refusal :=
  perform s fun s => s.writeHbmcClr ch.val val

/-- HBM_TEMP_POLL (R329): every channel page of the stack that is UP shows the temperature. -/
def execHbmTempPoll (stack : Fin 8) (temp : BitVec 8) (s : State) : Host.Outcome State Fault Refusal :=
  perform s fun s =>
    (List.range 32).foldl (fun s c =>
      let i := stack.val * 32 + c
      if s.hbmUp i then s.setPr .hbmc i 0x040 (setFld (s.pr .hbmc i 0x040) 8 8 temp.toNat) else s) s

/-- `HC_STATE` (R329): what the channel is doing, beside the stored temperature. -/
def State.readHcState (s : State) (i : Nat) : Word :=
  let w := setFld (s.pr .hbmc i 0x040) 0 4 0
  let strike := s.wipes.any fun x => x != .full
  BitVec.ofNat 32 (w.toNat + bn (s.hbmUp i) + 2 * bn (s.rst.doms.contains (i / 64) || s.rst.warm) + 4 * bn (s.fullWipe || strike)
    + 8 * bn (s.hcOf i).repair.isSome)

/-- `WIPE_STAT` (R327). -/
def State.readWipeStat (s : State) : Word :=
  let wait := count (fun v => s.wipeDue v && !(s.wipes.any fun x => match x with
    | .strike w => w.val == v
    | .full => false)) 256
  BitVec.ofNat 32 (bn s.fullWipe + 2 * bn (s.wipes.any fun x => x != .full) + 256 * wait)

end Sys2Proof.Machine
end

