-- ==== Sys2Proof/Machine/Links.lean ====
section
/-! DEFINITION. The Graner links: states, flits, retry and credits, lane sparing, penalties (R331 to R345, R369, R370). -/

namespace Sys2Proof.Machine

/-! ## States (R334) -/

/-- Whether a link may leave DISABLED: lanes calibrated in phase 5, its group neither in fault state nor in reset (R402,
R429, R435). -/
def State.linkOk (s : State) (l : Nat) : Bool := decide (6 ≤ s.boot.phase) && s.domOk (14 + l / 4) && (l < 24 || !(s.rst.doms.contains 5))

/-- `GL_CTRL`. -/
def State.glCtrl (s : State) (l : Nat) : Word := s.pr .glink l 0x040

/-- A link that may leaves DISABLED for DETECT while `EN` is 1. -/
def State.linkStart (s : State) (l : Nat) : State :=
  if (s.linkOf l).st = .disabled ∧ fld (s.glCtrl l) 0 1 = 1 ∧ s.linkOk l then s.linkTo l .detect else s

/-- `GL_CTRL.EN` set to 1. -/
def State.linkEnable (s : State) (l : Nat) : State := (s.setPr .glink l 0x040 (setFld (s.glCtrl l) 0 1 1)).linkStart l

/-- `GL_CTRL.EN` set to 0. -/
def State.linkDisable (s : State) (l : Nat) : State := (s.setPr .glink l 0x040 (setFld (s.glCtrl l) 0 1 0)).linkDisabled l

/-- LINK_ENABLE (R334). -/
def execLinkEnable (l : Fin 48) (s : State) : Host.Outcome State Fault Refusal := perform s fun s => s.linkEnable l.val

/-- LINK_DISABLE (R334). -/
def execLinkDisable (l : Fin 48) (s : State) : Host.Outcome State Fault Refusal := perform s fun s => s.linkDisable l.val

/-- Lanes of a mask that are not retired. -/
def State.inService (s : State) (l mask : Nat) : Nat := mask &&& (1023 - fld (s.laneMap l) 16 10)

/-- Number of lanes of a mask. -/
def lanesIn (mask : Nat) : Nat := (lowLanes mask 10).length

/-- LINK_FAR_END_DETECTED (R334). -/
def execLinkFarEndDetected (l : Fin 48) (lanes : BitVec 10) (s : State) : Host.Outcome State Fault Refusal :=
  perform s fun s =>
    if (s.linkOf l.val).st = .detect ∧ 5 ≤ lanesIn (s.inService l.val lanes.toNat) then s.linkTo l.val .train else s

/-- Power-on time a link has been in its state, in ns. -/
def State.linkAge (s : State) (l : Nat) : Nat := s.time.clk - (s.linkOf l).since

/-- LINK_TRAIN_COMPLETE (R334): within 50 ms; a lane that failed to train is left out of DATA. -/
def execLinkTrainComplete (l : Fin 48) (lanes : BitVec 10) (s : State) : Host.Outcome State Fault Refusal :=
  perform s fun s =>
    let up := s.inService l.val lanes.toNat
    if (s.linkOf l.val).st = .train ∧ 5 ≤ lanesIn up ∧ s.linkAge l.val ≤ 50000000 then (s.setDataLanes l.val up).linkTo l.val .config else s

/-- LINK_TRAIN_TIMEOUT (R334): 50 ms in TRAIN. -/
def execLinkTrainTimeout (l : Fin 48) (s : State) : Host.Outcome State Fault Refusal :=
  perform s fun s =>
    if (s.linkOf l.val).st = .train ∧ 50000000 ≤ s.linkAge l.val then s.linkTo l.val .detect else s

/-- Initial credits: the receive buffers of R340 in 16-byte slots. -/
def fullCredit : Tbl Nat := [(0, 4096), (1, 4096), (2, 2048), (3, 256)]

/-- A link becomes ACTIVE: requests held for want of a path are sent, and what waits on the link leaves. -/
def State.linkUp (s : State) (l : Nat) : State :=
  let x := s.linkOf l
  ((s.setLink l { x with width := s.dataLanes l }).linkTo l .active).sendHeld.pump l 64

/-- LINK_CONFIG_COMPLETE (R332, R334, R336): node numbers, link indices, FEC mode, lane maps and credits have been exchanged;
the far end's transmit map is this end's receive map. -/
def execLinkConfigComplete (l : Fin 48) (peerNode : Fin 16384) (peerLink : Fin 48) (peerLr : Bool) (peerMap : BitVec 32)
    (s : State) : Host.Outcome State Fault Refusal :=
  perform s fun s =>
    let x := s.linkOf l.val
    if x.st = .config then
      let s := s.setPr .glink l.val 0x050 (BitVec.ofNat 32 (peerNode.val + 65536 * peerLink.val + 2 ^ 31))
      let s := s.setPr .glink l.val 0x04C (mapBits peerMap)
      (s.setLink l.val { x.drained with lr := peerLr || fld (s.glCtrl l.val) 1 1 == 1, credit := fullCredit }).linkUp l.val
    else s

/-- Penalty of a lane now. -/
def State.lanePenNow (s : State) (l k : Nat) : Nat := penNow s.time.clk (Tbl.get (0, 0) (s.linkOf l).lanePen k)

/-- Retired lanes that a retrain after `GL_CTRL.RETURN` brings back: trained, and with a penalty below 750 (R343). -/
def State.returning (s : State) (l lanes : Nat) : Nat :=
  if (s.linkOf l).returnReq then
    sumBy (fun k => if bit lanes k && fld (s.laneMap l) (16 + k) 1 == 1 && decide (s.lanePenNow l k < 750) then 2 ^ k else 0)
      (List.range 10)
  else 0

/-- The lanes a retrain leaves in DATA: a degraded link keeps to the five lowest unless the retrain follows
`GL_CTRL.RETURN` (`wide`; R343). -/
def State.resumeLanes (s : State) (l mask : Nat) (wide : Bool) : State :=
  s.setDataLanes l (if wide then mask else sumBy (fun k => 2 ^ k) (lowLanes mask 5))

/-- LINK_RETRAIN_COMPLETE (R334, R343), within 100 µs: with fewer than five lanes the link goes DOWN. -/
def execLinkRetrainComplete (l : Fin 48) (lanes : BitVec 10) (s : State) : Host.Outcome State Fault Refusal :=
  perform s fun s =>
    let x := s.linkOf l.val
    if x.st = .retrain ∧ s.linkAge l.val ≤ 100000 then
      let back := s.returning l.val lanes.toNat
      let m := s.laneMap l.val
      let s := s.setLaneMap l.val (setFld m 16 10 (fld m 16 10 - back))
      let s := s.setLink l.val { x with returnReq := false }
      let up := s.inService l.val lanes.toNat
      if lanesIn up < 5 then s.linkDown l.val else (s.resumeLanes l.val up (x.returnReq || x.width != 5)).linkUp l.val
    else s

/-- LINK_RETRAIN_TIMEOUT (R334): 100 µs in RETRAIN. -/
def execLinkRetrainTimeout (l : Fin 48) (s : State) : Host.Outcome State Fault Refusal :=
  perform s fun s => if (s.linkOf l.val).st = .retrain ∧ 100000 ≤ s.linkAge l.val then s.linkDown l.val else s

/-- The far end of a link is lost: ACTIVE and RETRAIN go DOWN. -/
def State.farLost (s : State) (l : Nat) : State :=
  if (s.linkOf l).st = .active ∨ (s.linkOf l).st = .retrain then s.linkDown l else s

/-- LINK_FAR_END_LOST (R334). -/
def execLinkFarEndLost (l : Fin 48) (s : State) : Host.Outcome State Fault Refusal := perform s fun s => s.farLost l.val

/-- LINK_DOWN_TIMEOUT (R334): 1 ms in DOWN. -/
def execLinkDownTimeout (l : Fin 48) (s : State) : Host.Outcome State Fault Refusal :=
  perform s fun s => if (s.linkOf l.val).st = .down ∧ 1000000 ≤ s.linkAge l.val then s.linkTo l.val .detect else s

/-- LINK_DAMP_RELEASE (R344): once the penalty has fallen below 750. -/
def execLinkDampRelease (l : Fin 48) (s : State) : Host.Outcome State Fault Refusal :=
  perform s fun s =>
    let x := s.linkOf l.val
    if x.st = .damped ∧ penNow s.time.clk x.pen < 750 then s.linkTo l.val .detect else s

/-! ## GL_CTRL (R342, R343, R370) -/

/-- GL_RETRAIN (R370). -/
def execGlRetrain (l : Fin 48) (s : State) : Host.Outcome State Fault Refusal := perform s fun s => s.linkRetrain l.val

/-- UNDAMP: penalties cleared, a DAMPED link to DETECT. -/
def State.undamp (s : State) (l : Nat) : State :=
  let s := s.setLink l { s.linkOf l with pen := (0, 0), lanePen := [] }
  if (s.linkOf l).st = .damped then s.linkTo l .detect else s

/-- GL_UNDAMP (R370). -/
def execGlUndamp (l : Fin 48) (s : State) : Host.Outcome State Fault Refusal := perform s fun s => s.undamp l.val

/-- FORCE: the lane of FORCE_LANE is spared as on a hard failure. -/
def State.forceLane (s : State) (l k : Nat) : State :=
  let s := s.setPr .glink l 0x040 (setFld (s.glCtrl l) 4 4 k)
  if k < 10 then s.spareLane l k else s

/-- GL_FORCE (R342). -/
def execGlForce (l : Fin 48) (lane : Fin 16) (s : State) : Host.Outcome State Fault Refusal :=
  perform s fun s => s.forceLane l.val lane.val

/-- GL_RETURN (R343). -/
def execGlReturn (l : Fin 48) (s : State) : Host.Outcome State Fault Refusal :=
  perform s fun s => s.setLink l.val { s.linkOf l.val with returnReq := true }

/-- A write of GL_CTRL: EN, FEC and FORCE_LANE are stored, the other fields act and read 0. -/
def State.writeGlCtrl (s : State) (l : Nat) (v : Word) : State :=
  let s := s.setPr .glink l 0x040 (setFld (setFld (s.glCtrl l) 1 1 (fld v 1 1)) 4 4 (fld v 4 4))
  let s := if fld v 0 1 = 1 then s.linkEnable l else s.linkDisable l
  let s := if fld v 3 1 = 1 then s.undamp l else s
  let s := if fld v 9 1 = 1 then s.setLink l { s.linkOf l with returnReq := true } else s
  let s := if fld v 8 1 = 1 then s.forceLane l (fld v 4 4) else s
  if fld v 2 1 = 1 then s.linkRetrain l else s

/-- A write of CNT_CLR of a GLINK page (R369). -/
def State.writeGlClr (s : State) (l : Nat) (v : Word) : State :=
  if fld v 0 1 = 1 then s.clearRegs .glink l (offsets 0x058 0x080 ++ offsets 0x0C0 0x0E4) else s

/-- GL_CNT_CLR (R369). -/
def execGlCntClr (l : Fin 48) (val : BitVec 32) (s : State) : Host.Outcome State Fault Refusal :=
  perform s fun s => s.writeGlClr l.val val

/-- `GL_STAT` (R370). -/
def State.readGlStat (s : State) (l : Nat) : Word :=
  let x := s.linkOf l
  BitVec.ofNat 32 (linkCode x.st + 8 * bn x.lr + 16 * x.width + 256 * bn (Tbl.get {} s.mods l).present)

/-! ## Flits (R335, R336, R338 to R340) -/

/-- Take an acknowledgement of flits: what it covers leaves the replay buffer. -/
def Link.ackTo (x : Link) (fack : Nat) : Link :=
  if (fack + 4096 - x.txAcked) % 4096 ≤ x.unacked then { x with txAcked := fack } else x

/-- Take the credits of a flit. -/
def Link.addCredit (x : Link) (c : List (BitVec 8)) : Link :=
  { x with credit := [0, 1, 2, 3].foldl (fun t k => Tbl.upd 0 t k (· + (nth 0 c k).toNat)) x.credit }

/-- Ask for a replay, once until the replay arrives. -/
def State.askReplay (s : State) (l : Nat) : State :=
  let x := s.linkOf l
  if x.nakSent then s
  else ({ (s.setLink l { x with nakSent := true }) with out := .linkNak l x.rxSeq :: s.out })

/-- A NAK (R338, R339): the transmitter replays from FACK + 1; the eighth replay of one FSEQ within 1 ms retrains the link. -/
def State.nak (s : State) (l fack : Nat) : State :=
  let x := (s.linkOf l).ackTo fack
  if x.unacked = 0 ∨ x.txAcked ≠ fack then s.setLink l x
  else
    let first := (fack + 1) % 4096
    let old := x.replays.filter fun r => decide (s.time.clk < r.1 + 1000000)
    let replays := (s.time.clk, x.txNext) :: old
    let n := (replays.filter fun r => decide ((r.2 + 4096 - first) % 4096 ≠ 0 ∧ (r.2 + 4096 - first) % 4096 ≤ 1024)).length
    let s := (s.setLink l { x with replays := if 8 ≤ n then [] else replays }).bump .glink l 0x074 1
    let s := { s with out := .linkReplay l first :: s.out }
    if 8 ≤ n then (s.raise (pageAt .glink l) 7 (s.linkInfo l 0xF)).linkRetrain l else s

/-- `LANE_ERR[k]`. -/
def laneErr (k : Nat) : Nat := 0x0C0 + 4 * k

/-- Count the symbols FEC corrected, each on its lane too (R369). -/
def State.countSymbols (s : State) (l : Nat) (lanes : List (Fin 10)) : State :=
  lanes.foldl (fun s k =>
    let w := s.pr .glink l (laneErr k.val)
    s.setPr .glink l (laneErr k.val) (setFld w 0 16 (min 65535 (fld w 0 16 + 1)))) (s.bump .glink l 0x068 lanes.length)

/-- The far end's new map, which both maps take at one flit boundary (R332, R341). -/
def State.takeMap (s : State) (l : Nat) (m : Option Word) : State :=
  match m with
  | some m => s.setLaneMap l (mapBits m)
  | none => s

/-- FLIT_RECEIVE (R336, R338, R340): while a replay is awaited, every other flit is discarded. -/
def State.flitIn (s : State) (l : Nat) (f : Flit) : State :=
  let s := s.countSymbols l f.corrected
  let s := if f.uncorrectable then (s.bump .glink l 0x06C 1).raise (pageAt .glink l) 1 (s.linkInfo l 0xF) else s
  if !f.crcOk then ((s.bump .glink l 0x070 1).raise (pageAt .glink l) 2 (s.linkInfo l 0xF)).askReplay l
  else
    let x := s.linkOf l
    let take := fun (x : Link) => (x.ackTo f.fack.toNat).addCredit f.credit
    match f.ty with
    | .nak => (s.nak l f.fack.toNat).pump l 64
    | .idle => if x.nakSent then s else (s.setLink l (take x)).pump l 64
    | .data | .ctrl =>
      if f.fseq.toNat = (x.rxSeq + 1) % 4096 then
        let s := (s.setLink l { take x with rxSeq := f.fseq.toNat, nakSent := false }).bump64 .glink l 0x060 1
        (s.takeMap l (if f.ty = .ctrl then f.map else none)).pump l 64
      else s.askReplay l

/-- FLIT_RECEIVE (R338). -/
def execFlitReceive (l : Fin 48) (flit : Flit) (s : State) : Host.Outcome State Fault Refusal :=
  perform s fun s => if s.linkActive l.val then s.flitIn l.val flit else s

/-- NAK_RECEIVE (R338). -/
def execNakReceive (l : Fin 48) (fack : BitVec 12) (s : State) : Host.Outcome State Fault Refusal :=
  perform s fun s => if s.linkActive l.val then (s.nak l.val fack.toNat).pump l.val 64 else s

/-! ## Lanes (R341 to R344) -/

/-- LANE_LOCK_LOST (R344): 1,000 to the lane's penalty; at 3,000 the lane is spared. -/
def execLaneLockLost (l : Fin 48) (lane : Fin 10) (s : State) : Host.Outcome State Fault Refusal :=
  perform s fun s =>
    let k := lane.val
    let x := s.linkOf l.val
    let p := addPen s.time.clk (Tbl.get (0, 0) x.lanePen k) 1000
    let w := s.pr .glink l.val (laneErr k)
    let s := s.setPr .glink l.val (laneErr k) (setFld w 16 8 (min 255 (fld w 16 8 + 1)))
    let s := s.setLink l.val { x with lanePen := Tbl.set (0, 0) x.lanePen k p, noLock := Tbl.set 0 x.noLock k (s.time.clk + 1) }
    let s := s.scoreEvent 5 (l.val * 10 + k)
    if 3000 ≤ p.1 then s.spareLane l.val k else s

/-- LANE_LOCK_REGAINED (R341). -/
def execLaneLockRegained (l : Fin 48) (lane : Fin 10) (s : State) : Host.Outcome State Fault Refusal :=
  perform s fun s =>
    let x := s.linkOf l.val
    s.setLink l.val { x with noLock := Tbl.set 0 x.noLock lane.val 0 }

/-- Whether the module of a link reports TX fault or receive LOS on a lane (R372). -/
def State.laneFaulty (s : State) (l k : Nat) : Bool :=
  let w := s.pr .optm l 0x044
  fld w (6 + k) 1 == 1 || fld w (16 + k) 1 == 1

/-- Whether a lane lost lock 10 µs ago or longer and has not regained it (R341). -/
def State.lockGone (s : State) (l k : Nat) : Bool :=
  let t := Tbl.get 0 (s.linkOf l).noLock k
  t != 0 && decide (t + 9999 ≤ s.time.clk)

/-- LANE_HARD_FAIL (R341): the lane has no lock for 10 µs, or its module reports it faulty. -/
def execLaneHardFail (l : Fin 48) (lane : Fin 10) (s : State) : Host.Outcome State Fault Refusal :=
  perform s fun s =>
    if s.lockGone l.val lane.val || s.laneFaulty l.val lane.val then s.spareLane l.val lane.val else s

/-- `LANE_ERR[k]` as it reads: counts, and the penalty of the lane / 64 (R369). -/
def State.readLaneErr (s : State) (l k : Nat) : Word := setFld (s.pr .glink l (laneErr k)) 24 8 (s.lanePenNow l k / 64)

end Sys2Proof.Machine
end

