-- ==== Sys2Proof/Machine/Optics.lean ====
section
/-! DEFINITION. Optical modules: insertion, polling, alarms and laser life (R366 to R368, R372). -/

namespace Sys2Proof.Machine

/-- What the life log keeps of a laser. -/
def State.laserOf (s : State) (id : List Word) : Laser :=
  ((s.life.lasers.find? fun p => p.1 == id).map (·.2)).getD {}

/-- Insertion or removal: source 0x4001 and its record (R411). -/
def State.modEvent (s : State) (m : Nat) : State :=
  (s.raise (pageAt .optm m) 1 0xF).logEvent (pageAt .optm m) 0x4001 0x0C 0 0xF 0

/-- MODULE_INSERT (R367, R368): identity read, the count of a module seen before resumed. -/
def execModuleInsert (m : Fin 48) (ident : List (BitVec 32)) (s : State) : Host.Outcome State Fault Refusal :=
  perform s fun s =>
    let i := m.val
    if (s.modOf i).present then s
    else
      let s := (s.setMod i { present := true }).setPr .optm i 0x044 1
      if !s.modOn i then s
      else
        let s := (List.range 14).foldl (fun s k => s.setPr .optm i (0x060 + 4 * k) (nth 0 ident k)) s
        (s.setMod i { present := true, laser := s.laserOf (s.modIdent i) }).modEvent i

/-- MODULE_REMOVE (R367): the link of the slot goes DOWN. -/
def execModuleRemove (m : Fin 48) (s : State) : Host.Outcome State Fault Refusal :=
  perform s fun s =>
    let i := m.val
    if !(s.modOf i).present then s
    else
      let s := (s.keepModule i).setPr .optm i 0x044 0
      let s := if s.modOn i then s.modEvent i else s
      s.farLost i

/-- `OM_LANE[k]`: transmit bias and received power. -/
def State.omLane (s : State) (m k : Nat) : Word := s.pr .optm m (0x0A0 + 4 * k)

/-- Laser-on time and baseline sums after a poll (R368): the module Ready and a transmitter enabled. -/
def Laser.poll (x : Laser) (poll state : Nat) (bias : List Nat) : Laser :=
  if state = 3 ∧ bias.any (· != 0) then
    let y := { x with onTenths := x.onTenths + poll }
    if x.onTenths < 864000 then { y with sum := (x.sum.zip bias).map fun p => p.1 + p.2, n := x.n + 1 } else y
  else x

/-- The lanes whose module reports TX fault or receive LOS fail hard (R341, R367). -/
def State.faultyLanes (s : State) (i : Nat) : State :=
  (List.range 10).foldl (fun s k => if s.laneFaulty i k then s.spareLane i k else s) s

/-- MODULE_POLL (R366, R367): a failed bus access, or the module's state, flags and monitors; TX fault or receive LOS on a
lane is a hard failure of it (R341). -/
def State.pollModule (s : State) (i : Nat) (o : ModuleObs) : State :=
  if !o.busOk then
    (s.setPr .optm i 0x044 (setFld (s.pr .optm i 0x044) 4 1 1)).raise (pageAt .optm i) 3 0xF
  else
    let s := s.setPr .optm i 0x044 (BitVec.ofNat 32 (1 + 2 * o.state.toNat + 64 * o.txFault.toNat + 65536 * o.rxLos.toNat))
    let s := s.setPr .optm i 0x048 (BitVec.ofNat 32 (o.temp.toNat + 65536 * o.vcc.toNat))
    let s := (List.range 10).foldl (fun s k => s.setPr .optm i (0x0A0 + 4 * k) (nth 0 o.lanes k)) s
    let bias := (List.range 10).map fun k => fld (nth 0 o.lanes k) 0 16
    let x := s.modOf i
    let s := s.setMod i { x with laser := x.laser.poll (max 1 (fld (s.pr .optm i 0x040) 8 8)) o.state.toNat bias }
    let s := if o.alarm then s.raise (pageAt .optm i) 2 0xF else s
    s.faultyLanes i

/-- MODULE_POLL (R367). -/
def execModulePoll (m : Fin 48) (obs : ModuleObs) (s : State) : Host.Outcome State Fault Refusal :=
  perform s fun s => if (s.modOf m.val).present && s.modOn m.val then s.pollModule m.val obs else s

/-- OPT_INT_ASSERT (R366): the flags of every present module are read; `flags` are those with a flag up. A TX
fault or receive LOS is a hard failure of its lane (R367). -/
def execOptIntAssert (flags : List ModuleFlags) (s : State) : Host.Outcome State Fault Refusal :=
  perform s fun s =>
    let s := { s with out := ((List.range 48).filter fun m => (s.modOf m).present && s.modOn m).map .moduleFlags ++ s.out }
    flags.foldl (fun s f =>
      let i := f.m.val
      if (s.modOf i).present && s.modOn i then
        let w := setFld (setFld (s.pr .optm i 0x044) 6 10 f.txFault.toNat) 16 10 f.rxLos.toNat
        let s := s.setPr .optm i 0x044 w
        let s := if f.alarm then s.raise (pageAt .optm i) 2 0xF else s
        s.faultyLanes i
      else s) s

/-! ## Laser life (R368) -/

/-- Hours left by the trend of one lane, if its bias rises: the least-squares slope over the snapshots (power-on ns, bias),
against the end-of-life bias; floor of the exact quotient. -/
def laneTrend (sum n pct : Nat) (pts : List (Nat × Nat)) (bias : Nat) : Option Nat :=
  let k := pts.length
  let st := sumBy (·.1) pts
  let sb := sumBy (·.2) pts
  let stt := sumBy (fun p => p.1 * p.1) pts
  let stb := sumBy (fun p => p.1 * p.2) pts
  let p : Int := (k * stb : Nat) - (st * sb : Nat)
  let q := k * stt - st * st
  if n = 0 ∨ p ≤ 0 then none
  else some ((sum * (100 + pct) - 100 * n * bias) * q / (100 * n * p.toNat * 3600000000000))

/-- Remaining life of the module of a slot in hours. -/
def State.lifeLeft (s : State) (m : Nat) (x : Laser) : Nat :=
  let pct := fld (s.pr .optm m 0x058) 0 8
  let rated := fld (s.pr .optm m 0x054) 0 24 - x.onTenths / 36000
  (List.range 10).foldl (fun b k =>
    match laneTrend (nth 0 x.sum k) x.n pct (x.hist.map fun h => (h.1, nth 0 h.2 k)) (fld (s.omLane m k) 0 16) with
    | some h => min b h
    | none => b) (min rated 0xFFFFFF)

/-- What a snapshot does for a module: the count to the life log, the bias history, the remaining life and its warning. -/
def State.laserSnap (s : State) (m : Nat) : State :=
  let y := s.modOf m
  if !y.present || !s.modOn m then s
  else
    let x := y.laser
    let now := (s.time.clk, (List.range 10).map fun k => fld (s.omLane m k) 0 16)
    let x := { x with hist := now :: x.hist.filter fun h => decide (s.time.clk ≤ h.1 + 2592000000000000) }
    let left := s.lifeLeft m x
    let warn := decide (left < fld (s.pr .optm m 0x058) 16 16) && !x.warned
    let x := { x with warned := x.warned || warn }
    let s := ((s.setMod m { y with laser := x }).keepLaser (s.modIdent m) x).setPr .optm m 0x050 (BitVec.ofNat 32 left)
    if warn then s.raise (pageAt .optm m) 4 0xF else s

/-- `OM_ON_HRS`. -/
def State.readOnHrs (s : State) (m : Nat) : Word := BitVec.ofNat 32 (min 0xFFFFFF ((s.modOf m).laser.onTenths / 36000))

end Sys2Proof.Machine
end

