-- ==== Sys2Proof/Machine/Faults.lean ====
section
/-! DEFINITION. Releasing latched errors, the fault queue and pins, and the monitors (R397, R401, R403 to R406, R409,
R415 to R417, R428). -/

namespace Sys2Proof.Machine

/-! ## Page errors -/

/-- Whether the current bucket of a page has lasted `PG_SEV_WIN` / 16 µs (R397). -/
def State.bucketDue (s : State) (p : Page) : Bool :=
  decide (2 * Tbl.get 0 s.flt.bucketAt (p.base / 256) + 125 * (s.rg (p.base + 0x034)).toNat ≤ 2 * s.time.clk)

/-- A bucket of a page ends (R397): the counts of its sources, and of the erring rows of a channel (R322), move on. -/
def State.bucketEnd (s : State) (p : Page) : State :=
  let s := { s with flt := { s.flt with bucketAt := Tbl.set 0 s.flt.bucketAt (p.base / 256) s.time.clk } }
  let s := { s with flt := { s.flt with counts := (List.range 32).foldl (fun t i =>
    Tbl.upd {} t (srcKey p i) fun c => { c with buckets := 0 :: c.buckets.take 15 }) s.flt.counts } }
  if p.kind = .hbmc then
    let h := s.hcOf p.inst
    s.setHc p.inst { h with rows := h.rows.map fun r => (r.1, 0 :: r.2.take 15) }
  else s

/-- SEVERITY_BUCKET_EXPIRE (R397). -/
def execSeverityBucketExpire (addr : BitVec 28) (s : State) : Host.Outcome State Fault Refusal :=
  perform s fun s => match pageOf addr.toNat with
    | some (p, _) => if s.bucketDue p then s.bucketEnd p else s
    | none => s

/-- Whether a sensor's latest sample stands at or above `TJ_WARN`. -/
def State.sensorHot (s : State) (i : Nat) : Bool :=
  match Tbl.look s.flt.temps i with
  | some t => decide (4 * (fld (s.pr .fault 0 0x084) 0 8 : Int) ≤ t.toInt)
  | none => false

/-- Whether the condition behind a source holds now (R401), for the sources that the manual words as a condition and whose
condition the state holds (log 55): source index `i` of a page, its information word. -/
def State.condition (s : State) (p : Page) (i : Nat) (info : Word) : Bool :=
  match p.kind, i with
  | .fault, 2 => s.domFault (fld info 0 5)
  | .fault, 3 => s.sensorHot (fld info 8 9)
  | .fault, 6 => decide ((Tbl.get (255, 255) s.flt.margins (fld info 8 9)).1 < 20)
  | .fault, 7 => decide (300 < (Tbl.get (0, 0) s.flt.ages (fld info 8 9)).1.toInt)
  | .fault, 9 => s.flt.exhausted
  | .life, 2 => fld (s.pr .life 0 0x040) 1 1 == 1
  | .life, 4 => decide (90 < s.life.wear)
  | .stage, 2 => s.work.bookWait
  | .glink, 4 => decide ((s.linkOf p.inst).width = 5) && decide ((s.linkOf p.inst).st = .active)
  | .glink, 5 => decide ((s.linkOf p.inst).st = .down)
  | .glink, 6 => decide ((s.linkOf p.inst).st = .damped)
  | .fabric, 2 => s.fab.lost.contains (fld info 0 14)
  | .eth, 1 => fld (s.pr .eth p.inst 0x044) (4 + fld info 0 2) 1 == 0
  | _, _ => false

/-- Release the latched error of a page (R401, R402): not while its cause persists, nor while its domain is in fault state.
An event source's cause persists while the source is severe, a condition source's while its condition holds; `persists` says
so of a condition outside the state. -/
def State.releaseErr (s : State) (p : Page) (persists : Bool) : State :=
  let first := s.rg (p.base + 0x010)
  let i := fld first 0 8
  if persists || s.condition p i (s.rg (p.base + 0x014)) || s.severe p i || s.domFault (pageDomain p.kind p.inst) then s
  else ((s.setRg (p.base + 0x010) 0).setRg (p.base + 0x014) 0).setRg (p.base + 0x018) 0

/-- PG_ERR_RELEASE (R401). -/
def execPgErrRelease (addr : BitVec 28) (persists : Bool) (s : State) : Host.Outcome State Fault Refusal :=
  perform s fun s => match pageOf addr.toNat with
    | some (p, _) => s.releaseErr p persists
    | none => s

/-- PG_ERR_OVF_CLEAR (R466): OVF and COUNT of the page clear. -/
def execPgErrOvfClear (addr : BitVec 28) (s : State) : Host.Outcome State Fault Refusal :=
  perform s fun s => match pageOf addr.toNat with
    | some (p, _) => s.setRg (p.base + 0x018) 0
    | none => s

/-! ## Pins (R403, R404) -/

/-- FAULT_PIN_MIN_END (R403): `MIN_US` after the last pulse began, FAULT_N follows HOLD. -/
def execFaultPinMinEnd (s : State) : Host.Outcome State Fault Refusal :=
  perform s fun s =>
    if s.flt.pulseAt + 1000 * fld (s.pr .fault 0 0x040) 1 7 ≤ s.time.clk then { s with flt := { s.flt with inMin := false } } else s

/-- Whether FAULT_N is driven low (R403). -/
def State.faultLow (s : State) : Bool := s.flt.inMin || fld (s.pr .fault 0 0x040) 0 1 == 1

/-- Whether ALERT_N is low (R404). -/
def State.alertLow (s : State) : Bool := s.pr .fault 0 0x064 &&& ~~~(s.pr .fault 0 0x068) != 0

/-- The bits of `ALERT_PEND` whose cause persists, which a 1 does not clear (R10): an exhausted budget, a sensor at or above
`TJ_WARN`, and `LOG_STAT.WRITE_FAIL`. The other bits come of events, whose causes do not last. -/
def State.alertCauses (s : State) : Word :=
  BitVec.ofNat 32 (2 * bn s.flt.exhausted + 8 * bn ((List.range 88).any s.sensorHot)
    + 32 * bn (fld (s.pr .life 0 0x040) 1 1 == 1))

/-- A write of ALERT_PEND (R10, R404, R415). -/
def State.writeAlertPend (s : State) (v : Word) : State :=
  s.setPr .fault 0 0x064 (s.pr .fault 0 0x064 &&& ~~~(v &&& ~~~s.alertCauses))

/-- ALERT_PEND_CLEAR (R404). -/
def execAlertPendClear (val : BitVec 32) (s : State) : Host.Outcome State Fault Refusal :=
  perform s fun s => s.writeAlertPend val

/-- PLDM_EVENT_ACK (R404). -/
def execPldmEventAck (bit : Fin 6) (s : State) : Host.Outcome State Fault Refusal :=
  perform s fun s => s.writeAlertPend (BitVec.ofNat 32 (2 ^ bit.val))

/-- A write of FAULT_CTRL (R416): a MIN_US outside 1 to 64 is ignored. -/
def State.writeFaultCtrl (s : State) (v : Word) : State :=
  let old := s.pr .fault 0 0x040
  let us := if 1 ≤ fld v 1 7 ∧ fld v 1 7 ≤ 64 then fld v 1 7 else fld old 1 7
  s.setPr .fault 0 0x040 (setFld (setFld (setFld old 0 1 (fld v 0 1)) 1 7 us) 8 3 (fld v 8 3))

/-- FAULT_STAT (R416). -/
def State.readFaultStat (s : State) : Word :=
  BitVec.ofNat 32 (bn s.faultLow + 2 * bn s.flt.inMin + 4 * bn s.alertLow + 8 * fld (s.pr .fault 0 0x044) 3 1
    + 256 * count (fun d => s.domFault d) 26)

/-! ## Fault queue (R415, R417) -/

/-- A read of FQ_SRC: the head latched and removed; source 0x0201 is armed again once the queue is empty. -/
def State.readFqSrc (s : State) : State :=
  match s.flt.fq with
  | [] => s.answer 0
  | e :: rest =>
    let s := s.setPr .fault 0 0x054 (BitVec.ofNat 32 (e.page / 16 + 65536 * (e.page % 16)))
    let s := (s.setPr .fault 0 0x058 e.info).setPr .fault 0 0x05C (BitVec.ofNat 32 e.time)
    let s := { s with flt := { s.flt with fq := rest, lostArmed := s.flt.lostArmed || rest.isEmpty } }
    s.answer (BitVec.ofNat 32 (e.src + 65536 * e.sev + 2 ^ 18 * bn e.change + 2 ^ 31))

/-- FQ_SRC_READ (R415). -/
def execFqSrcRead (s : State) : Host.Outcome State Fault Refusal := perform s State.readFqSrc

/-! ## Monitors (R405, R406, R428) -/

/-- Domain of a thermal sensor (16 per quarter, 12 per edge tile), of a droop detector (48, 32) and of an island (R419). -/
def sensorDom (i : Nat) : Nat := if i < 64 then i / 16 else 4 + (i - 64) / 12
def detectorDom (i : Nat) : Nat := if i < 192 then i / 48 else 4 + (i - 192) / 32
def islandDom (i : Nat) : Nat :=
  if i < 144 then i / 36
  else if i < 178 then 4 + (i - 144) / 17
  else if i < 190 then 4 + (i - 178) / 6
  else if i < 222 then 4
  else if i < 238 then (i - 222) / 4
  else if i < 244 then 4 + (i - 238) / 3
  else if i < 260 then nth 0 [0, 1, 2, 3, 0, 2, 1, 3, 4, 0, 4, 1, 5, 2, 5, 3] (i - 244)
  else if i < 276 then 6 + (i - 260) / 2
  else if i < 288 then 14 + (i - 276)
  else if i < 304 then 4 + (i - 288) / 8
  else if i = 307 then 5
  else 4

/-- Information word of a monitor's source (R417). -/
def monInfo (dom i : Nat) : Word := BitVec.ofNat 32 (dom + 256 * i)

/-- Change the open ceiling of a quarter by a step, within 1 to 8 (R426). -/
def State.ceil (s : State) (q : Nat) : Nat := fld (s.pr .pwr 0 0x060) (4 * q) 4
def State.setCeil (s : State) (q c : Nat) : State := s.setPr .pwr 0 0x060 (setFld (s.pr .pwr 0 0x060) (4 * q) 4 c)

/-- A quarter's sensor against TJ_WARN (R428): 100 samples, 1 ms, at or above it lower the ceiling by 1; 1,000 samples,
10 ms, of every sensor of the quarter 3 °C below it raise the ceiling by 1. -/
def State.thermalCeil (s : State) (i : Nat) (t : Int) : State :=
  let warn : Int := 4 * fld (s.pr .fault 0 0x084) 0 8
  let q := i / 16
  let hot := if warn ≤ t then Tbl.get 0 s.pwr.hot i + 1 else 0
  let cool := if t ≤ warn - 12 then min 1000 (Tbl.get 0 s.pwr.cool i + 1) else 0
  let s := { s with pwr := { s.pwr with hot := Tbl.set 0 s.pwr.hot i (hot % 100), cool := Tbl.set 0 s.pwr.cool i cool } }
  let s := if hot = 100 then s.setCeil q (max 1 (s.ceil q - 1)) else s
  if (List.range 16).all fun k => Tbl.get 0 s.pwr.cool (16 * q + k) == 1000 then
    let s := s.setCeil q (min 8 (s.ceil q + 1))
    { s with pwr := { s.pwr with cool := (List.range 16).foldl (fun t k => Tbl.set 0 t (16 * q + k) 0) s.pwr.cool } }
  else s

/-- The third sample in a row at or above TJ_TRIP (R405): the AON flag, and every clock but the time clock stops. -/
def State.thermalTrip (s : State) (i : Nat) (t : Int) : State :=
  let n := if 4 * (fld (s.pr .fault 0 0x088) 0 8 : Int) ≤ t then Tbl.get 0 s.flt.trips i + 1 else 0
  let s := { s with flt := { s.flt with trips := Tbl.set 0 s.flt.trips i (min 3 n) } }
  if 3 ≤ n then { s with flt := { s.flt with thermTrip := true, aonTrip := true } } else s

/-- Change the day of a domain (R412). -/
def State.dayUpd (s : State) (d : Nat) (f : DomDay → DomDay) : State :=
  { s with life := { s.life with day := Tbl.upd {} s.life.day d f } }

/-- A temperature in a domain's day. -/
def DomDay.temp (t : Int) (x : DomDay) : DomDay := { x with hot := some (max t (x.hot.getD t)), cool := some (min t (x.cool.getD t)) }

/-- THERMAL_SAMPLE (R405, R406, R428). -/
def execThermalSample (sensor : Fin 88) (temp : BitVec 16) (s : State) : Host.Outcome State Fault Refusal :=
  perform s fun s =>
    let i := sensor.val
    let t := temp.toInt
    let s := ({ s with flt := { s.flt with temps := Tbl.set 0 s.flt.temps i temp } } : State).dayUpd (sensorDom i) (DomDay.temp t)
    let s := if signed 16 (fld (s.pr .fault 0 0x08C) 0 16) < t then s.setPr .fault 0 0x08C (BitVec.ofNat 32 temp.toNat) else s
    let s := if 4 * (fld (s.pr .fault 0 0x084) 0 8 : Int) ≤ t then
        (s.raise (pageAt .fault 0) 3 (monInfo (sensorDom i) i)).alert 3
      else s
    let s := if i < 64 then s.thermalCeil i t else s
    s.thermalTrip i t

/-- DROOP_DETECT (R406, R428): the affected cluster's open ceiling is at most 4 for 10 µs. -/
def execDroopDetect (det : Fin 256) (cl : Option (Fin 144)) (s : State) : Host.Outcome State Fault Refusal :=
  perform s fun s =>
    let i := det.val
    let s := { s with flt := { s.flt with droops := Tbl.upd 0 s.flt.droops i fun n => min 0xFFFFFFFF (n + 1) } }
    let s := match cl with
      | some k => if i < 192 ∧ k.val / 36 = i / 48 then
          { s with pwr := { s.pwr with droopUntil := Tbl.set 0 s.pwr.droopUntil k.val (s.time.clk + 10000) } }
        else s
      | none => s
    s.raise (pageAt .fault 0) 5 (monInfo (detectorDom i) i)

/-- MARGIN_SAMPLE (R406). -/
def execMarginSample (island : Fin 312) (ps : BitVec 8) (s : State) : Host.Outcome State Fault Refusal :=
  perform s fun s =>
    let i := island.val
    let s := { s with flt := { s.flt with
      margins := Tbl.upd (255, 255) s.flt.margins i fun m => (ps.toNat, min m.2 ps.toNat) } }
    let s := s.dayUpd (islandDom i) fun x => { x with margin := min x.margin ps.toNat }
    if ps.toNat < 20 then s.raise (pageAt .fault 0) 6 (monInfo (islandDom i) i) else s

/-! ## Expulsion budget (R409) -/

/-- Actions whose age has reached EXP_WIN leave the window; EXHAUSTED clears once the budget has room. -/
def State.budgetFree (s : State) : State :=
  let w := fld (s.pr .fault 0 0x078) 0 16 * 60000000000
  let s := { s with flt := { s.flt with actions := s.flt.actions.filter fun t => decide (s.time.clk < t + w) } }
  if s.flt.actions.length < fld (s.pr .fault 0 0x074) 0 8 then { s with flt := { s.flt with exhausted := false } } else s

/-- EXPULSION_BUDGET_FREE (R409). -/
def execExpulsionBudgetFree (s : State) : Host.Outcome State Fault Refusal := perform s State.budgetFree

/-- EXP_USED (R415). -/
def State.readExpUsed (s : State) : Word := BitVec.ofNat 32 (min 255 s.expUsed + 2 ^ 31 * bn s.flt.exhausted)

/-- HS_DATA (R415): a unit with no stored score has 1,000. -/
def State.readHsData (s : State) : Word :=
  let sel := s.pr .fault 0 0x0B0
  let k := unitKey (fld sel 0 4) (fld sel 4 12)
  if 1 ≤ fld sel 0 4 ∧ fld sel 0 4 ≤ 7 ∧ fld sel 4 12 < healthUnits (fld sel 0 4) then
    BitVec.ofNat 32 (Tbl.get 1000 s.flt.score k + 65536 * bn (Tbl.get false s.flt.watch k) + 131072 * bn (Tbl.get false s.flt.acted k))
  else 0

/-- MON_MARGIN, MON_AGE, MON_TEMP and MON_DROOP of what MON_SEL names (R415). -/
def State.readMon (s : State) (off : Nat) : Word :=
  let sel := s.pr .fault 0 0x090
  if off = 0x094 then
    let m := Tbl.get (255, 255) s.flt.margins (fld sel 0 9)
    BitVec.ofNat 32 (m.1 + 256 * m.2)
  else if off = 0x098 then BitVec.ofNat 32 (Tbl.get (0, 0) s.flt.ages (fld sel 0 9)).1.toNat
  else if off = 0x09C then BitVec.ofNat 32 (Tbl.get 0 s.flt.temps (fld sel 16 7)).toNat
  else BitVec.ofNat 32 (Tbl.get 0 s.flt.droops (fld sel 24 8))

/-! ## Register settings with checked values (R397, R415) -/

/-- Keep a written value only if it is in range; the register keeps its old value otherwise. -/
def State.writeRange (s : State) (a : Nat) (v : Word) (lo w min max : Nat) : State :=
  if min ≤ fld v lo w ∧ fld v lo w ≤ max then s.storeAt a (setFld (s.rg a) lo w (fld v lo w)) else s

/-- A write of a FAULT page register with checked values (R415). -/
def State.writeFaultReg (s : State) (off : Nat) (v : Word) : State :=
  let a := pageAddr .fault 0 + off
  if off = 0x040 then s.writeFaultCtrl v
  else if off = 0x064 then s.writeAlertPend v
  else if off = 0x070 then (s.writeRange a v 0 10 0 1000).writeRange a v 16 10 0 1000
  else if off = 0x074 then (s.storeAt a v).budgetFree
  else if off = 0x078 then (s.writeRange a v 0 16 10 10080).budgetFree
  else if off = 0x084 then s.writeRange a v 0 8 60 115
  else if off = 0x090 then
    (((s.writeRange a v 0 9 0 311).writeRange a v 16 7 0 87).writeRange a v 24 8 0 255)
  else s.storeAt a v

end Sys2Proof.Machine
end

