-- ==== Sys2Proof/Machine/Life.lean ====
section
/-! DEFINITION. The life log: event records, snapshots, daily summaries, reads of it, and the out-of-band endpoint's answers
(R410 to R414, R418). -/

namespace Sys2Proof.Machine

/-! ## Identities (R18, R19) -/

/-- The ASCII code of character `n` of the lot code of a die. -/
def lotChar (die n : Nat) : Nat :=
  let c := Config.dieField die n % 36
  if c < 10 then 0x30 + c else 0x41 + (c - 10)

/-- PG_UID0, PG_UID1 and PG_UID2 of a page. -/
def pgUid (p : Page) (k : Nat) : Word :=
  let d := pageDie p.kind p.inst
  match k with
  | 0 => BitVec.ofNat 32 (sumBy (fun n => lotChar d n * 256 ^ n) [0, 1, 2, 3])
  | 1 => BitVec.ofNat 32 (lotChar d 4 + 2 ^ 8 * lotChar d 5 + 2 ^ 16 * (Config.dieField d 6 % 25 + 1)
      + 2 ^ 24 * pageUnit p.kind p.inst)
  | _ => BitVec.ofNat 32 (Config.dieField d 8 % 256 + 2 ^ 8 * (Config.dieField d 7 % 256))

/-! ## Writing (R410 to R413) -/

/-- Bytes of the life log. -/
def lifeSize : Nat := 0x8000000

/-- Store bytes in the life log. -/
def State.lifeWrite (s : State) (off : Nat) (b : List Byte) : State :=
  { s with life := { s.life with mem := s.life.mem.write off b } }

/-- `n` bytes whose contents the manual does not lay out (log 2). -/
def State.freeBytes (s : State) (n : Nat) : State × List Byte :=
  let w := (n + 3) / 4
  ({ s with free := s.free + w },
    (((List.range w).flatMap fun i => leBytes 4 (Config.freeWord (s.free + i)).toNat)).take n)

/-- Power-on hours counter in ms: POH_LO and POH_HI. -/
def State.poh (s : State) : Nat := s.time.clk / 1000000

/-- Bytes of an event record with its CRC (R411). -/
def State.recordBytes (s : State) (e : EvRec) : List Byte :=
  let p := ((pageOf (e.page * 256)).map (·.1)).getD (pageAt .chip 0)
  let body := leBytes 8 s.poh ++ leBytes 8 e.time ++ leBytes 2 e.src ++ leBytes 1 e.kind ++ leBytes 1 e.sev
    ++ leBytes 4 e.info.toNat
    ++ leBytes 4 (pgUid p 0).toNat ++ leBytes 4 (pgUid p 1).toNat ++ leBytes 2 (pgUid p 2).toNat
    ++ leBytes 2 (e.page / 16) ++ leBytes 4 (min e.count 0xFFFFFFFF) ++ leBytes 8 e.detail
    ++ leBytes 4 s.fwVer.toNat ++ leBytes 4 (s.pr .life 0 0x044).toNat ++ leBytes 1 (e.page % 16)
    ++ [0, 0, 0]
  body ++ leBytes 4 (crc32c body).toNat

/-- Address in the event ring of the next record. -/
def State.evSlot (s : State) : Nat := 0x2000000 + (s.pr .life 0 0x044).toNat % 524288 * 64

/-- The first waiting record is done with. -/
def State.dropRecord (s : State) : State := { s with life := { s.life with pend := s.life.pend.tail, retries := 0 } }

/-- Key of the 16 records a second of a page and source (R411). -/
def recentKey (e : EvRec) : Nat := e.page * 65536 + e.src

/-- Write the first waiting record: dropped beyond 16 a second of its page and source; a failed write is tried at the next
location, and the third failure gives it up. -/
def State.writeRecord (s : State) (ok : Bool) : State :=
  match s.life.pend with
  | [] => s
  | e :: _ =>
    let times := (Tbl.get [] s.life.recent (recentKey e)).filter fun t => decide (s.time.clk < t + 1000000000)
    if 16 ≤ times.length then (s.bump .life 0 0x048 1).dropRecord
    else if ok then
      let s := (s.lifeWrite s.evSlot (s.recordBytes e)).setPr .life 0 0x044 (s.pr .life 0 0x044 + 1)
      ({ s with life := { s.life with
          recent := Tbl.set [] s.life.recent (recentKey e) (s.time.clk :: times) } } : State).dropRecord
    else
      let (s, b) := s.freeBytes 64
      let s := (s.lifeWrite s.evSlot b).setPr .life 0 0x044 (s.pr .life 0 0x044 + 1)
      if s.life.retries < 2 then { s with life := { s.life with retries := s.life.retries + 1 } }
      else
        let s := (s.setPr .life 0 0x040 (setFld (s.pr .life 0 0x040) 1 1 1)).dropRecord
        (s.raise (pageAt .life 0) 2 0).alert 5

/-- The endurance that the memory reports left, in %: below 10 it raises 0x0604, once (R396, R418). -/
def State.takeWear (s : State) (left : Nat) : State :=
  let t := { s with life := { s.life with wear := 100 - left } }
  if left < 10 ∧ s.life.wear ≤ 90 then t.raise (pageAt .life 0) 4 0 else t

/-- LOG_STAT (R418). -/
def State.readLogStat (s : State) : Word := setFld (s.pr .life 0 0x040) 8 8 (100 - s.life.wear)

/-- EVENT_RECORD_WRITE (R411, R413); `left` is the endurance the memory then has left, in %. -/
def execEventRecordWrite (ok : Bool) (left : Fin 101) (s : State) : Host.Outcome State Fault Refusal :=
  perform s fun s => (s.writeRecord ok).takeWear left.val

/-! ## Snapshots (R412) -/

/-- Header of a snapshot or a daily summary: its fields in the order R412 names them; the rest of the 64 bytes is not laid
out (log 2). -/
def State.snapHeader (s : State) (kind : Nat) : State × List Byte :=
  let h := leBytes 8 s.poh ++ leBytes 8 (s.t64 (fld (s.pr .fault 0 0x040) 8 3)) ++ leBytes 4 (s.pr .life 0 0x05C).toNat
    ++ leBytes 4 s.fwVer.toNat ++ leBytes 4 (s.pr .chip 0 0x044).toNat ++ leBytes 1 kind
  let (s, b) := s.freeBytes 35
  (s, h ++ b)

/-- Units below 1,000, lowest score first, at most 320. -/
def State.lowUnits (s : State) : List (Nat × Nat × Nat) :=
  ((s.flt.score.foldl (fun l p => insertProposal (p.2, p.1 / 65536, p.1 % 65536) l) []).filter fun x =>
    decide (x.1 < 1000)).take 320

/-- Entry of a unit in a snapshot. -/
def State.unitEntry (s : State) (x : Nat × Nat × Nat) : List Byte :=
  let k := unitKey x.2.1 x.2.2
  leBytes 2 x.2.1 ++ leBytes 2 x.2.2 ++ leBytes 2 x.1
    ++ leBytes 2 (bn (Tbl.get false s.flt.watch k) + 2 * bn (Tbl.get false s.flt.acted k))

/-- Fill with zero bytes to a length. -/
def padTo (n : Nat) (b : List Byte) : List Byte := b ++ List.replicate (n - b.length) 0

/-- Extremes over the sensors or islands of a domain. -/
def domTemps (s : State) (d : Nat) : List Int :=
  ((List.range 88).filter fun i => sensorDom i == d).filterMap fun i => (Tbl.look s.flt.temps i).map BitVec.toInt

/-- Droop events of a domain since cold reset. -/
def State.domDroops (s : State) (d : Nat) : Nat :=
  sumBy (fun i => if detectorDom i = d then Tbl.get 0 s.flt.droops i else 0) (List.range 256)

/-- Whether a source reports a corrected error (R92, R231, R267, R329). -/
def correctedSrc (k : PageKind) (i : Nat) : Bool :=
  match k, i with
  | .clus, 1 | .rdsp, 1 | .fft, 1 | .ldpc, 1 | .polar, 1 | .chirp, 1 | .hbmc, 1 | .hbmc, 2 => true
  | _, _ => false

/-- Corrected errors of a domain since cold reset. -/
def State.domErrors (s : State) (d : Nat) : Nat :=
  sumBy (fun (e : Nat × SrcCount) => match pageOf (e.1 / 32 * 256) with
    | some (p, _) => if correctedSrc p.kind (e.1 % 32) ∧ pageDomain p.kind p.inst = d then e.2.total else 0
    | none => 0) s.flt.counts

/-- What a snapshot shows of a domain (R412). -/
def State.domNow (s : State) (d : Nat) : DomDay :=
  let t := domTemps s d
  { hot := t.foldl (fun b x => some (max x (b.getD x))) none, cool := t.foldl (fun b x => some (min x (b.getD x))) none,
    margin := minBy 255 (fun i => if islandDom i = d then (Tbl.get (255, 255) s.flt.margins i).1 else 255) (List.range 312),
    age := (List.range 312).foldl (fun (b : Int) i => if islandDom i = d then max b (Tbl.get (0, 0) s.flt.ages i).1.toInt else b) 0,
    score := s.domScore d, droops := s.domDroops d, errors := s.domErrors d }

/-- The 32 bytes of a domain: seven values of 4 bytes in R412's order, then zero (log 44). A domain without a sensor shows 0. -/
def DomDay.bytes (x : DomDay) : List Byte :=
  leBytes 4 (unsigned 32 (x.hot.getD 0)) ++ leBytes 4 (unsigned 32 (x.cool.getD 0)) ++ leBytes 4 x.droops
    ++ leBytes 4 x.margin ++ leBytes 4 (unsigned 32 x.age) ++ leBytes 4 x.errors ++ leBytes 4 x.score ++ [0, 0, 0, 0]

/-- The body of a snapshot or a daily summary, without its CRC, from the values of its domains. -/
def State.snapBody (s : State) (h : List Byte) (doms : Nat → DomDay) : List Byte :=
  let units := padTo 2560 (s.lowUnits.flatMap s.unitEntry)
  let mods := (List.range 48).flatMap fun m => leBytes 4 (s.readOnHrs m).toNat ++ leBytes 4 (s.pr .optm m 0x050).toNat
  padTo 4092 (h ++ (List.range 26).flatMap (fun d => (doms d).bytes) ++ units ++ mods)

/-- The 4 KiB of a snapshot. -/
def State.snapBytes (s : State) : State × List Byte :=
  let (s, h) := s.snapHeader 0x20
  let body := s.snapBody h s.domNow
  (s, body ++ leBytes 4 (crc32c body).toNat)

/-- A domain's day as its summary shows it: the extremes, and what was counted in the day. -/
def State.domDay (s : State) (d : Nat) : DomDay :=
  let x := Tbl.get {} s.life.day d
  { x with droops := s.domDroops d - x.droops, errors := s.domErrors d - x.errors }

/-- Take the ageing shifts of a snapshot: above 3.0% slower raises 0x0207 (R406). -/
def State.takeAges (s : State) (ageing : List (BitVec 16)) : State :=
  (ageing.take 312).zipIdx.foldl (fun s p =>
    let old := Tbl.get (0, 0) s.flt.ages p.2
    let s := { s with flt := { s.flt with
      ages := Tbl.set (0, 0) s.flt.ages p.2 (p.1, if old.2.toInt < p.1.toInt then p.1 else old.2) } }
    let s := s.dayUpd (islandDom p.2) fun x => { x with age := max x.age p.1.toInt }
    if 300 < p.1.toInt then s.raise (pageAt .fault 0) 7 (monInfo (islandDom p.2) p.2) else s) s

/-- A snapshot: the monitors of R406, the lasers of R368, the scores of R407, then the record. -/
def State.snapshot (s : State) (ageing : List (BitVec 16)) : State :=
  let s := (List.range 48).foldl State.laserSnap (s.takeAges ageing)
  let s := s.evaluate
  let s := (List.range 26).foldl (fun s d => s.dayUpd d fun x => { x with score := min x.score (s.domScore d) }) s
  let (s, b) := s.snapBytes
  (s.lifeWrite (0x4000000 + (s.pr .life 0 0x04C).toNat % 16384 * 4096) b).setPr .life 0 0x04C (s.pr .life 0 0x04C + 1)

/-- SNAPSHOT (R412). -/
def execSnapshot (ageing : List (BitVec 16)) (s : State) : Host.Outcome State Fault Refusal :=
  perform s fun s => s.snapshot ageing

/-- A write of SNAP_NOW: a snapshot with the ageing shifts as they were last measured. -/
def State.writeSnapNow (s : State) (v : Word) : State := if fld v 0 1 = 1 then s.snapshot [] else s

/-- SNAP_NOW (R418). -/
def execSnapNow (val : BitVec 32) (s : State) : Host.Outcome State Fault Refusal := perform s fun s => s.writeSnapNow val

/-- A new day begins: what has been counted so far is not its own. -/
def State.newDay (s : State) : State :=
  { s with life := { s.life with day := (List.range 26).map fun d =>
      (d, { droops := s.domDroops d, errors := s.domErrors d : DomDay }) } }

/-- DAILY_SUMMARY (R412): KIND 0x21, with the extremes and totals of the day. -/
def execDailySummary (s : State) : Host.Outcome State Fault Refusal :=
  perform s fun s =>
    let (s, h) := s.snapHeader 0x21
    let body := s.snapBody h s.domDay
    ((s.lifeWrite (0x1000000 + (s.pr .life 0 0x050).toNat % 4096 * 4096) (body ++ leBytes 4 (crc32c body).toNat)).setPr .life 0
      0x050 (s.pr .life 0 0x050 + 1)).newDay

/-! ## Reading (R413, R414, R418) -/

/-- `n` bytes of the life log: what lies below the rings is not laid out (log 2). -/
def State.lifeRead (s : State) (off n : Nat) : State × List Byte :=
  if off < 0x1000000 then s.freeBytes n else (s, s.life.mem.read off n)

/-- A read of RD_DATA: the word, and RD_ADDR moves on; a record whose CRC fails raises 0x0601. -/
def State.readRdData (s : State) (crcOk : Bool) : State :=
  let a := (s.pr .life 0 0x060).toNat
  let (s, b) := s.lifeRead a 4
  let s := if crcOk then s else (s.raise (pageAt .life 0) 1 0).alert 5
  (s.setPr .life 0 0x060 (BitVec.ofNat 32 ((a + 4) % lifeSize))).answer (BitVec.ofNat 32 (leNat b))

/-- LOG_RD_DATA_READ (R413, R418). -/
def execLogRdDataRead (crcOk : Bool) (s : State) : Host.Outcome State Fault Refusal := perform s fun s => s.readRdData crcOk

/-! ## Out of band (R414, R435, R442) -/

/-- Whether the MCTP endpoint serves the life log: from the end of boot phase 3, not in recovery; in RETIRED once the ROM
has run (R439). -/
def State.mctpLog (s : State) : Bool :=
  !s.boot.recovery && (decide (4 ≤ s.boot.phase) || (s.sec.lc == 4 && decide (2 ≤ s.boot.phase)))

/-- Whether it serves everything else of R414. -/
def State.mctpAll (s : State) : Bool := !s.boot.recovery && decide (4 ≤ s.boot.phase)

/-- Answer an MCTP request. -/
def State.mctpSend (s : State) (kind : Nat) (b : List Byte) : State := { s with out := .mctp kind b :: s.out }

/-- GET_LOG_INFO (R414). -/
def execGetLogInfo (s : State) : Host.Outcome State Fault Refusal :=
  perform s fun s =>
    if s.mctpLog then
      s.mctpSend 4 ([0x044, 0x04C, 0x050].flatMap fun o => leBytes 4 (s.pr .life 0 o).toNat)
    else s

/-- READ_LOG (R414): up to 256 bytes, not beyond the end of the log. -/
def execReadLog (off : BitVec 27) (len : Fin 257) (s : State) : Host.Outcome State Fault Refusal :=
  perform s fun s =>
    if s.mctpLog then
      let (s, b) := s.lifeRead off.toNat (min len.val (lifeSize - off.toNat))
      s.mctpSend 5 b
    else s

/-- Value of a PLDM sensor (R414). -/
def State.sensorValue (s : State) : PldmSensor → Nat
  | .thermal i => (Tbl.get 0 s.flt.temps i.val).toNat
  | .tjMax => fld (s.pr .fault 0 0x08C) 0 16
  | .inputPower => fld (s.pr .pwr 0 0x048) 0 16
  | .chipScore => fld (s.pr .fault 0 0x080) 0 10
  | .domainScore d => s.domScore d.val
  | .domainState d => bn (s.domFault d.val)
  | .linkState l => linkCode (s.linkOf l.val).st
  | .moduleLife m => (s.pr .optm m.val 0x050).toNat

/-- PLDM_SENSOR_READ (R414). -/
def execPldmSensorRead (sel : PldmSensor) (s : State) : Host.Outcome State Fault Refusal :=
  perform s fun s => if s.mctpAll then s.mctpSend 6 (leBytes 4 (s.sensorValue sel)) else s

end Sys2Proof.Machine
end

