-- ==== Sys2Proof/Machine/Power.lean ====
section
/-! DEFINITION. The power manager: samples, ceilings, operating points, cluster power states (R421 to R428, R432 to R434). -/

namespace Sys2Proof.Machine

/-! ## Limits and levers (R425 to R427) -/

/-- `TDP_W`, `EDC_W`, and `EDC_MS` in samples of 1 µs. -/
def State.tdp (s : State) : Nat := fld (s.pr .pwr 0 0x050) 0 12
def State.edcW (s : State) : Nat := fld (s.pr .pwr 0 0x054) 0 12
def State.edcRunMax (s : State) : Nat := 1000 * fld (s.pr .pwr 0 0x054) 16 4

/-- Bits of PWR_STAT (R433): 0 LIMITING, 1 EDC_ACTIVE, 2 UNENFORCEABLE, 3 MAINT_DEFERRED. -/
def State.pwrBit (s : State) (n : Nat) : Bool := fld (s.pr .pwr 0 0x044) n 1 == 1
def State.setPwrBit (s : State) (n : Nat) (b : Bool) : State := s.setPr .pwr 0 0x044 (setFld (s.pr .pwr 0 0x044) n 1 (bn b))

/-- A lever is applied: LIMITING, and source 0x0501 when it starts. -/
def State.limitStart (s : State) : State :=
  if s.pwrBit 0 then s else (s.setPwrBit 0 true).raise (pageAt .pwr 0) 1 0

/-- Whether every lever of R427 is released. -/
def State.allReleased (s : State) : Bool :=
  !s.pwrBit 3 && ((List.range 4).all fun q => s.ceil q == 8 && s.opOf q == 0) && decide (s.pwr.edcUntil ≤ s.time.clk)

/-- LIMITING, EDC_ACTIVE and UNENFORCEABLE end with the levers. -/
def State.limitEnd (s : State) : State :=
  let s := if s.pwr.edcUntil ≤ s.time.clk then s.setPwrBit 1 false else s
  if s.allReleased then
    { (s.setPwrBit 0 false).setPwrBit 2 false with pwr := { s.pwr with edcUntil := 0 } }
  else s

/-- The EDC response (R427): every open ceiling at most 2, held for 100 µs. -/
def State.edcResponse (s : State) : State :=
  let s := (s.bump .pwr 0 0x090 1).raise (pageAt .pwr 0) 2 0
  let s := (List.range 4).foldl (fun s q => s.setCeil q (min 2 (s.ceil q))) s
  ({ s with pwr := { s.pwr with edcUntil := s.time.clk + 100000 } } : State).setPwrBit 1 true |>.limitStart

/-- Samples of 1 µs in 100 ms. -/
def winMax : Nat := 100000

/-- Take a sample into the last 100 ms (R425). -/
def PwrSt.sample (p : PwrSt) (w : Nat) : PwrSt :=
  if p.winLen < winMax then { p with win := w :: p.win, winLen := p.winLen + 1, winSum := p.winSum + w }
  else { p with win := w :: p.win.dropLast, winSum := p.winSum + w - p.win.getLastD 0 }

/-- Mean power of the last 100 ms in W, rounded down; of the samples there are, while they are fewer (log 43). -/
def PwrSt.mean (p : PwrSt) : Nat := p.winSum / max 1 p.winLen

/-- POWER_SAMPLE (R425, R427, R432): the sample, its current and the mean over 100 ms. -/
def execPowerSample (watts deciAmps : BitVec 16) (s : State) : Host.Outcome State Fault Refusal :=
  perform s fun s =>
    let w := watts.toNat
    let s := { s with pwr := s.pwr.sample w }
    let mean := s.pwr.mean
    let s := s.setPr .pwr 0 0x048 (BitVec.ofNat 32 (w + 65536 * mean))
    let s := s.setPr .pwr 0 0x04C (BitVec.ofNat 32 deciAmps.toNat)
    let s := if s.pwrBit 0 then s.bump64 .pwr 0 0x084 1 else s
    let s := { s with pwr := { s.pwr with
      edcRun := if s.tdp < w then s.pwr.edcRun + 1 else 0,
      calm := if mean + 50 ≤ s.tdp then min 1000 (s.pwr.calm + 1) else 0 } }
    if s.edcW < w then s.edcResponse else s.limitEnd

/-- Whether a limit of R425 is exceeded by the last sample. -/
def State.overBudget (s : State) : Bool :=
  let v := s.pr .pwr 0 0x048
  decide (s.tdp < fld v 16 16) || decide (s.edcRunMax < s.pwr.edcRun) || decide (s.edcW < fld v 0 16)

/-- Budget enforcement is on: `PWR_CTRL.EN`. -/
def State.budgetOn (s : State) : Bool := fld (s.pr .pwr 0 0x040) 0 1 == 1

/-- Whether every lever down to the operating points is at its limit. -/
def State.opsExhausted (s : State) : Bool :=
  (List.range 4).all fun q => s.ceil q == 1 && (s.radioQ q || decide (fld (s.pr .pwr 0 0x05C) 0 3 ≤ s.opOf q))

/-- Whether levers may be released: the mean has stayed 50 W below TDP_W for 1 ms (R427). -/
def State.mayRelease (s : State) : Bool := s.pwr.calm == 1000

/-- Whether a lever may step: so many ns since the last step of one. -/
def State.paced (s : State) (ns : Nat) : Bool := decide (s.pwr.leverAt + ns ≤ s.time.clk)

/-- A lever has stepped. -/
def State.stepped (s : State) : State := { s with pwr := { s.pwr with leverAt := s.time.clk } }

/-- Start an operating-point step of a quarter: 1 down, 2 up (R421). -/
def State.startStep (s : State) (q d : Nat) : State :=
  { s with pwr := { s.pwr with stepping := Tbl.set 0 s.pwr.stepping q d, stepAt := Tbl.set 0 s.pwr.stepAt q s.time.clk } }

/-- Whether a commit waits for a quarter to return to operating point 0 (R422). -/
def State.commitNeeds (s : State) (q : Nat) : Bool :=
  s.ro.commitReq && s.boundQ (1 - s.roBank) (scenesOf s.ro.commitPer) q

/-- Move a lever one step (R427): a ceiling falls at most once in 10 µs, rises once in 10 µs after the EDC response, and any lever
is released at most once in 100 µs. Lowering keeps a quarter within one step of the others; raising is release in reverse
order, or the recovery from the EDC response once it no longer holds. -/
def State.lever (s : State) : PowerLever → State
  | .lower q =>
    if s.budgetOn && s.paced 10000 && decide (1 < s.ceil q) && ((List.range 4).all fun j => decide (s.ceil j ≤ s.ceil q)) then
      (s.setCeil q (s.ceil q - 1)).limitStart.stepped
    else s
  | .raise q =>
    let release := s.mayRelease && !s.pwrBit 3 && (List.range 4).all fun j => s.opOf j == 0
    if decide (s.ceil q < 8) && decide (s.pwr.edcUntil ≤ s.time.clk)
        && (release && s.paced 100000 || s.pwr.edcUntil != 0 && s.paced 10000) && ((List.range 4).all fun j => decide (s.ceil q ≤ s.ceil j)) then
      (s.setCeil q (s.ceil q + 1)).limitEnd.stepped
    else s
  | .opDown q =>
    if s.budgetOn && s.ceil q == 1 && !s.radioQ q && decide (s.opOf q < fld (s.pr .pwr 0 0x05C) 0 3)
        && Tbl.get 0 s.pwr.stepping q == 0 then
      (s.startStep q 1).limitStart.stepped
    else s
  | .opUp q =>
    if (s.mayRelease && !s.pwrBit 3 && s.paced 100000 || s.commitNeeds q) && s.opOf q != 0 && Tbl.get 0 s.pwr.stepping q == 0 then
      (s.startStep q 2).stepped
    else s
  | .deferMaint => if s.budgetOn && s.opsExhausted && !s.pwrBit 3 then (s.setPwrBit 3 true).limitStart.stepped else s
  | .resumeMaint => if s.mayRelease && s.paced 100000 && s.pwrBit 3 then (s.setPwrBit 3 false).limitEnd.stepped else s
  | .exhausted =>
    if s.budgetOn && s.opsExhausted && s.pwrBit 3 && s.overBudget && !s.pwrBit 2 then
      (s.setPwrBit 2 true).raise (pageAt .pwr 0) 3 0
    else s

/-- CEILING_STEP (R427). -/
def execCeilingStep (lever : PowerLever) (s : State) : Host.Outcome State Fault Refusal := perform s fun s => s.lever lever

/-- OP_STEP_COMPLETE (R421): the step of a quarter ends; `ok` is false when 50 µs have passed without it. -/
def execOpStepComplete (q : Fin 4) (ok : Bool) (s : State) : Host.Outcome State Fault Refusal :=
  perform s fun s =>
    let d := Tbl.get 0 s.pwr.stepping q.val
    let age := s.time.clk - Tbl.get 0 s.pwr.stepAt q.val
    if d = 0 ∨ (ok && decide (50000 < age)) ∨ (!ok && decide (age < 50000)) then s
    else if !ok then s.raise (pageAt .pwr 0) 4 (BitVec.ofNat 32 q.val)
    else
      let op := if d = 1 then s.opOf q.val + 1 else s.opOf q.val - 1
      let s := { s with pwr := { s.pwr with stepping := Tbl.set 0 s.pwr.stepping q.val 0 } }
      ((s.setPr .pwr 0 0x058 (setFld (s.pr .pwr 0 0x058) (4 * q.val) 4 op)).bump .pwr 0 0x08C 1).limitEnd

/-- REGULATOR_FAULT (R434). -/
def execRegulatorFault (dom : Fin 26) (s : State) : Host.Outcome State Fault Refusal :=
  perform s fun s => s.raise (pageAt .pwr 0) 4 (BitVec.ofNat 32 dom.val)

/-- A write of a PWR page register with checked values (R432). -/
def State.writePwrReg (s : State) (off : Nat) (v : Word) : State :=
  let a := pageAddr .pwr 0 + off
  if off = 0x050 then s.writeRange a v 0 12 500 2100
  else if off = 0x054 then (s.writeRange a v 0 12 500 2600).writeRange a v 16 4 1 5
  else if off = 0x05C then s.writeRange a v 0 3 0 4
  else if off = 0x064 then s.writeRange a v 0 16 64 65535
  else if off = 0x0A0 then s.writeRange a v 0 8 0 143
  else s.storeAt a v

/-- QOP as it reads (R432). -/
def State.readQop (s : State) : Word :=
  BitVec.ofNat 32 ((s.pr .pwr 0 0x058).toNat + sumBy (fun q => 2 ^ (16 + q) * bn (s.radioQ q)) (List.range 4))

/-! ## Cluster power states (R423, R424) -/

/-- Whether any function holds a physical cluster in its grant. -/
def State.granted (s : State) (k : Nat) : Bool :=
  match s.logCl k with
  | some l => (List.range 256).any fun v => s.hasCl v l
  | none => false

/-- A cluster's clocks and supply are off: its store is lost, and reads zero once it is lit and wiped. -/
def State.darken (s : State) (k : Nat) : State :=
  let s := s.csZero k 0 csSize
  s.setCl k { s.clOf k with pwr := .dark, written := [] }

/-- Chorus-clock cycles that a cluster has been idle, at its quarter's operating point (R421, R423). -/
def State.idleCycles (s : State) (k : Nat) : Nat := (s.time.clk - (s.clOf k).idleAt) * (10 - s.opOf (k / 36)) / 5

/-- CLUSTER_DIM (R423, R424): idle for DIM_IDLE cycles with no task placed and no context held. -/
def execClusterDim (cl : Fin 144) (s : State) : Host.Outcome State Fault Refusal :=
  perform s fun s =>
    let c := s.clOf cl.val
    if fld (s.pr .pwr 0 0x040) 2 1 = 1 ∧ c.pwr = .lit ∧ c.force = 0 ∧ c.placed.isNone ∧ (c.units.all fun u => u.2.ctx.isNone)
        ∧ !s.radioCl cl.val ∧ fld (s.pr .pwr 0 0x064) 0 16 ≤ s.idleCycles cl.val then
      s.setCl cl.val { c with pwr := .dimmed }
    else s

/-- A bring-in is using a spare. -/
def State.bringing (s : State) (cls i : Nat) : Bool := s.map.running.any fun p => p.2.cls == cls && p.2.spare == i

/-- CLUSTER_DARK (R424): automatic darkening. -/
def State.autoDark (s : State) : DarkUnit → State
  | .cluster k =>
    let c := s.clOf k.val
    if c.pwr ≠ .dark ∧ c.force = 0 ∧ c.placed.isNone ∧ (!s.granted k.val || s.unitSt clsCluster k.val != .active)
        ∧ !s.radioCl k.val ∧ !s.bringing clsCluster k.val then s.darken k.val
    else s
  | .dspGroup g =>
    let first := g.val / 17 * 136 + g.val % 17 * 8
    let held := (List.range 8).any fun j =>
      s.unitSt clsDsp (first + j) == .active || s.bringing clsDsp (first + j) ||
        (s.logCore (first + j)).any fun l => (List.range 16).any fun p =>
          (s.part p).valid && (s.part p).tile == l / 128 && (s.part p).dsp.getLsbD (l % 128)
    if held then s else { s with pwr := { s.pwr with dark := Tbl.set false s.pwr.dark g.val true } }
  | .engine k =>
    if s.unitSt clsEngine k.val = .spare ∨ s.unitSt clsEngine k.val = .retired then
      { s with pwr := { s.pwr with dark := Tbl.set false s.pwr.dark (64 + k.val) true } }
    else s

/-- CLUSTER_DARK (R424). -/
def execClusterDark (unit : DarkUnit) (s : State) : Host.Outcome State Fault Refusal :=
  perform s fun s => if fld (s.pr .pwr 0 0x040) 3 1 = 1 then s.autoDark unit else s

/-- CLUSTER_WAKE_COMPLETE (R423): back to LIT; the time from DARK counts. -/
def execClusterWakeComplete (cl : Fin 144) (us : BitVec 8) (s : State) : Host.Outcome State Fault Refusal :=
  perform s fun s =>
    let c := s.clOf cl.val
    if c.force ≠ 0 then s
    else
      let s := if c.pwr = .dark then s.bump .pwr 0 0x0A8 us.toNat else s
      s.setCl cl.val { c with pwr := .lit }

/-- A write of CL_PWR (R424): the forced state of the selected cluster. -/
def State.writeClPwr (s : State) (v : Word) : State :=
  let k := fld (s.pr .pwr 0 0x0A0) 0 8
  let c := s.clOf k
  match fld v 0 2 with
  | 0 => s.setCl k { c with force := 0 }
  | 1 => if s.radioCl k then s else s.setCl k { c with force := 1, pwr := .dimmed }
  | 2 => if s.granted k || s.radioCl k then s else (s.setCl k { c with force := 2 }).darken k
  | _ => s

/-- CL_PWR_FORCE (R424). -/
def execClPwrForce (val : BitVec 32) (s : State) : Host.Outcome State Fault Refusal := perform s fun s => s.writeClPwr val

/-- CL_PWR as it reads (R432). -/
def State.readClPwr (s : State) : Word :=
  let c := s.clOf (fld (s.pr .pwr 0 0x0A0) 0 8)
  BitVec.ofNat 32 (c.force + 65536 * (match c.pwr with
    | .lit => 0
    | .dimmed => 1
    | .dark => 2))

end Sys2Proof.Machine
end

