-- ==== Sys2Proof/Machine/Fabric.lean ====
section
/-! DEFINITION. The fabric engines: requests that reach this node, responses, acknowledgements, retransmission, lost nodes,
effect tags, groups, routes and mirroring (R346 to R365, R371). -/

namespace Sys2Proof.Machine

/-! ## Failing operations (R351, R357) -/

/-- A write of an issuing operation has failed: the operation's task ends with the status (R351). Issuers are numbered as in
`Who`. -/
def State.failIssuer (s : State) (org x st : Nat) : State :=
  if org < 2000 ∨ (2400 ≤ org ∧ org < 4000) then
    let k := org / 8
    let line := match s.fifoOf k (.mover ⟨org % 4, Nat.mod_lt _ (by decide)⟩) with
      | d :: _ => d.line
      | [] => 0
    (s.forget org).failX k st line
  else if org < 2224 then
    match (s.thOf (org - 2000)).call with
    | some c => if c.x = x then (s.forget org).failCall c st else s
    | none => s
  else if 5000 ≤ org ∧ org < 6000 then
    match s.jobOn ((org - 5000) / 384) ((org - 5000) % 384 / 64) ((org - 5000) % 64) with
    | some j => if j.x = x ∧ j.task < 4096 then (s.forget org).notice j.item j.task st 0 j.line else s
    | none => s
  else if 6000 ≤ org ∧ org < 7000 then
    let k := org - 6000
    let d := s.coreOf k
    let e := (st, 0, (d.moverRun.getD 0) / 2 ^ 256)
    ((s.forget org).setCore k { d with moverRun := none, moverWrote := false, ending := some e, tret := false }).endCore k
  else if org = 7000 ∧ 0 < x then
    -- a playbill's write (R188)
    (match s.taskOf ((x - 1) / 4096) ((x - 1) % 4096) with
      | some y => if y.bill = .sent then s.billed ((x - 1) / 4096) ((x - 1) % 4096) 0 false else s
      | none => s)
  else s

/-- What lands for an issuer's outstanding read or atomic. -/
def State.land (s : State) (o : Outstanding) (st : Nat) (bytes : List Byte) : State :=
  { s with fab := { s.fab with reads := s.fab.reads.filter fun x => decide (x.rid ≠ o.rid ∨ x.dst ≠ o.dst),
                               landed := if o.org = orgNone then s.fab.landed else
                                 s.fab.landed ++ [{ org := o.org, addr := o.addr, status := st, bytes := bytes }] } }

/-- An unacknowledged request ends with a task status: its operation fails; a mirror transaction is a lost mirrored write,
and ends the pairing when the understudy is lost (R196). -/
def State.endUnacked (s : State) (u : Unacked) (st : Nat) : State :=
  if u.kind = tyMirw ∨ u.kind = tyMirc then
    (if s.und.st = .none then s else if st = stNodeLost then s.mirrorLost else s.break)
  else match u.origin with
    | some (org, x) => if u.kind = tyWr then s.failIssuer org x st else s
    | none => s

/-- A destination is lost (R357): its lost bit, every transaction to it ended NODE_LOST, the tag records it made freed
(R359). -/
def State.nodeLost (s : State) (dst : Nat) : State :=
  if s.fab.lost.contains dst then s
  else
    let p := s.srcPair dst
    let s := { s with fab := { s.fab with lost := addSorted dst s.fab.lost, tags := s.fab.tags.filter fun r => r.src != dst } }
    let s := (s.setSrcPair dst { p with unacked := [] }).bump .fabric 0 0x08C 1
    let s := s.raise (pageAt .fabric 0) 2 (fabInfo dst 63)
    let s := (s.fab.reads.filter fun o => o.dst == dst).foldl (fun s o => s.land o stNodeLost []) s
    let s : State := p.unacked.foldl (fun s u => s.endUnacked u stNodeLost) s
    if s.undRole = 1 ∧ s.undPeer = dst ∧ s.und.st ≠ .none then s.mirrorLost else s

/-! ## Responses -/

/-- Status code of a response (R348). -/
def respCode (st : Nat) : Nat := if st = stAccess then 1 else if st = stPoisoned then 2 else if st = stNodeLost then 3 else 4

/-- Send a response to the source of a request: RDRSP and ATRSP carry its RID, ERR its RID and SEQ. -/
def State.respond (s : State) (r : FabReq) (kind num st : Nat) (data : List Byte) : State :=
  s.sendTo 1 r.src.val r.off.toNat r.fpid.toNat r.attempt.toNat (slotsOf false data.length) (.fabric kind r.src.val num st data)

/-- An ERR response: RID, and SEQ in the data. -/
def State.respErr (s : State) (r : FabReq) (code : Nat) : State :=
  s.respond r tyErr r.rid.toNat code (leBytes 4 r.seqNo.toNat)

/-! ## Applying requests (R346, R349, R350, R359, R388) -/

/-- Outcome of applying a request: applied and answered, answered BUSY, or held back by memory that waits. -/
inductive Applied where
  | done
  | busy
  | wait
  deriving DecidableEq, Repr

/-- Whether the pages of `n` bytes at an offset are granted to functions of a request's nonzero FPID (R346). A compare-only
shard changes by its mirror alone (R197). -/
def State.fpOk (s : State) (fpid : BitVec 16) (off n : Nat) (write : Bool) : Bool :=
  decide (fpid ≠ 0) && decide (off + n ≤ 0xBF80000000)
    && (List.range ((off + n - 1) / 2 ^ 26 - off / 2 ^ 26 + 1)).all fun i =>
      match s.extent (off / 2 ^ 26 + i) with
      | some (v, _) => (s.fnOf v).fpid == fpid && !(write && s.compareOnly v)
      | none => false

/-- Apply once per effect tag (R359): a repeated tag is answered from its record, a full table is answered BUSY. `f` applies
and gives a status and an old value; `ans` answers them. -/
def State.applyTagged (s : State) (r : FabReq) (f : State → State × Nat × Nat) (ans : State → Nat → Nat → State) :
    State × Applied :=
  let off := r.off.toNat
  match r.tag with
  | none =>
    let (s, st, old) := f s
    (ans s st old, .done)
  | some t =>
    match s.tagRec r.src.val off t with
    | some rc => (ans s rc.status rc.old.toNat, .done)
    | none =>
      if s.tagsFull then ((s.tagBusy r.src.val).respErr r 4, .busy)
      else
        let (s, st, old) := f s
        let v := (s.ownerOf off).getD 0
        (ans (s.recordTag v { src := r.src.val, tag := t, off := off, status := st, old := BitVec.ofNat 64 old }) st old, .done)

/-- Issuer number of a remote writer's mirror transactions (R362). -/
def mirrorOrg (key : Nat) : Nat := 20000 + key

/-- Key of the destination side of a pair: the source, and whether the request names the alias (R365). -/
def State.pairOf (s : State) (src dst : Nat) : Nat := src + (if dst = s.node then 0 else 16384)

/-- RD (R347, R360). -/
def State.applyRd (s : State) (r : FabReq) : State × Applied :=
  let off := r.off.toNat
  let n := r.bytes.toNat + 1
  -- run-ahead reads no page whose SPEC_OK is 0, and its home alone knows the attribute (R136; DEDUCED, log 59)
  if !s.fpOk r.fpid off n false || (r.spec && !s.specOk off) then (s.respErr r 1, .done)
  else if s.hbmWaits off n then (s, .wait)
  else
    let s := s.bump64 .fabric 0 (if r.spec then 0x098 else 0x0A0) 1
    let (s, d) := s.hbmRead off n r.spec
    match d with
    | some b => (s.respond r tyRdrsp r.rid.toNat 0 b, .done)
    | none => (s.respond r tyRdrsp r.rid.toNat 2 [], .done)

/-- WR (R349, R388). -/
def State.applyWr (s : State) (r : FabReq) : State × Applied :=
  let off := r.off.toNat
  let d := r.data.take (r.bytes.toNat + 1)
  let ans := fun (s : State) (st _old : Nat) => if st = 0 then s else s.respErr r (respCode st)
  if 0xC010000000 ≤ off ∧ off < 0xC020000000 then
    let v := (off - 0xC010000000) / 0x1000
    if v < 256 ∧ r.fpid ≠ 0 ∧ (s.fnOf v).fpid = r.fpid then
      s.applyTagged r (fun s => (s.mbFabric v (off % 0x1000) d, 0, 0)) ans
    else (s.respErr r 1, .done)
  else if !s.fpOk r.fpid off d.length true then (s.respErr r 1, .done)
  else if s.hbmWaits off d.length then (s, .wait)
  else s.applyTagged r (fun s =>
    let (s, ok) := s.hbmWrite off d r.poison
    let v := (s.ownerOf off).getD 0
    (if ok then s.mirrorW v off d (some (mirrorOrg (s.pairOf r.src.val r.dst.val), r.seqNo.toNat)) else s,
      if ok then 0 else stPoisoned, 0)) ans

/-- ATOM (R350). An AOPC outside R108 has no operation here and ends ACCESS (log 27). -/
def State.applyAtom (s : State) (r : FabReq) : State × Applied :=
  let off := r.off.toNat
  let n := if r.w64 then 8 else 4
  let ans := fun (s : State) (st old : Nat) =>
    if st = 0 then s.respond r tyAtrsp r.rid.toNat 0 (leBytes 8 old) else s.respErr r (respCode st)
  if off % n ≠ 0 ∨ !s.fpOk r.fpid off n true ∨ 10 < r.aopc.toNat then (s.respErr r 1, .done)
  else if s.hbmWaits off n then (s, .wait)
  else s.applyTagged r (fun s =>
    s.hbmAtom ((s.ownerOf off).getD 0) off r.aopc.toNat n (fb r.data 0 8) (fb r.data 8 8) f32add
      (some (mirrorOrg (s.pairOf r.src.val r.dst.val), r.seqNo.toNat))) ans

/-- Whether a tag is of the item that another names. -/
def sameItem (t u : EffTag) : Bool := t.fn == u.fn && t.queue == u.queue && t.seqNo == u.seqNo

/-- Free the tag records of a source's item. -/
def State.freeTags (s : State) (src : Nat) (t : EffTag) : State :=
  { s with fab := { s.fab with tags := s.fab.tags.filter fun x => !(x.src == src && sameItem x.tag t) } }

/-- TAGREL (R359); the lead of a shard tells its understudy (R362; log 26). -/
def State.applyTagrel (s : State) (r : FabReq) : State × Applied :=
  match r.tag with
  | some t => ((s.freeTags r.src.val t).mirrorC s.undFn (effTagBytes t ++ leBytes 4 r.src.val), .done)
  | none => (s, .done)

/-- MIRW at the understudy: the copy of the shard changes. Anything else a mirror write finds is an access it may not make. -/
def State.applyMirw (s : State) (r : FabReq) : State × Applied :=
  let off := r.off.toNat
  let d := r.data.take (r.bytes.toNat + 1)
  if !s.compareOnly s.undFn ∨ r.src.val ≠ s.undPeer ∨ !s.ownsHbm s.undFn off d.length then (s.respErr r 1, .done)
  else if s.hbmWaits off d.length then (s, .wait)
  else
    let (s, ok) := s.hbmWrite off d r.poison
    (if ok then s else s.respErr r 2, .done)

/-- A prompt-book record from its bytes (R147). -/
def recOfBytes (b : List Byte) : PbRec :=
  { seqNo := fb b 0 8, kind := fb b 8 1, fn := fb b 9 1, queue := fb b 10 1 % 16, mode := fb b 10 1 / 16 % 2,
    status := fb b 11 1, task := fb b 12 4, tag := fb b 16 4, gen := fb b 20 4, desc := fb b 24 8, attempt := fb b 32 2,
    cause := fb b 34 1, home := fb b 35 1 % 8, place := fb b 36 4, time := fb b 40 4, idx := fb b 56 4 }

/-- A mirrored prompt-book record (R197, R362): kept until its item is over; a SCRIPT item runs for comparison, once what its
acceptance reads is there. The queue's next sequence number follows the lead's. -/
def State.mircRecord (s : State) (r : PbRec) : State :=
  if r.over then
    let t : EffTag := { fn := BitVec.ofNat 8 r.fn, queue := BitVec.ofNat 4 r.queue, seqNo := BitVec.ofNat 64 r.seqNo,
                        task := 0, xidx := 0 }
    ({ s with und := { s.und with
        book := s.und.book.filter fun x => !x.same r,
        seeds := s.und.seeds.filter fun x => !(x.queue == r.queue && x.seqNo == r.seqNo),
        late := s.und.late.filter fun x => !x.1.same r } } : State).freeTags s.undPeer t
  else
    let s := { s with und := { s.und with book := s.und.book ++ [r] } }
    if r.kind = kAccept then
      let s := s.setPair (qreg r.fn r.queue 0x38) ((r.seqNo + 1) % 2 ^ 64)
      if r.mode = 1 then s.shadowRun r else s
    else s

/-- MIRC at the understudy, told apart by its length (log 26): prompt-book record, digest, tag record, seed of a raw
stream, released tags, generation. -/
def State.applyMirc (s : State) (r : FabReq) : State × Applied :=
  let b := r.data.take (r.bytes.toNat + 1)
  if !s.compareOnly s.undFn ∨ r.src.val ≠ s.undPeer then (s.respErr r 1, .done)
  else if b.length = 64 then (s.mircRecord (recOfBytes b), .done)
  else if b.length = 44 then
    ({ s with und := { s.und with lead := s.und.lead ++ [(fb b 0 8, fb b 8 4, BitVec.ofNat 256 (fb b 12 32))] } }, .done)
  else if b.length = 35 then
    (s.keepTag { src := fb b 16 2, tag := tagOfBytes (b.take 16), off := fb b 19 8, status := fb b 18 1,
                 old := BitVec.ofNat 64 (fb b 27 8) }, .done)
  else if b.length = 32 then
    ({ s with und := { s.und with seeds := s.und.seeds ++ [⟨s.undFn, fb b 9 1, fb b 0 8, fb b 24 8, fb b 10 1⟩] } }, .done)
  else if b.length = 20 then (s.freeTags (fb b 16 4) (tagOfBytes (b.take 16)), .done)
  else if b.length = 16 then (s.setFn s.undFn { s.fnOf s.undFn with gen := BitVec.ofNat 32 (fb b 0 4) }, .done)
  else (s, .done)

/-- Apply a request by its type. A request to the alias whose FPID is not the shard's is answered NODE_LOST (R365). -/
def State.applyReq (s : State) (kind : Nat) (r : FabReq) : State × Applied :=
  if r.dst.val ≠ s.node ∧ r.fpid ≠ (s.fnOf s.undFn).fpid then (s.respErr r 3, .done)
  else if kind = tyRd then s.applyRd r
  else if kind = tyWr then s.applyWr r
  else if kind = tyAtom then s.applyAtom r
  else if kind = tyTagrel then s.applyTagrel r
  else if kind = tyMirw then s.applyMirw r
  else s.applyMirc r

/-! ## Acknowledgements (R354, R356, R362) -/

/-- The destination side of a pair. -/
def State.dstPair (s : State) (key : Nat) : PairDst := Tbl.get {} s.fab.dst key

/-- Replace the destination side of a pair. -/
def State.setDstPair (s : State) (key : Nat) (p : PairDst) : State :=
  { s with fab := { s.fab with dst := Tbl.set {} s.fab.dst key p } }

/-- Applied SEQ values of a pair whose acknowledgement is held back: the oldest one with a mirror transaction that is not
acknowledged, and all after it. -/
def State.heldBack (s : State) (key : Nat) : Nat :=
  let e := (s.dstPair key).expect
  let back := fun (o : Option (Nat × Nat)) => match o with
    | some (org, q) => if org = mirrorOrg key then (e + 2 ^ 32 - q) % 2 ^ 32 else 0
    | none => 0
  max (maxBy (fun (p : Nat × PairSrc) => maxBy (fun (u : Unacked) => back u.origin) p.2.unacked) s.fab.src)
    (maxBy (fun m => back m.2.2) s.und.outq)

/-- The cumulative point that may be acknowledged. -/
def State.ackPoint (s : State) (key : Nat) : Nat := ((s.dstPair key).expect + 2 ^ 33 - 1 - s.heldBack key) % 2 ^ 32

/-- Send the cumulative ACK of a pair, with its epoch. -/
def State.sendAck (s : State) (key : Nat) : State :=
  let p := s.dstPair key
  let s := s.setDstPair key { p with sinceAck := s.heldBack key }
  let src := key % 16384
  s.sendTo 1 src 0 0 0 2 (.fabric tyAck src (s.ackPoint key) 0 [BitVec.ofNat 8 p.epoch.toNat])

/-- Whether SEQ `a` is at or before SEQ `b`. -/
def seqLe (a b : Nat) : Bool := decide ((b + 2 ^ 32 - a % 2 ^ 32) % 2 ^ 32 < 2 ^ 31)

/-- Answer the flushes of a pair whose THRU has been applied. -/
def State.answerFlushes (s : State) (key : Nat) : State :=
  let p := s.dstPair key
  let a := s.ackPoint key
  if p.flushes.any fun t => seqLe t a then
    (s.setDstPair key { p with flushes := p.flushes.filter fun t => !seqLe t a }).sendAck key
  else s

/-- Apply what a pair holds that comes next, in SEQ order, acknowledging every 64 applied. -/
def State.applyNext (s : State) (key : Nat) : Nat → State
  | 0 => s
  | fuel + 1 =>
    let p := s.dstPair key
    match p.held.find? fun h => h.2.seqNo.toNat == p.expect with
    | none => s
    | some h =>
      let drop := fun (p : PairDst) => { p with held := p.held.filter fun x => x.2.seqNo.toNat != h.2.seqNo.toNat }
      match s.applyReq h.1 h.2 with
      | (s, .done) =>
        let p := s.dstPair key
        let s := s.setDstPair key { drop p with
          expect := (p.expect + 1) % 2 ^ 32, sinceAck := p.sinceAck + 1,
          firstAt := if p.sinceAck = 0 then s.time.clk else p.firstAt }
        let s := if 64 ≤ p.sinceAck + 1 ∧ s.heldBack key < p.sinceAck + 1 then s.sendAck key else s
        State.applyNext (s.answerFlushes key) key fuel
      | (s, .busy) => s.setDstPair key (drop (s.dstPair key))
      | (s, .wait) => s

/-- Apply what every pair can apply now: memory that waited has come back. -/
def State.applyAll (s : State) : State := s.fab.dst.foldl (fun s p => s.applyNext p.1 16384) s

/-- Requests held out of order by the node. -/
def State.reorder (s : State) : Nat := sumBy (fun (p : Nat × PairDst) => p.2.held.length) s.fab.dst

/-- Take the epoch of an arrival (R358): `none` for one of an older epoch. -/
def State.takeEpoch (s : State) (key : Nat) (e : BitVec 8) : Option State :=
  let p := s.dstPair key
  let d := (e - p.epoch).toNat
  if d = 0 then some s
  else if d ≤ 127 then some (s.setDstPair key { p with epoch := e, expect := 0, held := [], sinceAck := 0, flushes := [] })
  else none

/-- Note that something came from a node (R364). -/
def State.hear (s : State) (src : Nat) : State := s.setDstPair src { s.dstPair src with heard := s.time.clk + 1 }

/-- Whether a request names this node, itself or by its alias (R365). -/
def State.isMine (s : State) (dst : Nat) : Bool :=
  let a := s.pr .fabric 0 0x058
  dst == s.node || (fld a 31 1 == 1 && dst == fld a 0 14)

/-- Forward a transaction of another node (R352, R353). -/
def State.forward (s : State) (kind : Nat) (r : FabReq) : State :=
  if fld (s.pr .fabric 0 0x044) 2 1 = 0 then s
  else match s.linkFor r.dst.val r.off.toNat r.fpid.toNat r.attempt.toNat with
    | some l => (s.linkSend l { vc := vcOf kind, slots := slotsOf r.tag.isSome r.data.length, msg := reqMsg kind r }).bump64 .fabric 0 0x0A8 1
    | none => s

/-- A numbered request of this node's: applied in SEQ order, held, or discarded as a copy (R354, R355). -/
def State.takeReq (s : State) (kind : Nat) (r : FabReq) : State :=
  let key := s.pairOf r.src.val r.dst.val
  match s.takeEpoch key r.epoch with
  | none => s.bump .fabric 0 0x084 1
  | some s =>
    let p := s.dstPair key
    let q := r.seqNo.toNat
    if !seqLe p.expect q ∨ p.held.any (fun h => h.2.seqNo.toNat == q) then s.bump .fabric 0 0x084 1
    else if q ≠ p.expect ∧ 16384 ≤ s.reorder then s.bump .fabric 0 0x088 1
    else (s.setDstPair key { p with held := p.held ++ [(kind, r)] }).applyNext key 16384

/-- A request arrives (R347, R354, R431): forwarded, answered BUSY while a warm reset runs, or taken. -/
def State.arrive (s : State) (kind : Nat) (r : FabReq) : State :=
  if fld (s.pr .fabric 0 0x044) 0 1 = 0 then s
  else if !s.isMine r.dst.val then s.forward kind r
  else
    let s := s.hear r.src.val
    if s.rst.warm then s.respErr r 4 else s.takeReq kind r

/-- RD (R347). -/
def execRd (r : FabReq) (s : State) : Host.Outcome State Fault Refusal := perform s fun s => s.arrive tyRd r

/-- WR (R349). -/
def execWr (r : FabReq) (s : State) : Host.Outcome State Fault Refusal := perform s fun s => s.arrive tyWr r

/-- ATOM (R350). -/
def execAtom (r : FabReq) (s : State) : Host.Outcome State Fault Refusal := perform s fun s => s.arrive tyAtom r

/-- TAGREL (R359). -/
def execTagrel (r : FabReq) (s : State) : Host.Outcome State Fault Refusal := perform s fun s => s.arrive tyTagrel r

/-- MIRW (R362). -/
def execMirw (r : FabReq) (s : State) : Host.Outcome State Fault Refusal := perform s fun s => s.arrive tyMirw r

/-- MIRC (R362). -/
def execMirc (r : FabReq) (s : State) : Host.Outcome State Fault Refusal := perform s fun s => s.arrive tyMirc r

/-- A FLUSH (R356): its SEQ is THRU; it takes no sequence number of its own. -/
def State.flushIn (s : State) (r : FabReq) : State :=
  if fld (s.pr .fabric 0 0x044) 0 1 = 0 then s
  else if !s.isMine r.dst.val then s.forward tyFlush r
  else
    let s := s.hear r.src.val
    if s.rst.warm then s.respErr r 4
    else
      let key := s.pairOf r.src.val r.dst.val
      match s.takeEpoch key r.epoch with
      | none => s.bump .fabric 0 0x084 1
      | some s =>
        let p := s.dstPair key
        (s.setDstPair key { p with flushes := p.flushes ++ [r.seqNo.toNat] }).answerFlushes key

/-- FLUSH (R356). -/
def execFlush (r : FabReq) (s : State) : Host.Outcome State Fault Refusal := perform s fun s => s.flushIn r

/-- ACK_TIMER (R354): 200 ns after the first apply. -/
def execAckTimer (src : Fin 16384) (s : State) : Host.Outcome State Fault Refusal :=
  perform s fun s =>
    [src.val, src.val + 16384].foldl (fun s key =>
      if s.heldBack key < (s.dstPair key).sinceAck ∧ (s.dstPair key).firstAt + 200 ≤ s.time.clk then s.sendAck key else s) s

/-! ## Responses that return (R347, R351, R354) -/

/-- The outstanding read or atomic of a RID at a node. -/
def State.readOf (s : State) (dst rid : Nat) (isAtomic : Bool) : Option Outstanding :=
  s.fab.reads.find? fun o => o.rid == rid && o.dst == dst && o.isAtomic == isAtomic

/-- A response or NOTE arrives: what it does at this node, or it is forwarded on virtual channel `vc` in `slots` slots (R347,
R352, R353). -/
def State.takeResp (s : State) (h : FabHdr) (vc slots : Nat) (m : OutMsg) (f : State → State) : State :=
  if fld (s.pr .fabric 0 0x044) 0 1 = 0 then s
  else if s.isMine h.dst.val then f (s.hear h.src.val)
  else if fld (s.pr .fabric 0 0x044) 2 1 = 0 then s
  else match s.linkFor h.dst.val h.off.toNat h.fpid.toNat h.attempt.toNat with
    | some l => (s.linkSend l { vc := vc, slots := slots, msg := m }).bump64 .fabric 0 0x0A8 1
    | none => s

/-- RDRSP (R347). -/
def execRdrsp (h : FabHdr) (rid : BitVec 16) (poison : Bool) (data : List (BitVec 8)) (s : State) :
    Host.Outcome State Fault Refusal :=
  perform s fun s => s.takeResp h 1 (slotsOf false data.length) (.fabric tyRdrsp h.dst.val rid.toNat (2 * bn poison) data)
    fun s =>
      match s.readOf h.src.val rid.toNat false with
      | some o => s.land o (if poison then stPoisoned else 0) data
      | none => s

/-- ATRSP (R347). -/
def execAtrsp (h : FabHdr) (rid : BitVec 16) (old : BitVec 64) (s : State) : Host.Outcome State Fault Refusal :=
  perform s fun s => s.takeResp h 1 3 (.fabric tyAtrsp h.dst.val rid.toNat 0 (leBytes 8 old.toNat)) fun s =>
    match s.readOf h.src.val rid.toNat true with
    | some o => s.land o 0 (leBytes 8 old.toNat)
    | none => s

/-- ACK (R354, R358): requests up to SEQ are complete; one of another epoch is discarded. Mirror transactions that waited
leave, and flushes that waited for a mirror are answered. -/
def execAck (h : FabHdr) (seqNo : BitVec 32) (epoch : BitVec 8) (s : State) : Host.Outcome State Fault Refusal :=
  perform s fun s => s.takeResp h 1 2 (.fabric tyAck h.dst.val seqNo.toNat 0 [epoch]) fun s =>
    let p := s.srcPair h.src.val
    if p.epoch ≠ epoch then s
    else
      let s := s.setSrcPair h.src.val { p with unacked := p.unacked.filter fun u => !seqLe u.seqNo seqNo.toNat }
      let s := s.mirrorFlush 65536
      s.fab.dst.foldl (fun s d => s.answerFlushes d.1) s

/-- Task status of an ERR status (R351). -/
def errTask : ErrStatus → Nat
  | .access => stAccess
  | .poison => stPoisoned
  | _ => stNodeLost

/-- STATUS of an ERR response (R348). -/
def errCode : ErrStatus → Nat
  | .access => 1
  | .poison => 2
  | .nodeLost => 3
  | .busy => 4

/-- ERR (R351): the operation ends with the status; BUSY asks for a retry and counts no transmission (R431). -/
def execErr (h : FabHdr) (rid : BitVec 16) (seqNo : BitVec 32) (status : ErrStatus) (s : State) :
    Host.Outcome State Fault Refusal :=
  perform s fun s => s.takeResp h 1 2 (.fabric tyErr h.dst.val rid.toNat (errCode status) (leBytes 4 seqNo.toNat)) fun s =>
    let d := h.src.val
    let p := s.srcPair d
    let hit := p.unacked.find? fun u => u.seqNo == seqNo.toNat
    let isRead := fun (u : Unacked) => u.kind == tyRd || u.kind == tyAtom
    if status = .busy then
      s.setSrcPair d { p with unacked := p.unacked.map fun u =>
        if u.seqNo = seqNo.toNat then { u with busy := true, busyAt := s.time.clk, sends := 1 } else u }
    else match hit with
      | some u =>
        if isRead u then
          match s.fab.reads.find? fun o => o.rid == u.req.rid.toNat && o.dst == d with
          | some o => s.land o (errTask status) []
          | none => s
        else (s.setSrcPair d { p with unacked := p.unacked.filter fun x => x.seqNo != u.seqNo }).endUnacked u (errTask status)
      | none =>
        match s.fab.reads.find? fun o => o.rid == rid.toNat && o.dst == d with
        | some o => s.land o (errTask status) []
        | none => s

/-! ## Retransmission and loss (R351, R355, R357) -/

/-- Re-send one unacknowledged request. -/
def State.resendOne (s : State) (dst seqNo : Nat) : State := s.resendPair dst fun u => u.seqNo == seqNo

/-- The unacknowledged request of a SEQ. -/
def State.unackedOf (s : State) (dst seqNo : Nat) : Option Unacked := (s.srcPair dst).unacked.find? fun u => u.seqNo == seqNo

/-- BUSY_RETRY (R351): 1 µs after the answer. -/
def execBusyRetry (dst : Fin 16384) (seqNo : BitVec 32) (s : State) : Host.Outcome State Fault Refusal :=
  perform s fun s =>
    match s.unackedOf dst.val seqNo.toNat with
    | some u => if u.busy ∧ u.busyAt + 1000 ≤ s.time.clk then s.resendOne dst.val seqNo.toNat else s
    | none => s

/-- E2E_RETRANSMIT (R355, R357), `E2E_TO_US` after the last transmission: re-sent, or the node is lost once it has been re-sent E2E_RETRY_MAX times. -/
def execE2eRetransmit (dst : Fin 16384) (seqNo : BitVec 32) (s : State) : Host.Outcome State Fault Refusal :=
  perform s fun s =>
    match s.unackedOf dst.val seqNo.toNat with
    | none => s
    | some u =>
      if u.link = 63 ∨ s.time.clk < u.sentAt + 1000 * fld (s.pr .fabric 0 0x048) 0 8 then s
      else if fld (s.pr .fabric 0 0x04C) 0 4 < u.sends then s.nodeLost dst.val
      else s.resendOne dst.val seqNo.toNat

/-- Whether no slot of a destination's entry has an ACTIVE link (R353). -/
def State.unreachable (s : State) (dst : Nat) : Bool := (List.range 8).all fun i => !s.linkActive (s.slotOf dst i)

/-- Power-on time since which a destination has been unreachable: its entry written so, or the last of its links gone. -/
def State.unreachSince (s : State) (dst : Nat) : Nat :=
  max (Tbl.get 0 s.fab.routeAt (Tbl.get dst s.fab.moved dst))
    (maxBy (fun i => let l := s.slotOf dst i; if l < 48 then (s.linkOf l).left else 0) (List.range 8))

/-- UNREACHABLE_TIMEOUT (R353, R357): 100 µs, while a request waits for the destination. -/
def execUnreachableTimeout (dst : Fin 16384) (s : State) : Host.Outcome State Fault Refusal :=
  perform s fun s =>
    if s.unreachable dst.val ∧ s.unreachSince dst.val + 100000 ≤ s.time.clk ∧ (s.srcPair dst.val).unacked ≠ [] then
      s.nodeLost dst.val
    else s

/-- A new epoch of a pair (R358): SEQ restarts at 0. -/
def State.newEpoch (s : State) (dst : Nat) : State :=
  let p := s.srcPair dst
  s.setSrcPair dst { p with epoch := p.epoch + 1, seqNo := 0, unacked := [] }

/-- A write of REVIVE (R357, R358): a node that is not lost stays as it is. -/
def State.revive (s : State) (n : Nat) : State :=
  if s.fab.lost.contains n then ({ s with fab := { s.fab with lost := s.fab.lost.erase n } } : State).newEpoch n else s

/-- REVIVE (R357). -/
def execRevive (node : Fin 16384) (s : State) : Host.Outcome State Fault Refusal := perform s fun s => s.revive node.val

/-! ## Registers (R361, R371) -/

/-- The entry that RT_ADDR names. -/
def State.routeEntry (s : State) : Nat := Tbl.get (2 ^ 48 - 1) s.fab.route (fld (s.pr .fabric 0 0x05C) 0 14)

/-- A write of RT_DATA_HI: the entry is committed, RT_ADDR moves on, and the effective table follows (R353). -/
def State.writeRtHi (s : State) (req : Requestor) (v : Word) : State :=
  let a := pageAddr .fabric 0 + 0x060
  let lo := ((Tbl.get none s.staged (pairKey req a)).map (·.toNat)).getD (s.routeEntry % 2 ^ 30)
  let s := { s with staged := Tbl.set none s.staged (pairKey req a) none }
  let i := fld (s.pr .fabric 0 0x05C) 0 14
  let s := { s with fab := { s.fab with
    route := Tbl.set (2 ^ 48 - 1) s.fab.route i (lo % 2 ^ 30 + 2 ^ 30 * fld v 0 18),
    routeAt := if s.unreachable i then s.fab.routeAt else Tbl.set 0 s.fab.routeAt i s.time.clk } }
  (s.setPr .fabric 0 0x05C (BitVec.ofNat 32 ((i + 1) % 16384))).sendHeld

/-- ROUTE_ENTRY_COMMIT (R371). -/
def execRouteEntryCommit (req : Requestor) (val : BitVec 32) (s : State) : Host.Outcome State Fault Refusal :=
  perform s fun s => s.writeRtHi req val

/-- A read of LOST_DATA: a word of the lost map; LOST_ADDR moves on. -/
def State.readLost (s : State) : State :=
  let i := fld (s.pr .fabric 0 0x068) 0 9
  let w := sumBy (fun b => if s.fab.lost.contains (32 * i + b) then 2 ^ b else 0) (List.range 32)
  (s.setPr .fabric 0 0x068 (BitVec.ofNat 32 ((i + 1) % 512))).answer (BitVec.ofNat 32 w)

/-- LOST_DATA_READ (R371). -/
def execLostDataRead (s : State) : Host.Outcome State Fault Refusal := perform s State.readLost

/-- Whether a list names nothing twice. -/
def distinct : List Nat → Bool
  | [] => true
  | x :: t => !t.contains x && distinct t

/-- A write of GRP_LIST_HI (R361): the list is copied from the node's HBM and checked. A list that cannot be read, or of no
legal length, is an error too (log 28). -/
def State.commitGroup (s : State) (req : Requestor) (g : Nat) (v : Word) : State :=
  let b := pageAddr .fabric 0 + 0x400 + 0x10 * g
  let (s, x) := s.takePair req (b + 4) v
  let s := (s.setRg (b + 4) (BitVec.ofNat 32 x)).setRg (b + 8) v
  let n := fld (s.rg b) 0 15
  let off := x % 2 ^ 50
  let put := fun (s : State) (y : Group) => ({ s with fab := { s.fab with groups := Tbl.set {} s.fab.groups g y } } : State)
  if n = 0 ∨ 16384 < n ∨ x / 2 ^ 50 ≠ s.node ∨ hbmSize < off + 2 * n then put s { err := true }
  else
    let (s, d) := s.hbmRead off (2 * n) false
    match d with
    | none => put s { err := true }
    | some l =>
      let m := (List.range n).map fun i => fb l (2 * i) 2
      match findFrom (· == s.node) m 0 with
      | some r => if distinct m then put s { members := m, valid := true, rank := r } else put s { err := true }
      | none => put s { err := true }

/-- GROUP_COMMIT (R361). -/
def execGroupCommit (req : Requestor) (g : Fin 64) (val : BitVec 32) (s : State) : Host.Outcome State Fault Refusal :=
  perform s fun s => s.commitGroup req g.val val

/-- `GRP_STAT`. -/
def State.readGrpStat (s : State) (g : Nat) : Word :=
  let x := s.groupOf g
  BitVec.ofNat 32 (x.rank + 2 ^ 30 * bn x.valid + 2 ^ 31 * bn x.err)

/-- A write of CNT_CLR of the FABRIC page. -/
def State.writeFabClr (s : State) (v : Word) : State :=
  if fld v 0 1 = 1 then s.clearRegs .fabric 0 (offsets 0x080 0x0AC) else s

/-- FABRIC_CNT_CLR (R371). -/
def execFabricCntClr (val : BitVec 32) (s : State) : Host.Outcome State Fault Refusal := perform s fun s => s.writeFabClr val

end Sys2Proof.Machine
end

