-- ==== Sys2Proof/Machine/Und.lean ====
section
/-! DEFINITION. Understudies: pairing, comparison, going on, abandoning, heartbeats, witnesses and takeovers (R196 to R204,
R362 to R365). -/

namespace Sys2Proof.Machine

/-- `UND_STAT` (R204). -/
def State.readUndStat (s : State) : Word :=
  let c := match s.und.st with
    | .none => 0
    | .syncing => 1
    | .mirroring => 2
    | .broken => 3
    | .on => 4
    | .abandoned => 5
  BitVec.ofNat 32 (c + 8 * bn s.und.current + 16 * bn s.und.promoted)

/-- Send a NOTE to a node (R347). -/
def State.note (s : State) (kind dst a b : Nat) : State := s.sendTo 3 dst 0 0 0 3 (.note kind dst a b)

/-- Take the items of a function away without a record: the shard's comparison runs end. -/
def State.dropItems (s : State) (v : Nat) : State :=
  let mine := s.work.items.filter fun (p : Nat × Item) => p.2.fn == v
  let s := mine.foldl (fun s p => (List.range p.2.tasks.length).foldl (fun s t => (s.vacate p.1 t).dropCtx p.1 t) s) s
  { s with work := { s.work with items := s.work.items.filter fun p => p.2.fn != v,
                                 ends := s.work.ends.filter fun e => !(mine.any fun p => p.1 == e.1) },
           und := { s.und with shadow := [] } }

/-! ## Starting and ending (R196, R362, R363) -/

/-- The understudy copy of a function's generation: 16 bytes (log 26). -/
def genBytes (g : BitVec 32) : List Byte := leBytes 4 g.toNat ++ List.replicate 12 0

/-- UND_CTRL.START: the pairing begins. The lead mirrors the generation and the prompt-book records not yet free; its pages
follow (R363). -/
def State.undStart (s : State) : State :=
  if s.und.st ≠ .none ∨ (s.undRole ≠ 1 ∧ s.undRole ≠ 2) then s
  else
    let s := ({ s with und := { st := .syncing, current := true } } : State).setPr .chip 0 0x0A4 0
    if s.undRole = 1 then
      let v := s.undFn
      let s := s.mirrorC v (genBytes (s.fnOf v).gen)
      let s := (s.work.items.filter fun (p : Nat × Item) => p.2.fn == v && p.2.kind == 2).foldl (fun s p =>
        s.mirrorC v (p.2.seedRec).bytes) s
      (s.work.book.filter fun r => r.fn == v).foldl (fun s r => s.mirrorC v r.bytes) s
    else s

/-- UND_START (R196). -/
def execUndStart (s : State) : Host.Outcome State Fault Refusal := perform s State.undStart

/-- UND_CTRL.END: STATE returns to NONE; comparison runs end with the pairing. -/
def State.undEnd (s : State) : State :=
  let s := if s.compareOnly s.undFn then s.dropItems s.undFn else s
  { s with und := {} }

/-- UND_END (R196). -/
def execUndEnd (s : State) : Host.Outcome State Fault Refusal := perform s State.undEnd

/-- First offset at or after `synced` in a page granted to the shard. -/
def State.nextSync (s : State) : Option Nat :=
  (s.hst.exts.find? fun (p : Nat × Option (Nat × Bool)) =>
    (match p.2 with
      | some (o, _) => o == s.undFn
      | none => false) && decide (s.und.synced < (p.1 + 1) * 2 ^ 26)).map fun p => max s.und.synced (p.1 * 2 ^ 26)

/-- The lead copies the next 256 bytes of the shard's pages, in ascending offset (R363). -/
def State.syncStep (s : State) : State :=
  if s.undRole = 1 ∧ s.und.st = .syncing ∧ s.und.outq = [] ∧ s.canIssue s.undPeer then
    match s.nextSync with
    | none => s
    | some off =>
      if s.hbmWaits off 256 then s
      else
        let (s, d) := s.hbmRead off 256 false
        let r := { mkReq s.undPeer off 256 (s.fnOf s.undFn).fpid.toNat 0 (d.getD (List.replicate 256 0)) with
          poison := d.isNone }
        { s.mirrorSend tyMirw r none with und := { (s.mirrorSend tyMirw r none).und with synced := off + 256 } }
  else s

/-- Whether the lead has had every page and record of the shard acknowledged. -/
def State.synced (s : State) : Bool :=
  s.nextSync.isNone && s.und.outq.isEmpty
    && (s.srcPair s.undPeer).unacked.all fun u => u.kind != tyMirw && u.kind != tyMirc

/-- UND_SYNC_COMPLETE (R196, R363): on the lead, once everything has been acknowledged. -/
def execUndSyncComplete (s : State) : Host.Outcome State Fault Refusal :=
  perform s fun s =>
    if s.und.st = .syncing ∧ (s.undRole = 2 ∨ s.synced) then { s with und := { s.und with st := .mirroring } } else s

/-! ## Comparison (R198, R199) -/

/-- Compare the digests of a task when both are present. -/
def State.compareDigest (s : State) (q t : Nat) : State :=
  let key := fun (x : Nat × Nat × BitVec 256) => x.1 == q && x.2.1 == t
  match s.und.lead.find? key, s.und.own.find? key with
  | some a, some b =>
    let s := { s with und := { s.und with lead := dropFirst a s.und.lead, own := dropFirst b s.und.own } }
    if a.2.2 = b.2.2 then
      let s := (s.bump .chip 0 0x0A4 1).bump .chip 0 0x0AC 1
      if !s.und.promoted ∧ (s.pr .chip 0 0x0A0).toNat ≤ (s.pr .chip 0 0x0A4).toNat then
        ({ s with und := { s.und with promoted := true } } : State).raise (pageAt .chip 0) 0x15 s.undInfo
      else s
    else ((s.setPr .chip 0 0x0A4 0).bump .chip 0 0x0A8 1).break.raise (pageAt .chip 0) 0x11 s.undInfo
  | _, _ => s

/-- UND_DIGEST_COMPARE (R198). -/
def execUndDigestCompare (seqNo : BitVec 64) (task : Fin 4096) (s : State) : Host.Outcome State Fault Refusal :=
  perform s fun s => if s.compareOnly s.undFn then s.compareDigest seqNo.toNat task.val else s

/-! ## Going on and abandoning (R200, R201, R365) -/

/-- The understudy goes on: the shard's work is rebuilt from the mirrored prompt book, the lead's node number is answered
here, and the fabric is told. An item whose descriptor has not been read yet is rebuilt once it has (R200). -/
def State.goOn (s : State) : State :=
  let v := s.undFn
  let lead := s.undPeer
  let book := s.und.book
  let s := s.dropItems v
  let s := { s with und := { s.und with late := [] } }
  let s := (book.filter fun (r : PbRec) => r.kind == kAccept).foldl (fun s r => s.rebuild book r) s
  let s := { s with und := { s.und with st := .on, book := [], lead := [], own := [] } }
  let s := book.foldl State.journal s
  let items := s.work.items.filter fun (p : Nat × Item) => p.2.fn == v
  let s := items.foldl (fun s (p : Nat × Item) => s.takeOver book p.1) s
  let s := s.setPr .fabric 0 0x058 (BitVec.ofNat 32 (lead + 2 ^ 31))
  let s := { s with fab := { s.fab with takeovers := (lead, s.node) :: s.fab.takeovers } }
  let s := (List.range 48).foldl (fun s l => if s.linkActive l then s.linkSend l { vc := 3, slots := 3, msg := .note 3 lead lead s.node } else s) s
  s.raise (pageAt .chip 0) 0x13 s.undInfo

/-- Insert a record by queue and sequence number. -/
def insertRec (r : PbRec) : List PbRec → List PbRec
  | [] => [r]
  | x :: t => if r.queue < x.queue ∨ (r.queue = x.queue ∧ r.seqNo < x.seqNo) then r :: x :: t else x :: insertRec r t

/-- The shard's state is lost: its memory is wiped, and every item not over is returned once. -/
def State.undAbandon (s : State) : State :=
  let v := s.undFn
  let book := s.und.book
  let s := s.dropItems v
  let s := { s with und := { s.und with st := .abandoned, book := [], lead := [], own := [], seeds := [], late := [] } }
  let s := (s.raise (pageAt .chip 0) 0x14 s.undInfo).wipeFn v
  ((book.filter fun (r : PbRec) => r.kind == kAccept).foldl (fun l r => insertRec r l) []).foldl (fun s r =>
    let it : Item := { s.newItem v r.queue 1 r.mode r.tag r.desc with seqNo := r.seqNo, gen := r.gen, returned := true }
    let s := s.journal (s.recOf it kReturn stReturned 0xFFFFFFFF 0 0 0)
    (s.bump .stage it.home 0x07C 1).complete it stReturned 0 0xFFFFFFFF) s

/-- The lead is lost, or GO_ON is written (R196): with a current mirror in MIRRORING the understudy goes on; without one it
abandons the shard. -/
def State.leadGone (s : State) : State :=
  if s.undRole ≠ 2 then s
  else match s.und.st with
    | .mirroring => if s.und.current then s.goOn else s.undAbandon
    | .syncing | .broken => if s.und.current then s else s.undAbandon
    | _ => s

/-- UND_GO_ON (R200, R201). -/
def execUndGoOn (s : State) : Host.Outcome State Fault Refusal := perform s State.leadGone

/-- A write of UND_CTRL (R204): ROLE and FUNC while STATE is NONE, then START, GO_ON and END. ROLE 3 is reserved and keeps
the old one (log 29). -/
def State.writeUndCtrl (s : State) (v : Word) : State :=
  let s := if s.und.st = .none then
      (let w := s.pr .chip 0 0x094
       let w := setFld w 8 8 (fld v 8 8)
       s.setPr .chip 0 0x094 (if fld v 0 2 = 3 then w else setFld w 0 2 (fld v 0 2)))
    else s
  let s := if fld v 2 1 = 1 then s.undStart else s
  let s := if fld v 4 1 = 1 then s.leadGone else s
  if fld v 3 1 = 1 then s.undEnd else s

/-! ## Heartbeats and witnesses (R364) -/

/-- MIRROR_HEARTBEAT (R352, R364): this end's heartbeat leaves, or a NOTE arrives and is noted or forwarded. -/
def execMirrorHeartbeat (h : Option FabHdr) (s : State) : Host.Outcome State Fault Refusal :=
  perform s fun s =>
    match h with
    | some h => s.takeResp h 3 3 (.note 0 h.dst.val h.src.val 0) id
    | none => if s.und.st = .none ∨ s.und.st = .abandoned then s else s.note 0 s.undPeer s.node s.undFn

/-- Witness `i`, if one is configured. -/
def State.witness (s : State) (i : Nat) : Option Nat :=
  let w := s.pr .fabric 0 0x054
  if fld w (16 * i + 15) 1 = 1 then some (fld w (16 * i) 14) else none

/-- Whether something came from a node within MIR_LOSS_US. -/
def State.heardFrom (s : State) (n : Nat) : Bool :=
  let h := (s.dstPair n).heard
  decide (0 < h) && decide (s.time.clk + 1 ≤ h + 1000 * fld (s.pr .fabric 0 0x050) 0 16)

/-- The understudy that has heard nothing suspects its lead and asks every witness. -/
def State.suspectLead (s : State) : State :=
  if s.compareOnly s.undFn && !s.heardFrom s.undPeer then
    let s := { s with und := { s.und with suspect := true, answers := [] } }
    [0, 1].foldl (fun s i => match s.witness i with
      | some n => s.note 1 n s.node s.undPeer
      | none => s) s
  else s

/-- LEAD_SUSPECT (R364). -/
def execLeadSuspect (s : State) : Host.Outcome State Fault Refusal := perform s State.suspectLead

/-- WITNESS_QUERY (R364): this node answers as a witness. -/
def execWitnessQuery (asker : Fin 16384) (lead : Fin 16384) (s : State) : Host.Outcome State Fault Refusal :=
  perform s fun s => (s.hear asker.val).note 2 asker.val lead.val (bn (s.heardFrom lead.val))

/-- WITNESS_ANSWER (R364): a witness that has heard the lead breaks the pairing, as a lost mirrored write does. -/
def execWitnessAnswer (w : Fin 2) (heard : Bool) (s : State) : Host.Outcome State Fault Refusal :=
  perform s fun s =>
    if s.und.suspect ∧ (s.witness w.val).isSome then
      let s := { s with und := { s.und with answers := Tbl.put s.und.answers w.val heard } }
      if heard then ({ s with und := { s.und with suspect := false } } : State).break else s
    else s

/-- Whether every configured witness has answered that it has not heard the lead. -/
def State.allSilent (s : State) : Bool :=
  s.und.suspect && ((s.witness 0).isSome || (s.witness 1).isSome)
    && [0, 1].all fun i => (s.witness i).isNone || Tbl.look s.und.answers i == some false

/-- UND_LEAD_LOST (R200, R201, R364): the fabric reports the lead lost once every witness says so. -/
def execUndLeadLost (s : State) : Host.Outcome State Fault Refusal :=
  perform s fun s => if s.allSilent then ({ s with und := { s.und with suspect := false } } : State).leadGone else s

/-! ## Takeovers (R365) -/

/-- Re-send what is unacknowledged to a node in a new epoch, renumbered from 0; `E2E_RETX` counts every re-send (R355). -/
def State.renumber (s : State) (dst : Nat) : State :=
  let old := (s.srcPair dst).unacked
  let s := s.newEpoch dst
  old.foldl (fun s u =>
    let p := s.srcPair dst
    let r := { u.req with seqNo := BitVec.ofNat 32 p.seqNo, epoch := p.epoch }
    let s := (s.bump .fabric 0 0x080 1).raise (pageAt .fabric 0) 1 (fabInfo dst u.link)
    let (s, l) := s.transmit u.kind r u.own
    let p := s.srcPair dst
    s.setSrcPair dst { p with
      seqNo := (p.seqNo + 1) % 2 ^ 32,
      unacked := p.unacked ++ [{ u with
        seqNo := p.seqNo, attempt := 0, sends := 1, link := l, req := r, busy := false, sentAt := s.time.clk }] }) s

/-- TAKEOVER_NOTICE (R365): acted on once, while TAKE_EN is 1; the notice goes on over every ACTIVE link but the one
it came on. -/
def execTakeoverNotice (l : Option (Fin 48)) (lead : Fin 16384) (und : Fin 16384) (s : State) : Host.Outcome State Fault Refusal :=
  perform s fun s =>
    let x := (lead.val, und.val)
    if fld (s.pr .fabric 0 0x044) 1 1 = 0 ∨ s.fab.takeovers.contains x then s
    else
      let s := { s with fab := { s.fab with takeovers := x :: s.fab.takeovers,
                                            moved := Tbl.put s.fab.moved lead.val und.val } }
      let s := (List.range 48).foldl (fun s k =>
        if s.linkActive k ∧ l.map (·.val) ≠ some k then
          s.linkSend k { vc := 3, slots := 3, msg := .note 3 lead.val lead.val und.val }
        else s) s
      let s := s.renumber lead.val
      (s.bump .fabric 0 0x094 1).raise (pageAt .fabric 0) 4 (fabInfo lead.val 63)

end Sys2Proof.Machine
end

