-- ==== Sys2Proof/Machine/Reset.lean ====
section
/-! DEFINITION. Resets: their completion and what they preserve, the reset pins, supplies and the start of a boot (R429 to
R431, R435, R454, R455, R463). -/

namespace Sys2Proof.Machine

/-! ## Registers a reset returns to their reset values (R429) -/

/-- Registers of the header that hold a latched error. -/
def latchOffs : List Nat := [0x010, 0x014, 0x018]

/-- Read-only registers that are neither settings nor counters: a warm, domain or unit reset of their unit returns them to
their reset values. -/
def volatileOffs : PageKind → List Nat
  | .chip => [0x0FC, 0x110]
  | .pwr => [0x044, 0x048, 0x04C, 0x058, 0x060]
  | .life => [0x040]
  | .fault => [0x048, 0x080]
  | .stgh => [0x068]
  | .hbmc => [0x074]
  | .hash => [0x048, 0x04C, 0x05C]
  | .rdsp => [0x048, 0x050, 0x054]
  | .chirp => [0x10C]
  | .eth => [0x044, 0x210]
  | .tmgr => [0x114]
  | .host => [0x04C]
  | .fabric => [0x058]
  | _ => []

/-- Whether the register at a BAR0 address is one of an offset list of its page; an array goes by its first offset. -/
def isOff (offs : PageKind → List Nat) (a : Nat) : Bool :=
  match pageOf a with
  | some (p, o) => (offs p.kind).contains (((regSpec p.kind o).map (·.off)).getD o)
  | none => false

/-- Registers that the reset of a domain or unit returns to reset beside the volatile ones: latched errors, and a link's lane
maps and peer, and what an optical module has shown. -/
def localOffs (k : PageKind) : List Nat := latchOffs ++ volatileOffs k ++ (if k = .glink then [0x048, 0x04C, 0x050]
  else if k = .optm then [0x044, 0x048, 0x050, 0x060, 0x0A0] else [])

/-- Return to reset the registers of the pages that satisfy `p`, their severity counts (R429), and the latched and staged
halves of their pairs (R12). -/
def State.resetPages (s : State) (p : Page → Bool) : State :=
  let on := fun (a : Nat) => match pageOf a with
    | some (x, _) => p x
    | none => false
  { s with regs := s.regs.filter fun e => !(on e.1 && isOff localOffs e.1),
           latch := s.latch.filter fun e => !on (e.1 % 2 ^ 28), staged := s.staged.filter fun e => !on (e.1 % 2 ^ 28),
           flt := { s.flt with counts := s.flt.counts.map fun e =>
             (e.1, if on (e.1 / 32 * 256) then { e.2 with buckets := List.replicate 16 0 } else e.2) } }

/-- The life-log record of a reset (R411). -/
def State.resetRecord (s : State) (kind : Nat) : State := s.logEvent (pageAt .pwr 0) 0 7 0 0 kind

/-! ## Completion (R429, R430, R431) -/

/-- Domains that wait for another domain's reset begin theirs once it is over (R430). -/
def State.startWaiting (s : State) : State :=
  s.rst.domWait.foldl (fun s d =>
    if s.domMustWait d then s
    else ({ s with rst := { s.rst with domWait := s.rst.domWait.filter (· != d) } } : State).startDom d) s

/-- The domain's bit of DOM_FAULT clears (R402). -/
def State.leaveFault (s : State) (d : Nat) : State := s.setPr .fault 0 0x048 (setFld (s.pr .fault 0 0x048) d 1 0)

/-- The links of a group train again (R429). -/
def State.startGroup (s : State) (g : Nat) : State := [0, 1, 2, 3].foldl (fun s k => s.linkStart (4 * g + k)) s

/-- A domain reset completes (R429): E1's with those of its link groups. -/
def State.endDom (s : State) (d : Nat) : State :=
  if !s.rst.doms.contains d then s
  else
    let ds := if d = 5 then [5, 20, 21, 22, 23, 24, 25] else [d]
    let s := { s with rst := { s.rst with doms := s.rst.doms.filter (· != d) },
                      time := { s.time with copies := if d < 6 then Tbl.set none s.time.copies d none else s.time.copies } }
    let s := s.resetPages fun p => ds.contains (pageDomain p.kind p.inst)
    let s := (ds.foldl State.leaveFault s).bump .pwr 0 0x07C 1 |>.resetRecord 2
    let s := ds.foldl (fun s x => if 14 ≤ x then s.startGroup (x - 14) else s) s
    s.startWaiting.applyAll

/-- DOMAIN_RESET_COMPLETE (R429). -/
def execDomainResetComplete (dom : Fin 26) (s : State) : Host.Outcome State Fault Refusal := perform s fun s => s.endDom dom.val

/-- Completed graphs not yet released are released (R150). -/
def State.releaseDone (s : State) : State :=
  s.itemIds.foldl (fun s i => match s.itemOf i with
    | some it => if !it.released && !it.tasks.isEmpty && it.tasks.all (fun x => decide (x.st = .done)) then s.releaseItem i else s
    | none => s) s

/-- First position that a replay reads: the latest CHECKPOINT, one at every 65,536th position, before the oldest record not yet free
(R148). -/
def State.replayFrom (s : State) : Nat := (s.pbPos - s.work.book.length - 1) / 65536 * 65536

/-- The records that a replay finds damaged: lines that read poisoned, or whose CRC fails. One that is free already is known by
what its line holds alone. -/
def State.readBook (s : State) : State × List PbRec :=
  let old := s.pbPos - s.work.book.length
  (List.range (s.pbPos - s.replayFrom)).foldl (fun (p : State × List PbRec) i =>
    let pos := s.replayFrom + i
    let (t, g) := p.1.hbmLineRead ((0xBF80000000 + pos % bookSize * 64) / 64) false
    let b := g.getD (List.replicate 64 0)
    if g.isSome && fb b 60 4 == (crc32c (b.take 60)).toNat then (t, p.2)
    else (t, p.2 ++ [if old ≤ pos then nth (recOfBytes b) s.work.book (pos - old) else recOfBytes b])) (s, [])

/-- A damaged record raises source 0x0801; its item fares as at a cold reset: it is off the book and its tail copy is among the
reports of R151. The RETURN record that frees its other records is DEDUCED (log 61). -/
def State.loseRecord (s : State) (r : PbRec) : State :=
  let s := s.raise (pageAt .stage (r.home % 6)) 1 (stageInfo r.fn (if r.task < 0xFFF then r.task else 0xFFF))
  if r.kind = kCheckpoint then s
  else
    let mine := s.work.tail.filter fun t => t.fn == r.fn && t.queue == r.queue && t.seqNo == r.seqNo
    match s.work.items.find? fun p => p.2.fn == r.fn && p.2.queue == r.queue && p.2.seqNo == r.seqNo && !p.2.released with
    | some p =>
      let s := s.returnItem p.1
      { s with work := { s.work with reports := s.work.reports ++ mine } }
    | none => s

/-- The replay of R150: the book is read (R148); the tasks that were CUED or PLAYING, and those whose saved contexts were discarded, run again
uncounted; every item not yet released is marked AFTER_WARM. -/
def State.replay (s : State) : State :=
  let (s, bad) := s.readBook
  let s := bad.foldl State.loseRecord s
  let lost := s.work.items.flatMap fun e =>
    (e.2.tasks.zipIdx.filter fun x => decide (x.1.st = .ready) && x.1.ctxAt.isSome).map fun x => (e.1, x.2)
  let s := ((s.placedTasks fun _ => true) ++ lost).foldl (fun s x => s.rerunTask x.1 x.2 false none) s
  let s := { s with work := { s.work with items := s.work.items.map fun (e : Nat × Item) => (e.1, { e.2 with afterWarm := true }) } }
  s.releaseDone

/-- A warm reset completes (R429, R431): a reset of every domain. -/
def State.endWarm (s : State) : State :=
  if !s.rst.warm then s
  else
    let s := { s with rst := { s.rst with warm := false },
                      regs := s.regs.filter fun e => !isOff volatileOffs e.1,
                      cls := s.cls.map fun (p : Nat × Cluster) => (p.1, if p.2.force = 0 then { p.2 with pwr := .lit } else p.2) }
    let s := ((s.bump .pwr 0 0x078 1).raise (pageAt .pwr 0) 6 (BitVec.ofNat 32 (2 ^ 17))).resetRecord 1
    let s := (List.range 12).foldl State.startGroup s
    s.replay.applyAll

/-- WARM_RESET_COMPLETE (R431). -/
def execWarmResetComplete (s : State) : Host.Outcome State Fault Refusal := perform s State.endWarm

/-! ## Requests (R429, R430, R432, R466) -/

/-- WARM_RESET_ASSERT (R429): WARM_RESET_N low for at least 1 µs. -/
def execWarmResetAssert (s : State) : Host.Outcome State Fault Refusal := perform s fun s => s.requestWarm 1

/-- PWR_RST_WARM (R429): KIND 1. -/
def execPwrRstWarm (s : State) : Host.Outcome State Fault Refusal := perform s fun s => s.requestWarm 2

/-- PWR_RST_DOMAIN (R429): KIND 2. -/
def execPwrRstDomain (dom : Fin 32) (s : State) : Host.Outcome State Fault Refusal := perform s fun s => s.requestDom dom.val

/-- Whether a page's unit is of a class that a unit reset names by its page (R429). -/
def unitClass (k : PageKind) : Bool := k == .clus || k == .rdsp || k == .hbmc

/-- A unit reset begins (R429): its tasks fare as at a domain reset (R150), its memories stay. -/
def State.startUnit (s : State) (p : Page) : State :=
  let i := p.inst
  let s := { s with rst := { s.rst with units := addSorted (p.base / 256) s.rst.units } }
  match p.kind with
  | .clus =>
    let s := s.rerunWhere (fun x => x.standsOn 1 (· == i)) (· == i)
    { s with seqs := (s.seqs.outside i 1).outside (300 + i) 1,
             cls := (s.cls.outside (300 + i) 1).map fun c => (c.1, if c.1 = i then c.2.afterReset else c.2) }
  | .rdsp =>
    let s := s.rerunWhere (fun x => x.standsOn 2 (· == i)) (fun _ => false)
    { s with dsp := Tbl.upd {} s.dsp i DspCore.afterReset }
  | _ =>
    { s with hc := s.hc.map fun h => (h.1, if h.1 = i then h.2.afterReset else h.2),
             wb := s.wb.filter fun l => hbmInst (64 * l) != i }

/-- A unit reset requested (R430, R432): a page of no unit class is refused; one inside a larger reset, or its own, is
absorbed. -/
def State.requestUnit (s : State) (a : Nat) : State :=
  match pageOf a with
  | none => s.refuseReset 3 0
  | some (p, _) =>
    let d := pageDomain p.kind p.inst
    if !unitClass p.kind || s.bigReset || s.rst.doms.contains d || s.rst.units.contains (p.base / 256) then s.refuseReset 3 d
    else s.acceptReset.startUnit p

/-- PWR_RST_UNIT (R429): KIND 3. -/
def execPwrRstUnit (page : BitVec 16) (s : State) : Host.Outcome State Fault Refusal :=
  perform s fun s => s.requestUnit (page.toNat * 4096)

/-- SOFT_RESET (R466): `PG_CTRL.SOFT_RESET` of a CLUS, RDSP or HBMC page; ignored on other pages. -/
def State.softReset (s : State) (a : Nat) : State :=
  match pageOf a with
  | some (p, _) => if unitClass p.kind then s.requestUnit a else s
  | none => s

/-- SOFT_RESET (R466). -/
def execSoftReset (addr : BitVec 28) (s : State) : Host.Outcome State Fault Refusal := perform s fun s => s.softReset addr.toNat

/-- A unit reset completes. -/
def State.endUnit (s : State) (n : Nat) : State :=
  if !s.rst.units.contains (16 * n) then s
  else
    let s := { s with rst := { s.rst with units := s.rst.units.filter (· != 16 * n) } }
    let s := s.resetPages fun p => p.base == n * 4096
    ((s.bump .pwr 0 0x080 1).resetRecord 3).applyAll

/-- UNIT_RESET_COMPLETE (R429). -/
def execUnitResetComplete (page : BitVec 16) (s : State) : Host.Outcome State Fault Refusal :=
  perform s fun s => s.endUnit page.toNat

/-- A write of PWR_RST (R432): one of no kind is refused. -/
def State.writePwrRst (s : State) (v : Word) : State :=
  match fld v 0 2 with
  | 1 => s.requestWarm 2
  | 2 => s.requestDom (fld v 8 5)
  | 3 => s.requestUnit (fld v 16 16 * 4096)
  | _ => s.refuseReset 0 0

/-- RST_STAT as it reads (R432). -/
def State.readRstStat (s : State) : Word :=
  let kind := if s.rst.warm then 1 else if !s.rst.doms.isEmpty || !s.rst.domWait.isEmpty then 2 else if !s.rst.units.isEmpty then 3
    else 0
  BitVec.ofNat 32 (fld (s.pr .pwr 0 0x06C) 31 1 * 2 ^ 31 + 2 * kind + bn (kind != 0))

/-- DOM_RST as it reads (R432). -/
def State.readDomRst (s : State) : Word := BitVec.ofNat 32 (sumBy (fun d => 2 ^ d * bn (s.rst.doms.contains d)) (List.range 26))

/-! ## Cold reset and boot start (R429, R435, R454, R455) -/

/-- Registers that a cold reset keeps: the life log's positions and the spare rows that the stacks report (R322, R410). -/
def coldKeeps (a : Nat) : Bool :=
  match pageOf a with
  | some (p, o) =>
    (p.kind == .life && [0x044, 0x04C, 0x050, 0x05C].contains o) || (p.kind == .hbmc && o == 0x07C)
  | none => false

/-- Items of the life-log tail in the order of R151. -/
def insertTail (t : TailCopy) : List TailCopy → List TailCopy
  | [] => [t]
  | x :: r => if t.fn < x.fn ∨ (t.fn = x.fn ∧ (t.queue < x.queue ∨ (t.queue = x.queue ∧ t.seqNo < x.seqNo))) then t :: x :: r
    else x :: insertTail t r

/-- An accepted life-cycle transition takes effect at the cold reset it ends in (R439). -/
def SecSt.transition (c : SecSt) : SecSt :=
  match c.nextLc with
  | none => c
  | some n =>
    let c := if n = 2 then { c with owners := c.owners ++ [c.nextOwner] }
      else if n = 3 then { c with ownerRevoked := c.ownerRevoked ||| BitVec.ofNat 4 (2 ^ (c.owners.length - 1)) }
      else if n = 4 then { c with killed := true }
      else c
    { c with lc := n }

/-- The in-service map after a transition: into RETURN the fused map is applied again, and logical indices are assigned
anew at the next boot (R21, R439). -/
def MapSt.transition (m : MapSt) (next : Option Nat) : MapSt :=
  if next = some 3 then { m with svc := { m.fused with clLog := [], dspLog := [], cuLog := [], voLog := [] }, assigned := false,
                                 waiting := [], running := [] }
  else m

/-- A cold reset holds the device (R429): the life log, the fuses and flash and the AON trip flag stay, the rest returns to
reset. Every item of the tail is to be reported (R151); interrupted bring-ins wait again (R473). Until a snapshot is latched
`DMAP_DATA` and `DMAP_DIG0`–`DMAP_DIG7`, which have no reset value (R29), show the map as shipped (DESIGN CHOICE, log 56). -/
def State.coldReset (s : State) (cause : Nat) : State :=
  let m := (s.stopBringIns fun _ => true).map
  let m := MapSt.transition { m with applied := false, snap := {} } s.sec.nextLc
  let tail := if s.sec.nextLc = some 3 then [] else (s.work.reports ++ s.work.tail).foldl (fun l t => insertTail t l) []
  let c := s.sec.transition
  let r : State := {
    pending := s.pending, regs := s.regs.filter fun e => coldKeeps e.1, rdata := s.rdata, mdata := s.mdata,
    map := m, host := s.host,
    work := { tail := [], reports := tail },
    time := { clk := s.time.clk },
    hc := s.hc.map fun p => (p.1, ({ used := p.2.used } : HbmCh)),
    flt := { aonTrip := s.flt.aonTrip, thermTrip := s.flt.thermTrip && s.rst.sysResetN },
    life := { s.life with day := s.life.day.map fun d => (d.1, { d.2 with droops := 0, errors := 0 }) },
    rst := { cold := true, sysResetN := s.rst.sysResetN, vinOk := s.rst.vinOk, aonOk := s.rst.aonOk },
    boot := { wasRecovery := s.boot.wasRecovery || s.boot.recovery },
    sec := { c with nextLc := none, nextOwner := [], running := none, staging := false, debugOpen := false, spdmStage := 0,
                    sessions := [], tap := .idcode },
    out := s.out, free := s.free }
  r.setPr .pwr 0 0x074 (setFld 0 0 4 cause)

/-- A boot begins (R435): t0. Every boot draws a nonce (R440); the debug port is open in BLANK (R447). -/
def State.bootStart (s : State) : State :=
  let s := s.setPr .life 0 0x05C (s.pr .life 0 0x05C + 1)
  { s with rst := { s.rst with cold := false }, boot := { s.boot with phase := 1, ready := false, recovery := false },
           sec := { s.sec with nonce := Config.nonce s.sec.draws, draws := s.sec.draws + 1, debugOpen := s.sec.lc == 0 } }

/-- Boot if every supply is in range, SYS_RESET_N is high and no trip holds the device. -/
def State.tryBoot (s : State) : State :=
  if s.rst.cold ∧ s.rst.sysResetN ∧ s.rst.vinOk ∧ s.rst.aonOk ∧ !s.flt.thermTrip then s.bootStart else s

/-- SYS_RESET_ASSERT (R405, R429): cold reset, cause 1, or 2 when it recovers from a thermal trip; THERMTRIP_N is
released. -/
def execSysResetAssert (s : State) : Host.Outcome State Fault Refusal :=
  performRaw s fun s =>
    if !s.rst.sysResetN then s
    else ({ s with rst := { s.rst with sysResetN := false } } : State).coldReset (if s.flt.aonTrip then 2 else 1)

/-- SYS_RESET_RELEASE (R435, R454). -/
def execSysResetRelease (s : State) : Host.Outcome State Fault Refusal :=
  performRaw s fun s => ({ s with rst := { s.rst with sysResetN := true } } : State).tryBoot

/-- VIN_LOW (R455): VIN_12 below 10.8 V for 20 µs; while SYS_RESET_N is high a cold reset with cause 0. -/
def execVinLow (s : State) : Host.Outcome State Fault Refusal :=
  performRaw s fun s =>
    let s := { s with rst := { s.rst with vinOk := false } }
    if s.rst.sysResetN then s.coldReset 0 else s

/-- VIN_RESTORE (R455): VIN_12 in range for 10 µs. -/
def execVinRestore (s : State) : Host.Outcome State Fault Refusal :=
  performRaw s fun s => ({ s with rst := { s.rst with vinOk := true } } : State).tryBoot

/-- AON_LOSS (R455): VDD_AON below 1.60 V stops the device, releases THERMTRIP_N and clears the trip flag. -/
def execAonLoss (s : State) : Host.Outcome State Fault Refusal :=
  performRaw s fun s =>
    let s := s.coldReset 0
    { s with rst := { s.rst with aonOk := false }, flt := { s.flt with aonTrip := false, thermTrip := false } }

/-- VDD_AON_RESTORE (R454): VDD_AON in range again; the device stays in cold reset until SYS_RESET_N rises. -/
def execVddAonRestore (s : State) : Host.Outcome State Fault Refusal :=
  .next { s with rst := { s.rst with aonOk := true } }

end Sys2Proof.Machine
end

