-- ==== Sys2Proof/Machine/Boot.lean ====
section
/-! DEFINITION. Boot, life cycle, firmware update, attestation and the debug port (R18, R23, R26, R435 to R449, R472). -/

namespace Sys2Proof.Machine

/-! ## Boot (R435 to R437, R442) -/

/-- Information word of R449. -/
def State.bootInfo (s : State) (result : Nat) : Word := BitVec.ofNat 32 (result + 16 * s.boot.phase)

/-- The device enters recovery (R437, R442). -/
def State.recover (s : State) : State := { s with boot := { s.boot with recovery := true, wasRecovery := true } }

/-- Whether a boot is in a phase. -/
def State.inPhase (s : State) (n : Nat) : Bool := s.boot.phase == n && !s.boot.recovery

/-- The next phase begins. -/
def State.nextPhase (s : State) : State := { s with boot := { s.boot with phase := s.boot.phase + 1 } }

/-- BOOT_ROM_COMPLETE (R435). -/
def execBootRomComplete (s : State) : Host.Outcome State Fault Refusal :=
  perform s fun s => if s.inPhase 1 then s.nextPhase else s

/-- Result of a firmware image's check in the codes of FWU_STAT (R442): signature, SVN, length. -/
def State.imageCheck (s : State) (i : FwImage) : Nat :=
  if !i.sigOk || s.sec.revoked.getLsbD i.slot.val then 1
  else if i.svn < s.sec.svnMin then 2
  else if 0x2000000 < i.len then 5
  else 0

/-- The image of a flash bank. -/
def State.bankImage (s : State) (b : Nat) : Option FwImage := if b = 0 then s.sec.flashA else s.sec.flashB

/-- Whether the ROM accepts the image of a bank. -/
def State.bankOk (s : State) (b : Nat) : Bool := (s.bankImage b).any fun i => s.imageCheck i == 0

/-- The image of a bank runs. -/
def State.runBank (s : State) (b : Nat) : State :=
  { s with sec := { s.sec with running := s.bankImage b }, boot := { s.boot with bank := b } }

/-- Phase 2 (R442): the active bank, else the other one, else recovery. In RETIRED nothing is loaded (R439). -/
def State.bootLoad (s : State) : State :=
  let a := s.sec.nextBank
  if s.sec.lc = 4 then s
  else if s.bankOk a then (s.runBank a).nextPhase
  else if s.bankOk (1 - a) then
    let s := s.runBank (1 - a)
    (({ s with boot := { s.boot with fallback := true } } : State).raise (pageAt .chip 0) 0x18 (s.bootInfo 0)).nextPhase
  else ({ s with boot := { s.boot with bank := a } } : State).recover

/-- BOOT_LOAD_COMPLETE (R442). -/
def execBootLoadComplete (s : State) : Host.Outcome State Fault Refusal :=
  perform s fun s => if s.inPhase 2 then s.bootLoad else s

/-- BOOT_FIRMWARE_COMPLETE (R435). -/
def execBootFirmwareComplete (s : State) : Host.Outcome State Fault Refusal :=
  perform s fun s => if s.inPhase 3 then s.nextPhase else s

/-- BOOT_MEMORY_COMPLETE (R435, R437): `failed` are the stacks whose training or wipe failed. -/
def execBootMemoryComplete (failed : List (Fin 8)) (s : State) : Host.Outcome State Fault Refusal :=
  perform s fun s =>
    if !s.inPhase 4 ∨ s.fullWipe then s
    else if failed.isEmpty then s.nextPhase
    else (failed.foldl (fun s m => s.domEnter (6 + m.val)) s).recover

/-- BOOT_SERDES_COMPLETE (R435, R456): a missing reference clock stops the boot. -/
def execBootSerdesComplete (refOk : Bool) (s : State) : Host.Outcome State Fault Refusal :=
  perform s fun s =>
    if !s.inPhase 5 then s
    else if refOk then (List.range 12).foldl State.startGroup s.nextPhase
    else s.recover

/-- Number of units of a class of the map. -/
def unitsOf (cls : Nat) : Nat :=
  match cls with
  | 0 => 144
  | 1 => 1872
  | 2 => 61776
  | 3 => 272
  | 4 => 168
  | _ => 16

/-- A unit that fails its self-test (R437): an ACTIVE one is retired, a SPARE one marked RETIRED with its page's source. -/
def State.failTest (s : State) (cls i : Nat) : State :=
  if unitsOf cls ≤ i then s
  else match s.unitSt cls i with
    | .active => (s.retire cls i).raise (pageAt .chip 0) 0x1C (s.bootInfo 0)
    | .spare =>
      let s := s.withMap (s.curMap.setSt s.sec.variant cls i .retired)
      let s := if cls = clsDsp then
          ({ s with free := s.free + 1 } : State).raise (unitPage cls i) 4 (testInfo (Config.freeWord s.free))
        else if cls = clsEngine ∨ cls = clsCrc then s  -- R267 gives these pages no self-test source
        else s.raise (unitPage cls i) 7 (BitVec.ofNat 32
          ((if cls = clsUnit then i % 13 else if cls = clsVoice then i / 33 % 13 else 0xF)
            + 16 * (if cls = clsVoice then i % 33 else 0x3F) + 0x3F * 1024))
      s.raise (pageAt .chip 0) 0x1C (s.bootInfo 0)
    | _ => s

/-- The in-service map applied (R26), logical indices assigned at the first PROVISIONED boot (R23). -/
def State.applyMap (s : State) : State :=
  let m := s.map
  let m := if m.assigned ∨ s.sec.lc = 0 then m
    else { m with svc := m.svc.assign s.sec.variant, fused := m.fused.assign s.sec.variant, assigned := true }
  { s with map := { m with applied := true } }

/-- BOOT_MAP_COMPLETE (R435, R437): the units that failed their self-test, and a die that failed as a whole. -/
def execBootMapComplete (failed : List (Fin 6 × Nat)) (wholeDie : Option (Fin 6)) (s : State) :
    Host.Outcome State Fault Refusal :=
  perform s fun s =>
    if !s.inPhase 6 then s
    else
      let s := failed.foldl (fun s u => s.failTest u.1.val u.2) s.applyMap
      match wholeDie with
      | some d => (s.domEnter d.val).recover
      | none => s.nextPhase

/-- The trip recorded by the AON flag is reported once (R405). -/
def State.reportTrip (s : State) : State :=
  if !s.flt.aonTrip then s
  else
    let s := ({ s with flt := { s.flt with aonTrip := false } } : State).setPr .fault 0 0x044 8
    (s.raise (pageAt .fault 0) 4 0).logEvent (pageAt .fault 0) 0x0204 9 2 0 0

/-- BOOT_READY (R30, R300, R435, R445): time bases start, the snapshot is latched, measurement 5 taken, every port
served. -/
def execBootReady (ms : BitVec 16) (s : State) : Host.Outcome State Fault Refusal :=
  perform s fun s =>
    if !s.inPhase 7 || s.boot.ready then s
    else
      let was := s.boot.wasRecovery
      let s := { s with boot := { s.boot with ready := true, wasRecovery := false }, time := { s.time with running := true },
                        sec := { s.sec with meas5 := mapDigest s.sec.variant s.curMap } }
      let s := (s.latchSnap.setPr .chip 0 0x0C8 (BitVec.ofNat 32 ms.toNat)).logEvent (pageAt .chip 0) 0 0x0D 0 0 0
      let s := s.reportTrip
      if was then s.raise (pageAt .chip 0) 0x19 (s.bootInfo 0) else s

/-- BOOT_STAT as it reads (R448). -/
def State.readBootStat (s : State) : Word :=
  BitVec.ofNat 32 (s.boot.phase + 16 * s.boot.bank + 32 * bn s.boot.fallback + 64 * bn s.boot.recovery)

/-! ## Life cycle (R439, R440, R447) -/

/-- Whether a request must be refused as BUSY (R440). -/
def State.lcBusy (s : State) : Bool :=
  s.rst.warm || !s.rst.doms.isEmpty || !s.rst.domWait.isEmpty || !s.rst.units.isEmpty || s.sec.staging || s.sec.nextLc.isSome

/-- Whether the table of R439 has a transition. -/
def lcAllowed (src dst : Nat) : Bool :=
  (src == 0 && dst == 1) || (src == 1 && dst == 2) || (src == 2 && dst == 3) || (src == 3 && dst == 2) || (src != 4 && dst == 4)

/-- Bytes of PG_UID0 to PG_UID2 of E0. -/
def uidBytes : List Byte := [0, 1, 2].flatMap fun k => leBytes 4 (pgUid (pageAt .chip 0) k).toNat

/-- LC_RESULT of a token (R440, R448); `sigOk` says that its signature verifies under a key that R439 authorises. -/
def State.lcCheck (s : State) (token : List Byte) (sigOk : Bool) : Nat :=
  let dst := leNat ((token.drop 4).take 1)
  if s.lcBusy then 7
  else if !sigOk || token.length != 256 || leNat (token.take 4) != 0x544B434C then 2
  else if (token.drop 32).take 32 ≠ leBytes 32 s.sec.nonce.toNat then 3
  else if (token.drop 8).take 12 ≠ uidBytes then 4
  else if s.sec.lc = 3 ∧ dst = 3 then 1
  else if !lcAllowed s.sec.lc dst then 5
  else if dst = 2 ∧ 4 ≤ s.sec.owners.length then 6
  else 1

/-- A refusal: the result, source 0x011A and a new nonce. -/
def State.lcRefuse (s : State) (r : Nat) : State :=
  let s := (s.setPr .chip 0 0x0FC (BitVec.ofNat 32 r)).raise (pageAt .chip 0) 0x1A (s.bootInfo r)
  { s with sec := { s.sec with nonce := Config.nonce s.sec.draws, draws := s.sec.draws + 1 } }

/-- A life-cycle request (R439, R440). A Prewen debug token with target state 3 opens the debug port in RETURN (R447). -/
def State.lcRequest (s : State) (token : List Byte) (sigOk : Bool) : State :=
  let r := s.lcCheck token sigOk
  if r ≠ 1 then s.lcRefuse r
  else
    let s := s.setPr .chip 0 0x0FC 1
    let dst := leNat ((token.drop 4).take 1)
    if s.sec.lc = 3 ∧ dst = 3 then
      ({ s with sec := { s.sec with debugOpen := true } } : State).raise (pageAt .chip 0) 0x1D (s.bootInfo 1)
    else { s with sec := { s.sec with nextLc := some dst, nextOwner := (token.drop 64).take 96 } }

/-- LC_REQ.GO: the token is read at the address of LC_TOKEN; a read that other nodes answer leaves PENDING. `sigOk` says
whether the signature of a token verifies. -/
def State.lcGo (s : State) (sigOk : List Byte → Bool) : State :=
  if !s.boot.ready then s
  else if s.lcBusy then s.lcRefuse 7
  else match s.gRead (s.smWho 0 0 0) (s.pair 0x0F0) 256 false with
    | (s, .ok b) => (s.forget 7000).lcRequest b (sigOk b)
    | (s, .fail _) => (s.forget 7000).lcRefuse 2
    | (s, .wait) => s.setPr .chip 0 0x0FC 8

/-- LC_REQ_GO (R440). -/
def execLcReqGo (sigOk : Bool) (s : State) : Host.Outcome State Fault Refusal :=
  perform s fun s => s.lcGo fun _ => sigOk

/-- LC_REQUEST (R440): the same token out of band. -/
def execLcRequest (token : List (BitVec 8)) (sigOk : Bool) (s : State) : Host.Outcome State Fault Refusal :=
  perform s fun s => if s.mctpAll then s.lcRequest token sigOk else s

/-- LC_TRANSITION_RESET (R439, R440): the cold reset that an accepted request ends in, and the boot that follows. -/
def execLcTransitionReset (s : State) : Host.Outcome State Fault Refusal :=
  perform s fun s => if s.sec.nextLc.isSome then (s.coldReset 3).tryBoot else s

/-- LC_STATE as it reads (R448). -/
def State.readLcState (s : State) : Word :=
  BitVec.ofNat 32 (s.sec.lc + 16 * s.sec.owners.length + 256 * s.sec.svnMin.toNat + 65536 * bn s.sec.debugOpen)

/-! ## Firmware update (R442 to R444, R448) -/

/-- Set the result field of FWU_STAT; a failure raises 0x011B. -/
def State.fwuResult (s : State) (r : Nat) : State :=
  let s := s.setPr .chip 0 0x110 (setFld (s.pr .chip 0 0x110) 1 3 r)
  if r = 0 then s else s.raise (pageAt .chip 0) 0x1B (s.bootInfo r)

/-- BUSY and STAGED_VALID of FWU_STAT. -/
def State.setFwu (s : State) (busy valid : Bool) : State :=
  let s := { s with sec := { s.sec with staging := busy } }
  s.setPr .chip 0 0x110 (setFld (setFld (s.pr .chip 0 0x110) 0 1 (bn busy)) 4 1 (bn valid))

/-- FWU_CTRL.STAGE: an image of `len` bytes is to be written to the inactive bank. -/
def State.fwuStage (s : State) (len : Nat) : State :=
  if s.sec.staging then s.fwuResult 4
  else if 0x2000000 < len then s.fwuResult 5
  else s.setFwu true false

/-- FWU_STAGE (R443). -/
def execFwuStage (s : State) : Host.Outcome State Fault Refusal :=
  perform s fun s => if s.boot.ready then s.fwuStage (s.pr .chip 0 0x108).toNat else s

/-- Replace the image of the inactive bank. -/
def State.setInactive (s : State) (i : Option FwImage) : State :=
  if s.boot.bank = 0 then { s with sec := { s.sec with flashB := i } } else { s with sec := { s.sec with flashA := i } }

/-- A staging ends: the inactive bank holds the image, verified under R442. -/
def State.fwuDone (s : State) (flashOk : Bool) (img : FwImage) : State :=
  if !flashOk then (((s.setInactive none).setFwu false false).fwuResult 3)
  else
    let r := s.imageCheck img
    ((s.setInactive (some img)).setFwu false (r == 0)).fwuResult r

/-- FWU_STAGE_COMPLETE (R443). -/
def execFwuStageComplete (flashOk : Bool) (img : FwImage) (s : State) : Host.Outcome State Fault Refusal :=
  perform s fun s => if s.sec.staging then s.fwuDone flashOk img else s

/-- FWU_CTRL.ACTIVATE: the staged bank is active from the next cold reset. -/
def State.fwuActivate (s : State) : State :=
  if fld (s.pr .chip 0 0x110) 4 1 = 1 then { s with sec := { s.sec with nextBank := 1 - s.boot.bank } } else s

/-- FWU_ACTIVATE (R443). -/
def execFwuActivate (s : State) : Host.Outcome State Fault Refusal := perform s State.fwuActivate

/-- FWU_CTRL.COMMIT_SVN (R444). -/
def State.commitSvn (s : State) : State :=
  match s.sec.running with
  | some i => if s.boot.ready ∧ s.sec.svnMin < i.svn then { s with sec := { s.sec with svnMin := i.svn } } else s
  | none => s

/-- FWU_COMMIT_SVN (R444). -/
def execFwuCommitSvn (s : State) : Host.Outcome State Fault Refusal := perform s State.commitSvn

/-- A write of FWU_CTRL (R448). -/
def State.writeFwuCtrl (s : State) (v : Word) : State :=
  let s := if fld v 0 1 = 1 then s.fwuStage (s.pr .chip 0 0x108).toNat else s
  let s := if fld v 1 1 = 1 then s.fwuActivate else s
  if fld v 2 1 = 1 then s.commitSvn else s

/-- PLDM_FIRMWARE_UPDATE (R442, R443): the out-of-band path, the only service in recovery. -/
def execPldmFirmwareUpdate (img : FwImage) (s : State) : Host.Outcome State Fault Refusal :=
  perform s fun s =>
    if !s.mctpAll && !s.boot.recovery then s
    else if s.sec.staging then s.fwuResult 4
    else s.fwuDone true img

/-- FWU_STAT and FWU_SVN as they read (R448). -/
def State.readFwuStat (s : State) : Word := setFld (s.pr .chip 0 0x110) 5 1 s.sec.nextBank
def State.readFwuSvn (s : State) : Word :=
  let svn := fun (i : Option FwImage) => (i.map fun (x : FwImage) => x.svn.toNat).getD 0
  let staged := if fld (s.pr .chip 0 0x110) 4 1 = 1 then svn (s.bankImage (1 - s.boot.bank)) else 0
  BitVec.ofNat 32 (svn s.sec.running + 256 * staged)

/-! ## Attestation (R445) -/

/-- Whether the SPDM responder answers. -/
def State.spdmOn (s : State) : Bool := s.mctpAll && s.sec.lc != 4

/-- Answer an SPDM request of a code with data. -/
def State.spdmSend (s : State) (kind : Nat) (d : BitVec 512) : State :=
  { s with out := .spdm kind d :: s.out, sec := { s.sec with transcript := s.sec.transcript + 1 } }

/-- An ERROR response (PRESUMED code 0x7F of SPDM). -/
def State.spdmError (s : State) : State := s.spdmSend 0x7F 0

/-- A request that needs a stage of the connection: its answer, or ERROR out of order. -/
def State.spdmAt (s : State) (stage : Nat) (f : State → State) : State :=
  if !s.spdmOn then s else if s.sec.spdmStage < stage then s.spdmError else f s

/-- An answer whose content the manual leaves to the SPDM standard and to keys (log 2). -/
def State.spdmOpaque (s : State) (kind : Nat) : State := s.spdmSend kind (Config.spdmAnswer kind s.sec.transcript)

/-- GET_VERSION (R445): the connection starts anew. -/
def execGetVersion (s : State) : Host.Outcome State Fault Refusal :=
  perform s fun s => s.spdmAt 0 fun s => ({ s with sec := { s.sec with spdmStage := 1 } } : State).spdmSend 0x04 0x13

/-- GET_CAPABILITIES (R445). -/
def execGetCapabilities (s : State) : Host.Outcome State Fault Refusal :=
  perform s fun s => s.spdmAt 1 fun s => ({ s with sec := { s.sec with spdmStage := 2 } } : State).spdmOpaque 0x61

/-- NEGOTIATE_ALGORITHMS (R445). -/
def execNegotiateAlgorithms (s : State) : Host.Outcome State Fault Refusal :=
  perform s fun s => s.spdmAt 2 fun s => ({ s with sec := { s.sec with spdmStage := 3 } } : State).spdmOpaque 0x63

/-- GET_DIGESTS (R445). -/
def execGetDigests (s : State) : Host.Outcome State Fault Refusal := perform s fun s => s.spdmAt 3 fun s => s.spdmOpaque 0x01

/-- GET_CERTIFICATE (R445): slot 0 alone holds a chain. -/
def execGetCertificate (slot : Fin 8) (s : State) : Host.Outcome State Fault Refusal :=
  perform s fun s => s.spdmAt 3 fun s => if slot.val = 0 then s.spdmOpaque 0x02 else s.spdmError

/-- CHALLENGE (R445). -/
def execChallenge (nonce : BitVec 256) (s : State) : Host.Outcome State Fault Refusal :=
  perform s fun s => s.spdmAt 3 fun s => s.spdmSend 0x03 (Config.spdmAnswer (256 * nonce.toNat + 3) s.sec.transcript)

/-- What a measurement of R445 covers, as a number. -/
def State.measured (s : State) (idx : Nat) : Nat :=
  match idx with
  | 2 => s.fwVer.toNat
  | 4 => s.sec.lc + 8 * s.sec.owners.length + 64 * s.sec.svnMin.toNat + 4096 * s.sec.revoked.toNat
  | 5 => s.sec.meas5.toNat
  | 6 => bn s.sec.debugOpen
  | _ => 0

/-- GET_MEASUREMENTS (R445): index 1 to 6; any other has no measurement. -/
def execGetMeasurements (idx : BitVec 8) (s : State) : Host.Outcome State Fault Refusal :=
  perform s fun s => s.spdmAt 3 fun s =>
    if 1 ≤ idx.toNat ∧ idx.toNat ≤ 6 then
      s.spdmSend 0x60 ((Config.measurement idx.toNat (s.measured idx.toNat)).setWidth 512)
    else s.spdmError

/-- KEY_EXCHANGE (R445): a session in handshake. -/
def execKeyExchange (pub : BitVec 384) (s : State) : Host.Outcome State Fault Refusal :=
  perform s fun s => s.spdmAt 3 fun s =>
    let s := { s with sec := { s.sec with sessions := Tbl.put s.sec.sessions s.sec.nextSid false, nextSid := s.sec.nextSid + 1 } }
    s.spdmSend 0x64 (Config.spdmAnswer (256 * pub.toNat + 4) s.sec.transcript)

/-- FINISH (R445): the session is established. -/
def execFinish (sid : BitVec 32) (s : State) : Host.Outcome State Fault Refusal :=
  perform s fun s => s.spdmAt 3 fun s =>
    if Tbl.look s.sec.sessions sid.toNat = some false then
      ({ s with sec := { s.sec with sessions := Tbl.put s.sec.sessions sid.toNat true } } : State).spdmOpaque 0x65
    else s.spdmError

/-- KEY_UPDATE (R445): in an established session. -/
def execKeyUpdate (sid : BitVec 32) (s : State) : Host.Outcome State Fault Refusal :=
  perform s fun s => s.spdmAt 3 fun s =>
    if Tbl.look s.sec.sessions sid.toNat = some true then s.spdmOpaque 0x69 else s.spdmError

/-- END_SESSION (R445). -/
def execEndSession (sid : BitVec 32) (s : State) : Host.Outcome State Fault Refusal :=
  perform s fun s => s.spdmAt 3 fun s =>
    if Tbl.look s.sec.sessions sid.toNat = some true then
      ({ s with sec := { s.sec with sessions := Tbl.del s.sec.sessions sid.toNat } } : State).spdmOpaque 0x6C
    else s.spdmError

/-! ## Debug port (R472) -/

/-- Select a TAP instruction; IDCODE reads the device's code. -/
def State.tapSelect (s : State) (i : TapIns) : State :=
  let s := { s with sec := { s.sec with tap := i } }
  match i with
  | .idcode => { s with out := .tdo (0x19448001 + 2 * Config.jedec.toNat) :: s.out }
  | _ => s

/-- TAP_INSTRUCTION (R472): beside BYPASS, IDCODE, SAMPLE/PRELOAD and EXTEST an instruction executes only while the port is
open; in RETIRED none does. -/
def execTapInstruction (ins : TapIns) (s : State) : Host.Outcome State Fault Refusal :=
  perform s fun s =>
    if s.sec.lc = 4 then s
    else match ins with
      | .other c =>
        if s.sec.debugOpen then s.tapSelect (.other c)
        else ((s.tapSelect .bypass).bump .dbg 0 0x044 1).raise (pageAt .dbg 0) 1 0
      | i => s.tapSelect i

end Sys2Proof.Machine
end

