-- ==== Sys2Proof/Machine/Chirp.lean ====
section
/-! DEFINITION. The chirp receiver (R249 to R262, R265, R266): the windows of a job's samples, dechirped and transformed, and
what the receiver makes of them. Positions count the samples that a bank has taken. -/

namespace Sys2Proof.Machine

/-! ## Banks, channels and their registers -/

/-- A bank. -/
def State.bankOf (s : State) (e b : Nat) : ChirpBank := Tbl.get {} (s.accOf e).banks b

/-- Replace a bank. -/
def State.setBank (s : State) (e b : Nat) (x : ChirpBank) : State :=
  s.setAcc e { s.accOf e with banks := Tbl.set {} (s.accOf e).banks b x }

/-- A channel of a bank. -/
def State.chanOf (s : State) (e b c : Nat) : ChirpCh := Tbl.get {} (s.bankOf e b).ch c

/-- Replace a channel. -/
def State.setChan (s : State) (e b c : Nat) (x : ChirpCh) : State :=
  s.setBank e b { s.bankOf e b with ch := Tbl.set {} (s.bankOf e b).ch c x }

/-- Address of register `off` of a bank's block (R265). -/
def bankReg (e b off : Nat) : Nat := pageAddr .chirp e + 0x100 + 0x40 * b + off

/-- Add to a counter of a bank. -/
def State.bankCount (s : State) (e b off n : Nat) : State := s.setRg (bankReg e b off) (satAdd (s.rg (bankReg e b off)) n)

/-- `CH_CFG` of a channel. -/
def State.chCfg (s : State) (e b c : Nat) : Word := s.pr .chirp e (0x800 + 4 * (128 * b + c))

/-- Sweep order of a channel. -/
def swo (cfg : Word) : Nat := 5 + fld cfg 1 3

/-- Chips per sweep. -/
def chips (cfg : Word) : Nat := 2 ^ swo cfg

/-- Whether any channel of a bank is enabled (R253). -/
def State.bankOn (s : State) (e b : Nat) : Bool := (List.range 128).any fun c => fld (s.chCfg e b c) 0 1 == 1

/-! ## Jobs (R253) -/

/-- Samples of a chip: 16.0 MS/s at 100 kchip/s (R249). -/
def chipSamples : Nat := 160

/-- Samples of the longest window, which a bank keeps from job to job. -/
def windowKept : Nat := 512 * chipSamples

/-- A chirp job: a sample gap resets the bank's channels, and its samples are taken. -/
def planChirp (s : State) (w : Who) (j : Job) : State × JobPlan :=
  let raw := j.raw
  let e := j.tile
  let b := db raw 32 1
  let n := db raw 36 4
  let idx := db raw 40 8
  s.jobRead w (jobIn raw) (4 * n) fun s data =>
    let k := s.bankOf e b
    let gap := k.armed && k.expect.isSome && k.expect != some idx
    let s := if gap then (s.bankCount e b 0x3C 1).raise (pageAt .chirp e) 5 (engineInfo 5 b 0) else s
    let k := { k with
      expect := some ((idx + n) % 2 ^ 64), armed := true, tb := bits raw 264 3, t0 := db raw 48 8,
      start := k.taken, taken := k.taken + n, base := k.taken - min k.taken windowKept,
      buf := k.buf.drop (k.taken - min k.taken windowKept - k.base) ++ samplesOf data,
      ctl := s.pr .chirp e 0x080, written := 0, dropped := 0,
      ch := let t : Tbl ChirpCh := if gap then [] else k.ch
            t }
    (s.setBank e b k, .ready [] { status := 0, cause := 0, done := 1, failed := 0, summary := 0 })

/-- CHIRP_JOB (R253). -/
def execChirpJob (tile : Fin 2) (bank : Fin 4) (s : State) : Host.Outcome State Fault Refusal :=
  perform s fun s => s.runJob tile.val 5 bank.val (fun _ => true) planChirp

/-- The chirp job whose samples a bank takes now. -/
def State.bankJob (s : State) (e b : Nat) : Option Job :=
  match s.jobOn e 5 b with
  | some j => if j.res.any fun r => r.status == 0 then some j else none
  | none => none

/-! ## Windows (R249, R250, R254, R255) -/

/-- 10^(g / 40) with 64 fraction bits: the amplitude of a gain of g half decibels. -/
def gainFix (g : Nat) : Nat :=
  (List.range 72).reverse.foldl (fun r b => if (r + 2 ^ b) ^ 40 ≤ 2 ^ 2560 * 10 ^ g then r + 2 ^ b else r) 0

/-- One chip of channel `c` under a gain: its samples brought down from the channel's centre, (c - 64) × 125 kHz, filtered and
scaled to 16 bits. The manual gives no filter: its taps are free (log 18). -/
def chipOf (c g at_ : Nat) (x : List (Int × Int)) : Int × Int :=
  let z := x.zipIdx.foldl (fun (a : Int × Int) p =>
    let w := twiddle 128 ((192 - c) * (at_ + p.2) % 128)
    let h := Config.chirpTap p.2
    (a.1 + h * (p.1.1 * w.1 - p.1.2 * w.2), a.2 + h * (p.1.1 * w.2 + p.1.2 * w.1))) (0, 0)
  let out := fun (v : Int) => (sat16 (roundFix (roundFix v 300 * (gainFix g * 2 ^ 236 : Nat)) 300)).1
  (out z.1, out z.2)

/-- The chips of the window of `m` chips that starts at a position. -/
def ChirpBank.window (k : ChirpBank) (c g m start : Nat) : List (Int × Int) :=
  (List.range m).map fun n =>
    chipOf c g (start + chipSamples * n) ((k.buf.drop (start + chipSamples * n - k.base)).take chipSamples)

/-- Power of bin `k` of the transform of a window dechirped by conj(u), or by u (R250, R255). -/
def dechirpPower (m : Nat) (rising : Bool) (y : List (Int × Int)) (k : Nat) : Nat :=
  let z := y.zipIdx.foldl (fun (a : Int × Int) p =>
    let n : Int := p.2
    let q := n * n - n * m
    let w := twiddle (2 * m) (((if rising then -q else q) - 2 * k * n) % (2 * m : Nat)).toNat
    (a.1 + (p.1.1 * w.1 - p.1.2 * w.2), a.2 + (p.1.1 * w.2 + p.1.2 * w.1))) (0, 0)
  (z.1 * z.1 + z.2 * z.2).toNat

/-- The bin of the largest power; of equal ones the manual names none (log 18). -/
def peakBin (l : List Nat) : Nat :=
  let top := maxBy id l
  let at_ := (List.range l.length).filter fun i => nth 0 l i == top
  nth 0 at_ (Config.peakTie l % max 1 at_.length)

/-- The steps of 0.5 dB, at most 6 dB, that bring a mean power, of `num / den` in units of full scale, nearest to -15 dBFS
(R254). -/
def gainStep (num den : Nat) : Int :=
  ((List.range 24).filter fun i => num ^ 40 * 10 ^ (2 * i + 37) ≤ den ^ 40).length - 12

/-- What a window's chips say: slope and bin of the peak, its fractional part in 1/256 bin, the metric as a ratio, the samples
at full scale, and the step of the gain (R254, R255, R259). A window without power beside its peak states no metric. -/
def windowOf (m : Nat) (y : List (Int × Int)) : ChirpWin :=
  let up := (List.range m).map (dechirpPower m true y)
  let dn := (List.range m).map (dechirpPower m false y)
  let rising := decide (maxBy id dn < maxBy id up) || (maxBy id up == maxBy id dn && Config.peakTie (up ++ dn) % 2 == 0)
  let p := if rising then up else dn
  let k := peakBin p
  let rest := sumBy id p - nth 0 p k
  let full := fun (v : Int) => v == 32767 || v == -32768
  { rising := rising, peak := k,
    frac := clampInt (-128) 128 (Config.peakFrac (nth 0 p ((k + m - 1) % m)) (nth 0 p k) (nth 0 p ((k + 1) % m))),
    num := if rest = 0 then Config.chirpFlat m else nth 0 p k * (m - 1), den := if rest = 0 then 1 else rest,
    full := (y.filter fun v => full v.1 || full v.2).length,
    step := gainStep (sumBy (fun (v : Int × Int) => (v.1 * v.1 + v.2 * v.2).toNat) y) (m * 2 ^ 30) }

/-- Whether a window's metric, 10 log10 of its ratio, reaches a threshold in 0.25 dB. -/
def ChirpWin.reaches (w : ChirpWin) (t : Int) : Bool :=
  if 0 ≤ t then decide (10 ^ t.toNat * w.den ^ 40 ≤ w.num ^ 40) else decide (w.den ^ 40 ≤ w.num ^ 40 * 10 ^ (-t).toNat)

/-- Mean of the metrics of a detection's windows, rounded to 0.25 dB (R255). -/
def meanMetric (r : List ChirpWin) : Int :=
  let num := r.foldl (fun n w => n * w.num) 1
  let den := r.foldl (fun n w => n * w.den) 1
  ((List.range 1023).filter fun v => 10 ^ (r.length * (2 * v + 1)) * den ^ 80 ≤ num ^ 80).length

/-- The peak's position in 1/256 bin. -/
def ChirpWin.pos (w : ChirpWin) : Int := 256 * w.peak + w.frac

/-- A difference of positions around a circle of `n`, between -n/2 and n/2. -/
def around (n : Nat) (x : Int) : Int := (x + (n / 2 : Nat)) % (n : Int) - (n / 2 : Nat)

/-- A gain moved by a window's step (R254). -/
def moveGain (g : Nat) (step : Int) : Nat := (clampInt 0 127 (g + clampInt (-12) 12 step)).toNat

/-- Distance of two bins around a sweep. -/
def binGap (m a b : Nat) : Nat := min ((a + m - b % m) % m) ((b + m - a % m) % m)

/-- The windows M chips apart that end with the newest of those every quarter sweep (R255). -/
def quarterRun (n : Nat) (l : List ChirpWin) : List ChirpWin := (List.range n).filterMap fun i => l[4 * i]?

/-- Whether `n` windows, newest first, are a detection (R255). -/
def isDetection (m n : Nat) (thr : Int) (r : List ChirpWin) : Bool :=
  let near := fun (up : Bool) =>
    let l := (r.filter fun x => x.rising == up).map fun x => x.peak
    l.all fun a => l.all fun b => decide (binGap m a b ≤ 1)
  r.length == n && (r.all fun x => x.reaches thr) && near true && near false
    && (List.range (n - 1)).all fun i => (r[i]?.map fun x => x.rising) != (r[i + 1]?.map fun x => x.rising)

/-- The detection that a channel's windows end with at a position, if they do (R255). -/
def ChirpCh.detects (x : ChirpCh) (ctl cfg : Word) (at_ : Nat) : Option ChirpCand :=
  let n := 3 + fld cfg 4 3
  let r := quarterRun n x.run
  if isDetection (chips cfg) n (fld ctl 16 8) r then
    let peak := fun (up : Bool) => ((r.find? fun p => p.rising == up).map fun p => p.peak).getD 0
    some { d := meanMetric r, at_ := at_, up := peak true, dn := peak false }
  else none

/-- Whether two detections are of one transmission: a window that starts later sees the rising peak as many bins higher and the
falling one as many lower (R256). -/
def ChirpCand.same (m : Nat) (a b : ChirpCand) : Bool :=
  let sh := ((b.at_ : Int) - a.at_) / (chipSamples : Int)
  let bin := fun (x : Int) => (x % (m : Int)).toNat
  decide (binGap m b.up (bin (a.up + sh)) ≤ 1) && decide (binGap m b.dn (bin (a.dn - sh)) ≤ 1)

/-! ## Ends of a reception (R254, R257 to R259) -/

/-- Go over to a candidate: its gain is acquired over one window on its alignment and its sync searched for (R257). -/
def ChirpCh.toward (x : ChirpCh) (c : ChirpCand) (overlap : Bool) : ChirpCh :=
  { phase := .sync false, gain := x.gain, det := c, since := x.last.getD 0, overlap := overlap, origin := x.origin, last := x.last }

/-- The reception of a channel is over: a held candidate is adopted, else the detector re-arms (R258). -/
def State.endReception (s : State) (e b c : Nat) : State :=
  let x := s.chanOf e b c
  match x.cand with
  | some d => s.setChan e b c (x.toward d true)
  | none => s.setChan e b c { gain := x.gain, origin := x.origin, last := x.last }

/-- A false detection (R256, R258). -/
def State.falseDetection (s : State) (e b c : Nat) (timeout : Bool) : State :=
  let x := s.chanOf e b c
  let s := if timeout && x.overlap then s.bankCount e b 0x24 1 else s.bankCount e b 0x18 1
  (s.bankCount e b 0x24 x.expired).endReception e b c

/-- The 288-byte record of a packet (R262). -/
def chirpRecord (e b c status : Nat) (cfg : Word) (x : ChirpCh) (payload : List Byte) : List Byte :=
  leBytes 2 (128 * b + c + 512 * e) ++ leBytes 1 status ++ leBytes 1 x.len ++ leBytes 4 x.tStart
    ++ leBytes 2 (unsigned 16 x.det.d) ++ leBytes 1 x.gain ++ leBytes 1 (swo cfg + 16 * x.pspace) ++ leBytes 2 x.cfo
    ++ leBytes 1 x.pilots ++ leBytes 1 x.lost ++ List.replicate 16 0
    ++ payload ++ List.replicate (256 - payload.length) 0

/-- Write a record to the ring, or drop it (R262), and end the reception. `none` while the write waits. -/
def State.chirpEnd (s : State) (j : Job) (e b c status : Nat) (x : ChirpCh) (payload : List Byte) : Option State :=
  let cfg := s.chCfg e b c
  let tail := s.rg (bankReg e b 0x0C)
  let size := 2 ^ fld (s.rg (bankReg e b 0x08)) 0 5
  let k := s.bankOf e b
  if size ≤ (tail - s.rg (bankReg e b 0x10)).toNat then
    let s := (s.bankCount e b 0x38 1).raise (pageAt .chirp e) 4 (engineInfo 5 b c)
    some ((s.setBank e b { k with dropped := k.dropped + 1 }).endReception e b c)
  else
    let a := s.pair (bankReg e b 0) + tail.toNat % size * 288
    let (s', g) := s.gWrite (s.jobWho j b) (a % 2 ^ 64) (chirpRecord e b c status cfg x payload) false false
    match g with
    | .wait => none
    | .fail st => some ((s'.setJob e 5 b { j with res := some (endRes (if st = stAccess then 3 else st) 0) }).endReception e b c)
    | .ok _ =>
      let s' := s'.setRg (bankReg e b 0x0C) (tail + 1)
      let s' := if status = 0 then s'.bankCount e b 0x2C 1 else if status = 1 then s'.bankCount e b 0x30 1 else s'
      some ((s'.setBank e b { k with written := k.written + 1 }).endReception e b c)

/-! ## Symbols (R250 to R252) -/

/-- Binary value of a Gray code of up to 8 bits. -/
def unGray (g : Nat) : Nat := g ^^^ (g / 2) ^^^ (g / 4) ^^^ (g / 8) ^^^ (g / 16) ^^^ (g / 32) ^^^ (g / 64) ^^^ (g / 128)

/-- The cyclic shift that a window means, in 1/256 bin, after the correction of timing and frequency (R250, R256, R260). -/
def ChirpCh.shift (x : ChirpCh) (m : Nat) (w : ChirpWin) : Nat :=
  let p := w.pos - x.theta / 8
  ((if w.rising then p - x.upBase else x.dnBase - p) % (256 * m : Nat)).toNat

/-- The multiple of `u` nearest to a shift; of two that are equally near either. -/
def nearest (u sh : Nat) : Nat :=
  if 2 * (sh % u) = u then sh / u + bn (Config.symbolTie u sh) else (2 * sh + u) / (2 * u)

/-- The four bits of a header symbol (R250). -/
def ChirpCh.nibble (x : ChirpCh) (m : Nat) (w : ChirpWin) : Nat :=
  bn (!w.rising) * 8 + unGray (nearest (256 * m / 8) (x.shift m w) % 8)

/-- The SWO bits of a data symbol, most significant first (R250). -/
def ChirpCh.dataBits (x : ChirpCh) (o : Nat) (w : ChirpWin) : List Bool :=
  (!w.rising) :: natBits (o - 1) (unGray (nearest 512 (x.shift (2 ^ o) w) % 2 ^ (o - 1)))

/-- Data symbols of a payload (R251). -/
def dataSymbols (len o : Nat) : Nat := (8 * (len + 2) + o - 1) / o

/-! ## A window end (R255 to R261) -/

/-- Samples from a detection to the end of SYNC_WAIT windows. -/
def syncSpan (ctl cfg : Word) : Nat := fld ctl 4 4 * chipSamples * chips cfg

/-- Whether the sync is overdue: SYNC_WAIT windows have passed without its first (R256). -/
def ChirpCh.overdue (x : ChirpCh) (ctl cfg : Word) : Bool :=
  decide (x.phase = .sync false) && decide (x.det.at_ + syncSpan ctl cfg ≤ x.last.getD 0)

/-- Whether the held candidate has expired (R257). -/
def ChirpCh.expires (x : ChirpCh) (ctl cfg : Word) : Bool := x.cand.any fun c => decide (c.at_ + syncSpan ctl cfg ≤ x.last.getD 0)

/-- A sync timeout (R256). -/
def State.chirpTimeout (s : State) (e b c : Nat) : State :=
  if (s.chanOf e b c).overdue (s.bankOf e b).ctl (s.chCfg e b c) then s.falseDetection e b c true else s

/-- A held candidate's expiry (R257, R258): counted at once when the reception's header has passed, else with its end. -/
def State.chirpExpire (s : State) (e b c : Nat) : State :=
  let x := s.chanOf e b c
  if x.expires (s.bankOf e b).ctl (s.chCfg e b c) then
    let s := if x.headerOk then s.bankCount e b 0x28 1 else s
    s.setChan e b c { x with cand := none, expired := if x.headerOk then x.expired else x.expired + 1 }
  else s

/-- Search: the gain moves and a detection starts a reception (R254, R255). -/
def State.winSearch (s : State) (e b c : Nat) (ctl cfg : Word) (at_ : Nat) (w : ChirpWin) : State :=
  let x := s.chanOf e b c
  match x.detects ctl cfg at_ with
  | some d =>
    (s.bankCount e b 0x14 1).setChan e b c
      { phase := .sync false, gain := x.gain, frozen := true, det := d, since := at_, origin := x.origin, last := x.last }
  | none => s.setChan e b c { x with gain := moveGain x.gain w.step }

/-- The preamble and the sync give timing and frequency offset, the first chip's time and the correction (R256, R262): the mean
of their rising peaks is timing plus frequency, of their falling ones frequency less timing. -/
def ChirpCh.acquire (x : ChirpCh) (k : ChirpBank) (m : Nat) (w : ChirpWin) : ChirpCh :=
  let n := 256 * m
  let mean := fun (a b : Int) => a + around n (b - (n / 2 : Nat) - a) / 2
  let up := mean (256 * x.det.up) x.syncUp
  let dn := mean (256 * x.det.dn) w.pos
  let f := around n (up + dn) / 2
  let t := around n (up - f)
  let first : Int := (x.syncAt : Int) - (k.start : Int) - ((chipSamples * m : Nat) : Int) * 9
  { x with
    phase := .header [], upBase := up, dnBase := dn,
    cfo := unsigned 16 ((2 * f * 100000 + n) / (2 * n)),
    tStart := unsigned 32 ((k.t0 : Int) + first * 125 / 2 - t * 10000 / 256) }

/-- Whether a window is half a sweep from a peak, within one bin (R256). -/
def isSync (m peak k : Nat) : Bool := decide (binGap m k (peak + m / 2) ≤ 1)

/-- Sync: the rising window, then the falling one directly after it (R256). A channel whose gain is not frozen acquires it
over this window (R257). -/
def State.winSync (s : State) (e b c : Nat) (ctl cfg : Word) (at_ : Nat) (w : ChirpWin) (got : Bool) : State :=
  let x := s.chanOf e b c
  let m := chips cfg
  if !x.frozen then s.setChan e b c { x with gain := moveGain x.gain w.step, frozen := true }
  else if got && !w.rising && isSync m x.det.dn w.peak then s.setChan e b c (x.acquire (s.bankOf e b) m w)
  else if w.rising && isSync m x.det.up w.peak && decide (at_ < x.det.at_ + syncSpan ctl cfg + chipSamples * m) then
    s.setChan e b c { x with phase := .sync true, syncAt := at_, syncUp := w.pos }
  else s.setChan e b c { x with phase := .sync false }

/-- Header: the sixth symbol decides (R252, R256). -/
def State.winHeader (s : State) (e b c : Nat) (cfg : Word) (w : ChirpWin) (nib : List Nat) : State :=
  let x := s.chanOf e b c
  let l := nib ++ [x.nibble (chips cfg) w]
  if l.length < 6 then s.setChan e b c { x with phase := .header l }
  else
    let h := l.foldl (fun n d => 16 * n + d) 0
    let ok := crcBits 11 0x621 (natBits 13 (h / 2048)) == h % 2048 && decide (bits h 16 8 ≠ 0) && decide (bits h 11 2 = 0)
    if ok then
      (s.bankCount e b 0x28 x.expired).setChan e b c
        { x with phase := .payload [] 0, headerOk := true, expired := 0, len := bits h 16 8, whiten := bit h 15,
                 pspace := bits h 13 2 }
    else s.falseDetection e b c false

/-- The end of a payload: de-whitened, checked and recorded (R252, R262). -/
def State.payloadEnd (s : State) (j : Job) (e b c : Nat) (x : ChirpCh) (l : List Bool) : Option State :=
  let l := if x.whiten then (l.zip (gold (fld (s.chCfg e b c) 16 16) 0 l.length)).map fun p => p.1 != p.2 else l
  let ok := crcBits 16 0x1021 (l.take (8 * x.len)) == bitsNat ((l.drop (8 * x.len)).take 16)
  s.chirpEnd j e b c (if ok then 0 else 1) x (bytesOfBits (l.take (8 * x.len)))

/-- Payload: data symbols and pilots (R251, R260). `none` while a record waits to be written. -/
def State.winPayload (s : State) (j : Job) (e b c : Nat) (ctl cfg : Word) (w : ChirpWin) (l : List Bool) (k : Nat) :
    Option State :=
  let x := s.chanOf e b c
  let p := 8 * 2 ^ x.pspace
  if k % (p + 1) = p then
    let d := around (256 * chips cfg) (w.pos - x.theta / 8 - x.upBase)
    if w.rising ∧ d.natAbs ≤ 256 ∧ w.reaches ((fld ctl 16 8 : Int) - 24) then
      some (s.setChan e b c { x with phase := .payload l (k + 1), pilots := x.pilots + 1, lostRun := 0,
                                     theta := x.theta + d * 2 ^ (3 - fld ctl 13 2) })
    else
      let s := s.bankCount e b 0x34 1
      let x := { x with phase := .payload l (k + 1), pilots := x.pilots + 1, lost := x.lost + 1, lostRun := x.lostRun + 1 }
      if x.lostRun = 2 then s.chirpEnd j e b c 2 x [] else some (s.setChan e b c x)
  else
    let l := l ++ x.dataBits (swo cfg) w
    if dataSymbols x.len (swo cfg) * swo cfg ≤ l.length then s.payloadEnd j e b c x l
    else some (s.setChan e b c { x with phase := .payload l (k + 1) })

/-- The watch correlator (R257): a detection of its own on any quarter alignment, of neither the reception nor the candidate
held; the candidate with the highest D stays. -/
def State.winWatch (s : State) (e b c : Nat) (ctl cfg : Word) (at_ : Nat) : State :=
  let x := s.chanOf e b c
  let m := chips cfg
  match (x.detects ctl cfg at_).filter fun d => !x.det.same m d && !x.cand.any fun h => h.same m d with
  | none => s
  | some d =>
    (s.bankCount e b 0x14 1).setChan e b c
      { x with cand := match x.cand with
          | some h => if h.d < d.d then some d else some h
          | none => some d }

/-- The upstage test (R257, R261): not past a checked header, nor before a sync timeout that has come due. -/
def State.upstage (s : State) (e b c : Nat) (ctl cfg : Word) : State :=
  let x := s.chanOf e b c
  match x.cand with
  | some d =>
    if x.phase ≠ .search ∧ x.det.d + 4 * fld ctl 0 4 ≤ d.d ∧ !x.headerOk ∧ !x.overdue ctl cfg then
      (s.bankCount e b 0x1C 1).setChan e b c (x.toward d false)
    else s
  | none => s

/-- Whether a window that ends at a position is one of the reception's own: M chips apart from its detection, and begun
since. -/
def ChirpCh.mine (x : ChirpCh) (cfg : Word) (at_ : Nat) : Bool :=
  let n := chipSamples * chips cfg
  (at_ + n - x.det.at_ % n) % n == 0 && decide (x.since + n ≤ at_)

/-- The events of one window end in the order of R261; `none` while a record waits to be written. -/
def State.chirpWindow (s : State) (j : Job) (e b c at_ : Nat) (w : ChirpWin) : Option State :=
  let ctl := (s.bankOf e b).ctl
  let cfg := s.chCfg e b c
  let x := s.chanOf e b c
  let x := { x with last := some at_, run := (w :: x.run).take 32 }
  let s := s.setChan e b c x
  if x.frozen && decide (fld ctl 8 5 ≤ w.full) then
    some ((s.bankCount e b 0x20 1).setChan e b c { gain := x.gain, origin := x.origin, last := x.last })
  else if x.phase = .search then some (s.winSearch e b c ctl cfg at_ w)
  else
    let s := s.winWatch e b c ctl cfg at_
    let r := if !x.mine cfg at_ then some s
      else match x.phase with
        | .search => some s
        | .sync got => some (s.winSync e b c ctl cfg at_ w got)
        | .header l => some (s.winHeader e b c cfg w l)
        | .payload l k => s.winPayload j e b c ctl cfg w l k
    r.map fun s => s.upstage e b c ctl cfg

/-- Where the next window of a channel ends: a sweep after its first sample, and every quarter sweep from there (R255). -/
def ChirpCh.next (x : ChirpCh) (k : ChirpBank) (cfg : Word) : Nat :=
  let n := chipSamples * chips cfg
  match x.last with
  | some p => p + n / 4
  | none => x.origin.getD k.start + n

/-- The next window of a channel, once its samples have been taken; what came due at the window before goes first. `none` while
a record waits to be written. -/
def State.chirpStep (s : State) (j : Job) (e b c : Nat) : Option State :=
  let s := (s.chirpTimeout e b c).chirpExpire e b c
  let cfg := s.chCfg e b c
  let k := s.bankOf e b
  let x := s.chanOf e b c
  let at_ := x.next k cfg
  if fld cfg 0 1 = 0 ∨ k.taken < at_ then some s
  else s.chirpWindow j e b c at_ (windowOf (chips cfg) (k.window c x.gain (chips cfg) (at_ - chipSamples * chips cfg)))

/-- CHIRP_WINDOW_END (R255 to R261). -/
def execChirpWindowEnd (tile : Fin 2) (bank : Fin 4) (ch : Fin 128) (s : State) : Host.Outcome State Fault Refusal :=
  perform s fun s =>
    match s.bankJob tile.val bank.val with
    | some j => (s.chirpStep j tile.val bank.val ch.val).getD s
    | none => s

/-- CHIRP_SYNC_TIMEOUT (R256): SYNC_WAIT windows have passed without the sync's first. -/
def execChirpSyncTimeout (tile : Fin 2) (bank : Fin 4) (ch : Fin 128) (s : State) : Host.Outcome State Fault Refusal :=
  perform s fun s => s.chirpTimeout tile.val bank.val ch.val

/-- CHIRP_CANDIDATE_EXPIRE (R257, R258). -/
def execChirpCandidateExpire (tile : Fin 2) (bank : Fin 4) (ch : Fin 128) (s : State) : Host.Outcome State Fault Refusal :=
  perform s fun s => s.chirpExpire tile.val bank.val ch.val

/-- The windows of a channel that end within the samples taken, as many as `n`; whether all are over. -/
def State.chirpRest (s : State) (j : Job) (e b c : Nat) : Nat → State × Bool
  | 0 => (s, true)
  | n + 1 =>
    if fld (s.chCfg e b c) 0 1 = 0 ∨ (s.bankOf e b).taken < (s.chanOf e b c).next (s.bankOf e b) (s.chCfg e b c) then (s, true)
    else match s.chirpStep j e b c with
      | some s => State.chirpRest s j e b c n
      | none => (s, false)

/-- The windows that end within a bank's job are over before its status is written (R262); whether they are. -/
def State.chirpAll (s : State) (e b : Nat) : State × Bool :=
  match s.bankJob e b with
  | none => (s, true)
  | some j =>
    let k := s.bankOf e b
    (List.range 128).foldl (fun (a : State × Bool) c =>
      let (s, ok) := a.1.chirpRest j e b c ((k.taken - k.base) / (8 * chipSamples) + 1)
      (s, a.2 && ok)) (s, true)

/-- ACCEL_JOB_COMPLETE (R236): a chirp job's windows end first (R262). -/
def execAccelJobComplete (tile : Fin 2) (cls : Fin 6) (eng : Fin 32) (cycles : BitVec 32) (s : State) :
    Host.Outcome State Fault Refusal :=
  perform s fun s =>
    let (s, ended) := if cls.val = 5 then s.chirpAll tile.val eng.val else (s, true)
    if ended then s.endJob tile.val cls.val eng.val cycles.toNat else s

/-- A write of a channel's `CH_CFG` (R265, R266): a field's ignored values keep what it holds, and the channel starts
afresh. A bank that passes from no channel enabled to one takes its next job as its first (R253). -/
def State.writeChCfg (s : State) (e b c : Nat) (v : Word) : State :=
  let a := pageAddr .chirp e + 0x800 + 4 * (128 * b + c)
  let old := s.rg a
  let was := s.bankOn e b
  let v := if 4 < fld v 1 3 then setFld v 1 3 (fld old 1 3) else v
  let v := if 5 < fld v 4 3 then setFld v 4 3 (fld old 4 3) else v
  let s := (s.storeAt a v).setChan e b c { origin := (s.chanOf e b c).last }
  if !was && s.bankOn e b then s.setBank e b { s.bankOf e b with armed := false } else s

/-- CH_CFG_WRITE (R265). -/
def execChCfgWrite (tile : Fin 2) (bank : Fin 4) (ch : Fin 128) (val : BitVec 32) (s : State) :
    Host.Outcome State Fault Refusal :=
  perform s fun s => s.writeChCfg tile.val bank.val ch.val val

end Sys2Proof.Machine
end

