-- ==== Sys2Proof/Machine/Eth.lean ====
section
/-! DEFINITION. Fronthaul Ethernet and its traffic manager (R268 to R289), and the PTP frames of R304 to R306. -/

namespace Sys2Proof.Machine

/-! ## Sub-ports (R268, R269) -/

/-- Offset in an ETH page of a sub-port's counter. -/
def spOff (sp off : Nat) : Nat := 0x100 + 0x40 * sp + off

/-- Sub-ports under MODE. -/
def State.subPorts (s : State) (p : Nat) : Nat :=
  match fld (s.pr .eth p 0x040) 0 2 with
  | 0 => 1
  | 1 => 2
  | _ => 4

/-- Rate of a sub-port in Mb/s. -/
def State.spRate (s : State) (p : Nat) : Nat := 400000 / s.subPorts p

/-- Whether a sub-port exists and is enabled. -/
def State.spOn (s : State) (p sp : Nat) : Bool := decide (sp < s.subPorts p) && fld (s.pr .eth p 0x040) (4 + sp) 1 == 1

/-- Whether a sub-port carries frames. -/
def State.spUp (s : State) (p sp : Nat) : Bool := s.spOn p sp && fld (s.pr .eth p 0x044) sp 1 == 1

/-- Set or clear LINK_UP and FEC_LOCK of a sub-port. -/
def State.spLink (s : State) (p sp : Nat) (up : Bool) : State :=
  let r := s.pr .eth p 0x044
  s.setPr .eth p 0x044 (setFld (setFld r sp 1 (bn up)) (4 + sp) 1 (bn up))

/-- `PG_ERR_INFO` of an ETH source (R289). -/
def ethInfo (sp q : Nat) : Word := BitVec.ofNat 32 (sp + 16 * q)

/-- A sub-port loses its link (R289). -/
def State.spLost (s : State) (p sp : Nat) : State := (s.spLink p sp false).raise (pageAt .eth p) 1 (ethInfo sp 0)

/-- A write of `ETH_CTRL`: MODE only while every SP_EN is 0 (R269), its reserved code loses the field alone. -/
def State.writeEthCtrl (s : State) (p : Nat) (v : Word) : State :=
  let a := pageAddr .eth p + 0x040
  let old := s.rg a
  let takes := decide (fld old 4 4 = 0) && decide (fld v 0 2 ≠ 3)
  let v := if takes then v else setFld v 0 2 (fld old 0 2)
  let s := s.storeAt a v
  if takes then s.setPr .eth p 0x044 (BitVec.ofNat 32 256)
  else (List.range 4).foldl (fun s sp => if fld v (4 + sp) 1 = 0 then s.spLink p sp false else s) s

/-- ETH_MODE_WRITE (R269). -/
def execEthModeWrite (port : Fin 16) (val : BitVec 32) (s : State) : Host.Outcome State Fault Refusal :=
  perform s fun s => s.writeEthCtrl port.val val

/-- ETH_LINK_UP (R269): training is complete. -/
def execEthLinkUp (port : Fin 16) (sp : Fin 4) (s : State) : Host.Outcome State Fault Refusal :=
  perform s fun s =>
    if s.spOn port.val sp.val && !(s.ethOf port.val).refLost then
      let s := s.spLink port.val sp.val true
      s.setPr .eth port.val 0x044 (setFld (s.pr .eth port.val 0x044) 8 1 0)
    else s

/-- ETH_LINK_LOST (R289). -/
def execEthLinkLost (port : Fin 16) (sp : Fin 4) (s : State) : Host.Outcome State Fault Refusal :=
  perform s fun s => if s.spUp port.val sp.val then s.spLost port.val sp.val else s

/-- REFCLK_ETH_LOST (R456): the tile's sub-ports are held down, and each raises 0x3001. -/
def execRefclkEthLost (tile : Fin 2) (s : State) : Host.Outcome State Fault Refusal :=
  perform s fun s =>
    if !s.boot.ready then s
    else
      (List.range 8).foldl (fun s i =>
        let p := 8 * tile.val + i
        if (s.ethOf p).refLost then s
        else
          let s := s.setEth p { s.ethOf p with refLost := true }
          (List.range (s.subPorts p)).foldl (fun s sp => s.spLost p sp) s) s

/-- REFCLK_ETH_RETURN (R456): the sub-ports retrain. -/
def execRefclkEthReturn (tile : Fin 2) (s : State) : Host.Outcome State Fault Refusal :=
  perform s fun s =>
    (List.range 8).foldl (fun s i =>
      let p := 8 * tile.val + i
      if (s.ethOf p).refLost then
        (s.setEth p { s.ethOf p with refLost := false }).setPr .eth p 0x044 (BitVec.ofNat 32 256)
      else s) s

/-! ## Frames -/

/-- Big-endian field of a frame. -/
def nb (l : List Byte) (off n : Nat) : Nat := beNat ((l.drop off).take n)

/-- Tag control field of a frame's VLAN tag, if it has one (R270). -/
def vlanOf (f : List Byte) : Option Nat := if nb f 12 2 = 0x8100 then some (nb f 14 2) else none

/-- Offset of a frame's EtherType. -/
def etOff (f : List Byte) : Nat := if (vlanOf f).isSome then 16 else 12

/-- EtherType of a frame. -/
def etherType (f : List Byte) : Nat := nb f (etOff f) 2

/-- Where the PTP message of a frame lies, and the UDP header before it with its destination port, if any (R271). -/
def ptpAt (f : List Byte) : Option (Nat × Option (Nat × Nat)) :=
  let o := etOff f + 2
  let udp := fun u => if nb f (u + 2) 2 = 319 ∨ nb f (u + 2) 2 = 320 then some (u + 8, some (u, nb f (u + 2) 2)) else none
  match etherType f with
  | 0x88F7 => some (o, none)
  | 0x0800 => if nb f (o + 9) 1 = 17 then udp (o + 4 * (nb f o 1 % 16)) else none
  | 0x86DD => if nb f (o + 6) 1 = 17 then udp (o + 40) else none
  | _ => none

/-- Base of a PTP message's domain (R304). -/
def State.ptpBase (s : State) (domain : Nat) : Nat :=
  match (List.range 8).find? fun k =>
      let d := s.pr .time 0 (0x810 + 4 * k)
      fld d 0 1 == 1 && fld d 8 8 == domain with
  | some k => fld (s.pr .time 0 (0x810 + 4 * k)) 1 3
  | none => fld (s.pr .time 0 0x800) 0 3

/-- A received PTP frame, without its FCS, goes to the PTP ring (R304). -/
def State.ptpIn (s : State) (p sp : Nat) (f : List Byte) : State :=
  match ptpAt f with
  | none => s
  | some (o, _) =>
    let size := s.pr .time 0 0x848
    let tail := s.pr .time 0 0x84C
    let b := s.ptpBase (nb f (o + 4) 1)
    if fld size 8 1 = 0 then s
    else if 2 ^ fld size 0 5 ≤ (tail - s.pr .time 0 0x850).toNat then s.raise (pageAt .time 0) 6 (BitVec.ofNat 32 b)
    else
      let t := (s.baseOn (4 + p / 8) b).shifted (signed 16 (s.pr .eth p 0x048).toNat)
      let r := leBytes 1 p ++ leBytes 1 sp ++ leBytes 1 b ++ [0] ++ leBytes 6 t.1 ++ [0, 0] ++ leBytes 4 t.2.1
        ++ leBytes 4 t.2.2 ++ leBytes 2 f.length ++ List.replicate 42 0
      let a := s.pair (pageAddr .time 0 + 0x840) + tail.toNat % 2 ^ fld size 0 5 * 2048
      let w : Who := { v := 0, org := 8200, x := 0, item := 0, task := 0 }
      let (s', g) := s.gWrite w (a % 2 ^ 64) (r ++ f.take 1984) false false
      match g with
      | .ok _ => s'.setPr .time 0 0x84C (tail + 1)
      | .wait => s
      | .fail _ => s'

/-- PTP_FRAME_RECEIVE (R304). -/
def execPtpFrameReceive (port : Fin 16) (sp : Fin 4) (frame : List (BitVec 8)) (s : State) :
    Host.Outcome State Fault Refusal :=
  perform s fun s =>
    if s.spUp port.val sp.val && decide (64 ≤ frame.length) && decide (frame.length ≤ 9216) && (ptpAt frame).isSome then
      let s := s.bump64 .eth port.val (spOff sp.val 0x00) 1
      let s := s.bump64 .eth port.val (spOff sp.val 0x08) frame.length
      s.ptpIn port.val sp.val (frame.take (frame.length - 4))
    else s

/-! ## eCPRI (R272, R273) -/

/-- Whether a frame is eCPRI. -/
def isEcpri (f : List Byte) : Bool := etherType f == 0xAEFE

/-- Offset of the eCPRI header. -/
def ecOff (f : List Byte) : Nat := etOff f + 2

/-- Message type, eAxC ID and first byte of ecpriSeqid. -/
def ecMsg (f : List Byte) : Nat := nb f (ecOff f + 1) 1
def ecEaxc (f : List Byte) : Nat := nb f (ecOff f + 4) 2
def ecSeq (f : List Byte) : Nat := nb f (ecOff f + 6) 1

/-- Revision 1 and no concatenation (R272). -/
def ecPlain (f : List Byte) : Bool := nb f (ecOff f) 1 / 16 == 1 && nb f (ecOff f) 1 % 2 == 0

/-- The samples of one PRB: its width and method, from its bytes. -/
def prbSamples (w meth : Nat) (b : List Byte) : List Byte :=
  let e := if meth = 1 then nb b 0 1 % 16 else 0
  let l := bitsOfBytes (b.drop meth)
  (List.range 24).flatMap fun i =>
    leBytes 2 (unsigned 16 (sat16 (signed w (bitsNat ((l.drop (w * i)).take w)) * 2 ^ e)).1)

/-- Whether udCompHdr is one that the device decompresses, and its width. -/
def compOk (iq meth : Nat) : Bool :=
  (meth == 0 && iq == 0) || (meth == 1 && [8, 9, 12, 14].contains iq)

/-- Bytes of a PRB on the wire. -/
def prbBytes (iq meth : Nat) : Nat := if meth = 0 then 48 else 1 + 3 * iq

/-- The sections of a U-plane message: what is written out, and their number; `none` when they do not parse. -/
def sectionsOf (nprb : Nat) : Nat → List Byte → Option (List Byte × Nat)
  | _, [] => some ([], 0)
  | 0, _ => none
  | fuel + 1, l =>
    if l.length < 6 then none
    else
      let h := nb l 0 6
      let iq := bits h 12 4
      let meth := bits h 8 4
      let n := if bits h 16 8 = 0 then nprb else bits h 16 8
      let k := prbBytes iq meth
      if !compOk iq meth || decide (l.length < 6 + n * k) then none
      else
        let body := (List.range n).flatMap fun i => prbSamples (if iq = 0 then 16 else iq) meth ((l.drop (6 + k * i)).take k)
        match sectionsOf nprb fuel (l.drop (6 + n * k)) with
        | none => none
        | some (rest, c) =>
          some (leBytes 2 (bits h 36 12) ++ leBytes 2 (bits h 24 10) ++ leBytes 2 n
            ++ leBytes 1 (bits h 35 1 + 2 * bits h 34 1 + 16 * iq) ++ leBytes 1 meth ++ body ++ rest, c + 1)

/-- What a queue with DECOMP writes of a frame: status, payload, sections (R273, R280). -/
def deliverable (nprb : Nat) (decomp : Bool) (f : List Byte) : Nat × List Byte × Nat :=
  if !isEcpri f then (1, f, 0)
  else if !ecPlain f then (3, f, 0)
  else if !decomp || ecMsg f != 0 then (1, f, 0)
  else
    let o := ecOff f + 4
    let n := nb f (ecOff f + 2) 2
    if n < 8 ∨ f.length < o + n ∨ nb f (o + 4) 1 / 16 % 8 ≠ 1 then (2, f, 0)
    else
      let body := (f.drop (o + 8)).take (n - 8)
      match sectionsOf nprb body.length body with
      | some (l, c) => (0, l, c)
      | none => (2, f, 0)

/-! ## Classification (R275, R276) -/

/-- Address of word `w` of a classification entry. -/
def classReg (p i w : Nat) : Nat := pageAddr .eth p + 0x800 + 0x10 * i + 4 * w

/-- Whether an entry matches a frame of a sub-port. -/
def State.classMatch (s : State) (p sp : Nat) (f : List Byte) (i : Nat) : Bool :=
  let w0 := s.rg (classReg p i 0)
  let w1 := s.rg (classReg p i 1)
  let any := fld w0 26 1 == 1
  fld w0 0 1 == 1 && (fld w0 1 1 == 1 || fld w0 2 2 == sp)
    && (match fld w0 4 2 with
      | 0 => true
      | 1 => (vlanOf f).isNone
      | 2 => (vlanOf f).any fun t => t % 4096 == fld w0 6 12
      | _ => false)
    && (if isEcpri f then
          (any || fld w0 18 8 == ecMsg f) && ((ecEaxc f ^^^ fld w1 0 16) &&& fld w1 16 16) == 0
        else any && fld w1 16 16 == 0)

/-- A write of a classification word: words 1 to 3 are staged, word 0 commits all four (R276). -/
def State.writeClass (s : State) (p i w : Nat) (v : Word) : State :=
  let x := s.ethOf p
  if w = 0 then
    let s := [1, 2, 3].foldl (fun s w => match Tbl.look x.staged (4 * i + w) with
      | some u => s.storeAt (classReg p i w) u
      | none => s) (s.storeAt (classReg p i 0) v)
    s.setEth p { s.ethOf p with staged := x.staged.filter fun e => e.1 / 4 != i }
  else s.setEth p { x with staged := Tbl.put x.staged (4 * i + w) v }

/-- CLASS_ENTRY_COMMIT (R276). -/
def execClassEntryCommit (port : Fin 16) (entry : Fin 128) (val : BitVec 32) (s : State) :
    Host.Outcome State Fault Refusal :=
  perform s fun s => s.writeClass port.val entry.val 0 val

/-! ## Meters (R277, R278) -/

/-- Register `off` of a meter. -/
def meterReg (p m off : Nat) : Nat := pageAddr .tmgr p + 0x800 + 0x20 * m + off

/-- A meter's buckets. -/
def State.meterOf (s : State) (p m : Nat) : MeterSt := Tbl.get {} (s.ethOf p).meters m

/-- Replace a meter's buckets. -/
def State.setMeter (s : State) (p m : Nat) (x : MeterSt) : State :=
  s.setEth p { s.ethOf p with meters := Tbl.set {} (s.ethOf p).meters m x }

/-- The buckets at a time: tokens in 1/8,000 byte, one Mb/s giving one each ns (RFC 2697, RFC 2698). -/
def MeterSt.fill (x : MeterSt) (two : Bool) (cir cbs pir xbs now : Nat) : MeterSt :=
  let dt := now - x.last
  if two then { c := min (cbs * 8000) (x.c + cir * dt), e := min (xbs * 8000) (x.e + pir * dt), last := now }
  else
    let c := x.c + cir * dt
    let spare := c - cbs * 8000
    { c := min (cbs * 8000) c, e := min (xbs * 8000) (x.e + spare), last := now }

/-- The colour of a frame of `b` tokens, and the buckets after it; `yellow` is the colour it enters with. -/
def MeterSt.colour (x : MeterSt) (two yellow : Bool) (b : Nat) : Nat × MeterSt :=
  if two then
    if x.e < b then (2, x)
    else if yellow || decide (x.c < b) then (1, { x with e := x.e - b })
    else (0, { x with e := x.e - b, c := x.c - b })
  else if !yellow && decide (b ≤ x.c) then (0, { x with c := x.c - b })
  else if b ≤ x.e then (1, { x with e := x.e - b })
  else (2, x)

/-- The five registers of a meter. -/
def State.meterRegs (s : State) (p m : Nat) : List Word := (List.range 5).map fun i => s.rg (meterReg p m (4 * i))

/-- The meter as a write of the tick that runs found it. -/
def State.meterBefore (s : State) (p m : Nat) : Option MeterOld :=
  (Tbl.get none (s.ethOf p).meterOld m).filter fun o => o.clk == s.time.clk

/-- Meter a frame of `len` bytes: its colour, and whether it passes; in the tick of a write to the meter, by what the write
found (R277, R278). A disabled meter passes it as green. -/
def State.police (s : State) (p m : Nat) (f : List Byte) (len : Nat) : State × Nat × Bool :=
  let old := s.meterBefore p m
  let reg := match old with
    | some o => fun (i : Nat) => nth 0 o.regs i
    | none => fun i => s.rg (meterReg p m (4 * i))
  let ctl := reg 0
  let count := fun (s : State) c => s.setRg (meterReg p m (0x14 + 4 * c)) (satAdd (s.rg (meterReg p m (0x14 + 4 * c))) 1)
  if fld ctl 0 1 = 0 then (count s 0, 0, true)
  else
    let two := fld ctl 1 1 == 1
    let yellow := fld ctl 2 1 == 1 && (vlanOf f).any fun t => bit t 12 || fld ctl (8 + t / 8192) 1 == 1
    let x : MeterSt := match old with
      | some o => o.buckets
      | none => s.meterOf p m
    let x := x.fill two (reg 1).toNat (reg 2).toNat (reg 3).toNat (reg 4).toNat s.time.clk
    let (c, x) := x.colour two yellow ((len + fld (s.pr .tmgr p 0x040) 16 5) * 8000)
    let s := match old with
      | some o => s.setEth p { s.ethOf p with meterOld := Tbl.set none (s.ethOf p).meterOld m (some { o with buckets := x }) }
      | none => s.setMeter p m x
    (count s c, c, fld ctl (3 + c) 1 == 0)

/-- A write of a meter's registers: the frames of its tick use the old configuration, and its buckets are refilled (R278). -/
def State.writeMeter (s : State) (p m r : Nat) (v : Word) : State :=
  let old := (s.meterBefore p m).getD { clk := s.time.clk, regs := s.meterRegs p m, buckets := s.meterOf p m }
  let s := s.storeAt (meterReg p m (4 * r)) v
  let s := s.setEth p { s.ethOf p with meterOld := Tbl.set none (s.ethOf p).meterOld m (some old) }
  s.setMeter p m { c := (s.rg (meterReg p m 8)).toNat * 8000, e := (s.rg (meterReg p m 0x10)).toNat * 8000, last := s.time.clk }

/-- METER_CONFIG_WRITE (R278). -/
def execMeterConfigWrite (port : Fin 16) (meter : Fin 64) (reg : Fin 5) (val : BitVec 32) (s : State) :
    Host.Outcome State Fault Refusal :=
  perform s fun s => s.writeMeter port.val meter.val reg.val val

/-! ## Reception (R270, R271, R279) -/

/-- Register `off` of a receive queue. -/
def rxqReg (p q off : Nat) : Nat := pageAddr .eth p + 0x200 + 0x40 * q + off

/-- A frame for its queue goes into the port's buffer, unless the queue is off or the buffer full (R279). -/
def State.buffer (s : State) (p : Nat) (r : RxFrame) : State :=
  let x := s.ethOf p
  if fld (s.rg (rxqReg p r.queue 0)) 0 1 = 0 then s
  else if 2 ^ 20 < sumBy (fun (r : RxFrame) => r.bytes.length + 4) x.buf + r.bytes.length + 4 then
    (s.bump .eth p (spOff r.sp 0x2C) 1).raise (pageAt .eth p) 4 (ethInfo r.sp r.queue)
  else s.setEth p { x with buf := x.buf ++ [r] }

/-- A frame that the MAC has accepted, without its FCS: classified, and put before its meter or its queue. -/
def State.classify (s : State) (p sp : Nat) (f : List Byte) : State :=
  let hit := (List.range 128).find? fun i => s.classMatch p sp f i
  let s := if hit.isNone then s.bump .eth p (spOff sp 0x28) 1 else s
  let w2 := match hit with
    | some i => s.rg (classReg p i 2)
    | none => 0
  let q := if hit.isSome then fld w2 0 4 else fld (s.pr .eth p 0x040) 8 5
  if 16 ≤ q then s
  else
    let adj := signed 16 (s.pr .eth p 0x048).toNat
    let r : RxFrame := {
      sp := sp, queue := q, tb := fld w2 11 3, yellow := false,
      times := (List.range 8).map fun b => stampNs ((s.baseOn (4 + p / 8) b).shifted adj),
      eaxc := (if isEcpri f then ecEaxc f else 0), msg := (if isEcpri f then ecMsg f else 0xFF), bytes := f }
    if fld w2 10 1 = 1 then s.setEth p { s.ethOf p with metering := (s.ethOf p).metering ++ [(fld w2 4 6, r)] }
    else s.buffer p r

/-- The frames of one tick pass their meters, lower sub-ports first (R278). -/
def State.meterFrames (s : State) (p : Nat) : State :=
  if (s.ethOf p).metering.isEmpty then s
  else
    let l := (s.ethOf p).metering
    let s := s.setEth p { s.ethOf p with metering := [] }
    ((List.range 4).flatMap fun sp => l.filter fun x => x.2.sp == sp).foldl (fun s x =>
      let (s, c, pass) := s.police p x.1 x.2.bytes (x.2.bytes.length + 4)
      if pass then s.buffer p { x.2 with yellow := decide (c = 1) } else s) s

/-- The sub-port's FEC has corrected `corr` codewords and failed on `bad` (R286, R289). -/
def State.fecCount (s : State) (p sp corr bad : Nat) : State :=
  let s := (s.bump .eth p (spOff sp 0x30) corr).bump .eth p (spOff sp 0x34) bad
  if bad = 0 then s else s.raise (pageAt .eth p) 2 (ethInfo sp 0)

/-- FRAME_RECEIVE (R270): `fecCorr` and `fecBad` are the FEC codewords that were corrected and that could not be since the
sub-port's frame before; a frame of a lost codeword fails its FCS. -/
def execFrameReceive (port : Fin 16) (sp : Fin 4) (frame : List (BitVec 8)) (fcsOk : Bool) (fecCorr fecBad : BitVec 8)
    (s : State) : Host.Outcome State Fault Refusal :=
  perform s fun s =>
    let p := port.val
    let k := sp.val
    if !s.spUp p k then s
    else
      let s := s.fecCount p k fecCorr.toNat fecBad.toNat
      if !fcsOk || decide (frame.length < 64) || decide (9216 < frame.length) then s.bump .eth p (spOff k 0x20) 1
      else if etherType frame = 0x8808 then s.bump .eth p (spOff k 0x24) 1
      else
        let s := (s.bump64 .eth p (spOff k 0x00) 1).bump64 .eth p (spOff k 0x08) frame.length
        let f := frame.take (frame.length - 4)
        if (ptpAt f).isSome then s.ptpIn p k f else s.classify p k f

/-- Whether the current scene serves a queue's access to `n` bytes at a global address (R160, R279, R285): a radio queue's as
its partition's, an open queue's as open work, on every crossing and channel between the port's tile and the memory. -/
def State.mayCross (s : State) (p ga n : Nat) (write radio : Bool) (part : Nat) : Bool :=
  let owner := if radio then part else 0x10
  match s.place 0 ga with
  | .hbm off => s.mayReach owner (4 + p / 8) off n write
  | .host _ => s.mayRoute owner (4 + p / 8) 4 write
  | _ => true

/-- Address of the slot that a receive queue fills next. -/
def State.rxSlot (s : State) (p q : Nat) : Nat :=
  let size := s.rg (rxqReg p q 0x0C)
  (s.pair (rxqReg p q 4) + (s.rg (rxqReg p q 0x10)).toNat % 2 ^ fld size 0 5 * 2 ^ fld size 8 4) % 2 ^ 64

/-- Whether a buffered frame may be delivered in the current scene. -/
def State.rxMay (s : State) (p : Nat) (f : RxFrame) : Bool :=
  let c := s.rg (rxqReg p f.queue 0)
  s.mayCross p (s.rxSlot p f.queue) (64 + f.bytes.length) true (fld c 3 1 == 1) (fld c 4 4)

/-- The receive record and payload of a frame, and whether it has a sequence gap (R280). -/
def State.rxRecord (s : State) (p : Nat) (f : RxFrame) : List Byte × Bool :=
  let q := f.queue
  let c := s.rg (rxqReg p q 0)
  let (st, pay, secs) := deliverable (fld (s.rg (rxqReg p q 0x18)) 0 9) (fld c 1 1 == 1) f.bytes
  let room := 2 ^ fld (s.rg (rxqReg p q 0x0C)) 8 4 - 64
  -- a record that is not OK holds the frame (R280)
  let (st, pay, secs) := if room < pay.length then (4, f.bytes.take room, 0) else (st, pay, secs)
  let ec := isEcpri f.bytes
  let sq := if ec then ecSeq f.bytes else 0
  let gap := ec && match Tbl.get none (s.ethOf p).lastSeq q with
    | some l => (l + 1) % 256 != sq
    | none => false
  let uh := if ec && ecMsg f.bytes == 0 && ecPlain f.bytes then (f.bytes.drop (ecOff f.bytes + 8)).take 4 else []
  (leBytes 1 st ++ leBytes 1 (f.sp + 4 * bn f.yellow + 8 * bn gap + 16 * f.tb) ++ leBytes 2 (f.bytes.length + 4)
    ++ leBytes 4 (nth 0 f.times f.tb) ++ leBytes 2 f.eaxc ++ leBytes 1 f.msg ++ leBytes 1 secs ++ leBytes 2 pay.length
    ++ leBytes 1 sq ++ [0] ++ uh ++ List.replicate (4 - uh.length) 0 ++ List.replicate 44 0 ++ pay, gap)

/-- Line 4 of the core that a receive queue names (R222, R279). -/
def State.rxIrq (s : State) (c : Word) : State :=
  let g := s.part (fld c 4 4)
  if fld c 2 1 = 1 ∧ g.valid ∧ g.dsp.getLsbD (fld c 16 7) then
    match s.physCore (g.tile * 128 + fld c 16 7) with
    | some k => s.raiseIrq k 4
    | none => s
  else s

/-- Deliver the first buffered frame whose scenes have come (R279). -/
def State.rxDeliver (s : State) (p : Nat) : State :=
  let x := s.ethOf p
  match findFrom (fun f => s.rxMay p f) x.buf 0 with
  | none => s
  | some i =>
    match x.buf[i]? with
    | none => s
    | some f =>
      let q := f.queue
      let c := s.rg (rxqReg p q 0)
      let gone := fun (s : State) => s.setEth p { s.ethOf p with buf := x.buf.eraseIdx i }
      let tail := s.rg (rxqReg p q 0x10)
      if fld c 0 1 = 0 then gone s
      else if (tail - s.rg (rxqReg p q 0x14)).toNat = 2 ^ fld (s.rg (rxqReg p q 0x0C)) 0 5 then
        (gone s).bump .eth p (spOff f.sp 0x38) 1
      else
        let (rec_, gap) := s.rxRecord p f
        let w : Who := { v := fld c 8 8, org := 8000 + p, x := 0, item := 0, task := 0 }
        let (s', g) := s.gWrite w (s.rxSlot p q) rec_ false false
        match g with
        | .wait => s
        | .fail _ => (gone s').raise (pageAt .eth p) 3 (ethInfo f.sp q)
        | .ok _ =>
          let s := (gone s').setRg (rxqReg p q 0x10) (tail + 1)
          let s := if gap then s.setRg (rxqReg p q 0x1C) (satAdd (s.rg (rxqReg p q 0x1C)) 1) else s
          let x := s.ethOf p
          let s := if isEcpri f.bytes then
            s.setEth p { x with lastSeq := Tbl.set none x.lastSeq q (some (ecSeq f.bytes)) } else s
          s.rxIrq c

/-- RX_FRAME_DELIVER (R279). -/
def execRxFrameDeliver (port : Fin 16) (s : State) : Host.Outcome State Fault Refusal :=
  perform s fun s => (s.meterFrames port.val).rxDeliver port.val

/-! ## Transmission (R274, R281 to R285) -/

/-- TXQ_DOORBELL (R281). -/
def execTxqDoorbell (port : Fin 16) (q : Fin 32) (val : BitVec 32) (s : State) : Host.Outcome State Fault Refusal :=
  perform s fun s => s.writeTxTail port.val q.val val

/-- Exponent and mantissas of a compressed PRB of 24 values; how many saturated. -/
def compressPrb (w : Nat) (v : List Int) : Nat × List Int × Nat :=
  let lo : Int := -(2 ^ (w - 1) : Nat)
  let hi : Int := (2 ^ (w - 1) : Nat) - 1
  let fits := fun e => v.all fun x => decide (lo ≤ cround x e) && decide (cround x e ≤ hi)
  let e := (least fits 16).getD 15
  let m := v.map fun x => cround x e
  (e, m.map (clampInt lo hi), (m.filter fun x => !(decide (lo ≤ x) && decide (x ≤ hi))).length)

/-- The frame that a COMP descriptor's bytes leave as, and the mantissas saturated; `none` when they are malformed. -/
def compressFrame (f : List Byte) : Option (List Byte × Nat) :=
  let o := ecOff f + 4
  let h := nb f (o + 8) 6
  let iq := bits h 12 4
  let meth := bits h 8 4
  let body := f.drop (o + 14)
  let n := if bits h 16 8 = 0 then body.length / 48 else bits h 16 8
  if f.length < o + 14 ∨ !compOk iq meth ∨ body.length ≠ 48 * n then none
  else if meth = 0 then some (f, 0)
  else
    let prbs := (List.range n).map fun i =>
      compressPrb iq ((List.range 24).map fun k => signed 16 (leNat ((body.drop (48 * i + 2 * k)).take 2)))
    let out := prbs.flatMap fun r =>
      leBytes 1 r.1 ++ bytesOfBits (r.2.1.flatMap fun m => natBits iq (unsigned iq m))
    some (f.take (ecOff f + 2) ++ beBytes 2 (14 + out.length) ++ (f.drop (ecOff f + 4)).take 14 ++ out,
      sumBy (fun (r : Nat × List Int × Nat) => r.2.2) prbs)

/-- Serialisation time of a frame in ns, its FCS included. -/
def State.serial (s : State) (p n : Nat) : Nat := ((n + 4) * 8000 + s.spRate p - 1) / s.spRate p

/-- `TXQ_CTRL` of a queue. -/
def State.txCtl (s : State) (p q : Nat) : Word := s.rg (txqReg p q 0)

/-- Whether a transmit queue runs: enabled, on a sub-port present under MODE (R288). -/
def State.txOn (s : State) (p q : Nat) : Bool := fld (s.txCtl p q) 0 1 == 1 && decide (fld (s.txCtl p q) 4 2 < s.subPorts p)

/-- Signed difference of a 32-bit time of a queue's base from now (R282). -/
def State.ahead (s : State) (p q t : Nat) : Int := signed 32 (t + 2 ^ 32 - s.ts32On (4 + p / 8) (fld (s.txCtl p q) 8 3))

/-- Address of a descriptor. -/
def State.txDesc (s : State) (p q idx : Nat) : Nat :=
  (s.pair (txqReg p q 4) + idx % 2 ^ fld (s.rg (txqReg p q 0x0C)) 0 5 * 32) % 2 ^ 64

/-- Who accesses for a transmit queue. -/
def State.txWho (s : State) (p q : Nat) : Who :=
  { v := fld (s.txCtl p q) 16 8, org := 8100 + p, x := 0, item := 0, task := 0 }

/-- End a frame: STATUS and T_TX written, `TXQ_HEAD` advanced, counters (R281, R282). `none` while the write waits. -/
def State.txEnd (s : State) (p : Nat) (f : TxFrame) (st tTx : Nat) : Option State :=
  let w := s.txWho p f.queue
  let a := s.txDesc p f.queue f.idx
  let (s, g) := s.gWrite w (a + 11) (leBytes 1 st) false false
  let (s, g') := s.gWrite w (a + 20) (leBytes 4 tTx) false false
  if g = .wait ∨ g' = .wait then none
  else
    let info := BitVec.ofNat 32 f.queue
    let s := match g with
      | .fail _ => s.raise (pageAt .tmgr p) 2 info
      | _ => s
    let s := s.setRg (txqReg p f.queue 0x14) (BitVec.ofNat 32 (f.idx + 1))
    let x := s.ethOf p
    let s := s.setEth p { x with fetched := x.fetched.filter fun y => !(y.queue == f.queue && y.idx == f.idx) }
    some (if st = 2 then (s.bump .tmgr p 0x044 1).raise (pageAt .tmgr p) 1 info
      else if st = 3 then s.bump .tmgr p 0x04C 1 else s)

/-- The fetched frame at a queue's head. -/
def State.txHead (s : State) (p q : Nat) : Option TxFrame :=
  (s.ethOf p).fetched.find? fun f => f.queue == q && BitVec.ofNat 32 f.idx == s.rg (txqReg p q 0x14)

/-- End the frames at a queue's head that cannot be sent. -/
def State.txSettle (s : State) (p q : Nat) : Nat → State
  | 0 => s
  | fuel + 1 =>
    match s.txHead p q with
    | some f =>
      if f.status = 0 then s
      else match ({ s with free := s.free + 1 } : State).txEnd p f f.status (Config.freeWord s.free).toNat with
        | some s => State.txSettle s p q fuel
        | none => s
    | none => s

/-- Keep a fetched frame. -/
def State.txKeep (s : State) (p : Nat) (f : TxFrame) : State :=
  let s := s.forget (8100 + p)
  (s.setEth p { s.ethOf p with fetched := (s.ethOf p).fetched ++ [f] }).txSettle p f.queue 4

/-- Whether a queue's descriptor has been fetched and not ended. -/
def EthSt.has (x : EthSt) (q idx : Nat) : Bool :=
  x.fetched.any (fun f => f.queue == q && f.idx == idx) || x.onWire.any fun e => e.2.any fun f => f.queue == q && f.idx == idx

/-- Fetch the frame of one descriptor of a queue if it is due (R285), and whether the queue's fetch ends with it. -/
def State.txFetchOne (s : State) (p q idx : Nat) : State × Bool :=
  let c := s.txCtl p q
  let head := s.rg (txqReg p q 0x14)
  let da := s.txDesc p q idx
  let radio := fld c 6 1 == 1
  let may := fun (s : State) ga n => s.mayCross p ga n false radio (fld c 12 4)
  if !may s da 32 then (s, true)
  else
    let w := s.txWho p q
    let (s', g) := s.gRead w da 32 false
    match g with
    | .wait => (s', true)
    | .fail _ => ((s'.forget w.org).raise (pageAt .tmgr p) 2 (BitVec.ofNat 32 q), true)
    | .ok d =>
      let win := bit (nb d 10 1) 0
      let comp := bit (nb d 10 1) 1
      let len := leNat ((d.drop 8).take 2)
      let t0 := leNat ((d.drop 12).take 4)
      let t1 := leNat ((d.drop 16).take 4)
      let ga := leNat (d.take 8)
      let due := if win then decide (s.ahead p q t0 ≤ 1000 * fld (s.pr .tmgr p 0x040) 24 8) else decide (idx = head.toNat)
      let f : TxFrame := { queue := q, idx := idx, bytes := [], win := win, winStart := t0, winEnd := t1,
                           tsReq := bit (nb d 10 1) 2, status := 0 }
      if !due then (s', false)
      else if len < 60 ∨ (if comp then 16384 else 9212) < len then (s'.txKeep p { f with status := 3 }, true)
      else if !may s' ga len then (s', false)
      else
        let (s', g) := s'.gRead w ga len false
        match g with
        | .wait => (s', false)
        | .fail st =>
          let s' := if st = stAccess then s'.raise (pageAt .tmgr p) 2 (BitVec.ofNat 32 q) else s'
          (s'.txKeep p { f with status := 4 }, true)
        | .ok b =>
          match (if comp then compressFrame b else some (b, 0)) with
          | none => (s'.txKeep p { f with status := 3 }, true)
          | some (b, sat) =>
            let bad := decide (9216 < b.length + 4) || (win && decide (signed 32 (t1 + 2 ^ 32 - t0) < s.serial p b.length))
            (s'.txKeep p { f with bytes := b, sat := sat, status := if bad then 3 else 0 }, true)

/-- Fetch the first of `n` descriptors from `idx` on that is due: a frame at the head, or a windowed frame anywhere (R285). -/
def State.txScan (s : State) (p q : Nat) : Nat → Word → State
  | 0, _ => s
  | n + 1, idx =>
    if (s.ethOf p).has q idx.toNat then State.txScan s p q n (idx + 1)
    else
      let (s, done) := s.txFetchOne p q idx.toNat
      if done then s else State.txScan s p q n (idx + 1)

/-- Fetch a frame of a queue (R285). -/
def State.txFetch (s : State) (p q : Nat) : State :=
  let head := s.rg (txqReg p q 0x14)
  if s.txOn p q then s.txScan p q (min (s.rg (txqReg p q 0x10) - head).toNat 65536) head else s

/-- TX_FRAME_FETCH (R285). -/
def execTxFrameFetch (port : Fin 16) (q : Fin 32) (s : State) : Host.Outcome State Fault Refusal :=
  perform s fun s => s.txFetch port.val q.val

/-- First wheel slot of 32 ns at or after E, in ns (R283). -/
def slotStart (e : Nat) : Nat := (e + 32 * 256 - 1) / (32 * 256) * 32

/-- Whether a head frame is eligible (R283), and leaves before the windowed frames that are fetched (R284). -/
def State.txEligible (s : State) (p sp : Nat) (f : TxFrame) : Bool :=
  let rate := (s.rg (txqReg p f.queue 0x18)).toNat
  let ser := s.serial p f.bytes.length
  (rate == 0 || decide (slotStart (Tbl.get 0 (s.ethOf p).e f.queue) ≤ s.time.clk))
    && (!f.win || decide (s.ahead p f.queue f.winStart ≤ 0))
    && (f.win || fld (s.pr .tmgr p 0x040) 0 1 == 0 || (s.ethOf p).fetched.all fun g =>
          !(g.win && g.status == 0 && fld (s.txCtl p g.queue) 4 2 == sp) || decide ((ser : Int) < s.ahead p g.queue g.winStart))

/-- Rank of a head frame: lower goes first (R284). -/
def State.txRank (s : State) (p sp : Nat) (f : TxFrame) : List Int :=
  [(if f.win then 0 else 1 : Int), (if f.win then s.ahead p f.queue f.winEnd else 0), -(fld (s.txCtl p f.queue) 1 3 : Int),
   ((f.queue + 31 - Tbl.get 31 (s.ethOf p).rr sp) % 32 : Nat)]

/-- The frame that a free sub-port starts. -/
def State.txPick (s : State) (p sp : Nat) : Option TxFrame :=
  let heads := (List.range 32).filterMap fun q =>
    if s.txOn p q && fld (s.txCtl p q) 4 2 == sp then
      (s.txHead p q).filter fun f => f.status == 0 && s.txEligible p sp f
    else none
  heads.foldl (fun b f => match b with
    | none => some f
    | some g => if lexLt (s.txRank p sp f) (s.txRank p sp g) then some f else some g) none

/-- One's complement sum of the 16-bit words of bytes. -/
def onesSum (l : List Byte) : Nat := sumBy (fun w => beNat (w ++ List.replicate (2 - w.length) 0)) (pieces 2 (l.length + 1) l)

/-- An internet checksum updated incrementally for bytes that change (RFC 1624). -/
def updateSum (hc : Nat) (old new : List Byte) : Nat :=
  let words := (old.length + 1) / 2
  let x := (0xFFFF - hc) + (0xFFFF * words - onesSum old) + onesSum new
  let fold := fun x => x / 65536 + x % 65536
  0xFFFF - fold (fold (fold x))

/-- Replace bytes of a frame from an offset. -/
def patch (f : List Byte) (o : Nat) (l : List Byte) : List Byte := f.take o ++ l ++ f.drop (o + l.length)

/-- The one-step rewrite of a departing Sync message (R305); T is its departure in each base. -/
def State.oneStep (s : State) (p : Nat) (f : List Byte) (t : List (Nat × Nat × Nat)) : List Byte :=
  match ptpAt f with
  | none => f
  | some (o, udp) =>
    let port := match udp with
      | some (_, d) => d
      | none => 319
    if fld (s.pr .time 0 0x800) (16 + p) 1 = 0 ∨ nb f o 1 % 16 ≠ 0 ∨ bit (nb f (o + 6) 1) 1 ∨ port ≠ 319 then f
    else
      let d := nth (0, 0, 0) t (s.ptpBase (nb f (o + 4) 1))
      let cf := (nb f (o + 8) 8 + d.2.2 / 65536) % 2 ^ 64
      let g := patch (patch f (o + 8) (beBytes 8 cf)) (o + 34) (beBytes 6 d.1 ++ beBytes 4 d.2.1)
      match udp with
      | none => g
      | some (u, _) =>
        let hc := nb f (u + 6) 2
        if hc = 0 ∧ etherType f = 0x0800 then g
        else patch g (u + 6) (beBytes 2 (updateSum hc ((f.drop o).take 44) ((g.drop o).take 44)))

/-- A free sub-port starts a frame, ending those that come too late on the way (R282, R284). -/
def State.txStart (s : State) (p sp : Nat) : Nat → State
  | 0 => s
  | fuel + 1 =>
    let s := (List.range 32).foldl (fun s q => s.txSettle p q 4) s
    match s.txPick p sp with
    | none => s
    | some f =>
      if f.win && decide (s.ahead p f.queue f.winEnd < s.serial p f.bytes.length) then
        match ({ s with free := s.free + 1 } : State).txEnd p f 2 (Config.freeWord s.free).toNat with
        | some s => State.txStart s p sp fuel
        | none => s
      else
        let t := (List.range 8).map fun b => (s.baseOn (4 + p / 8) b).shifted (signed 16 (s.pr .eth p 0x04C).toNat)
        let out := s.oneStep p f.bytes t
        let s := s.bump .tmgr p 0x048 f.sat
        let x := s.ethOf p
        let s := s.setEth p { x with
          fetched := x.fetched.filter fun y => !(y.queue == f.queue && y.idx == f.idx),
          onWire := Tbl.set none x.onWire sp (some { f with clk := s.time.clk, stamp := t }),
          rr := Tbl.set 31 x.rr sp f.queue }
        { s with out := .frame p sp (out ++ leBytes 4 (fcsOf out).toNat) :: s.out }

/-- TX_FRAME_START (R284). -/
def execTxFrameStart (port : Fin 16) (sp : Fin 4) (s : State) : Host.Outcome State Fault Refusal :=
  perform s fun s =>
    if s.spUp port.val sp.val && (Tbl.get none (s.ethOf port.val).onWire sp.val).isNone then s.txStart port.val sp.val 64
    else s

/-- The two-step FIFO takes a departed frame's times (R306). -/
def State.txStamp (s : State) (p : Nat) (f : TxFrame) : State :=
  if !f.tsReq then s
  else
    let b := match ptpAt f.bytes with
      | some (o, _) => s.ptpBase (nb f.bytes (o + 4) 1)
      | none => fld (s.txCtl p f.queue) 8 3
    let t := nth (0, 0, 0) f.stamp b
    if 64 ≤ s.time.txts.length then s.raise (pageAt .time 0) 5 (BitVec.ofNat 32 b)
    else { s with time := { s.time with
      txts := s.time.txts ++ [{ port := p, queue := f.queue, idx := f.idx, base := b, sec := t.1, ns := t.2.1, frac := t.2.2 }],
      txUsed := true } }

/-- A frame has left a sub-port: status, shaper, head, two-step entry (R281, R283, R306). -/
def State.txDone (s : State) (p sp : Nat) : State :=
  match Tbl.get none (s.ethOf p).onWire sp with
  | none => s
  | some f =>
    let q := f.queue
    let tTx := stampNs (nth (0, 0, 0) f.stamp (fld (s.txCtl p q) 8 3))
    match s.txEnd p f 1 tTx with
    | none => s
    | some s =>
      let x := s.ethOf p
      let rate := (s.rg (txqReg p q 0x18)).toNat
      let n := f.bytes.length
      let oh := fld (s.pr .tmgr p 0x040) 8 8
      let cost := ((n + 4 + oh) * 8000 * 256 + rate - 1) / rate
      let e := if rate = 0 then x.e
        else Tbl.upd 0 x.e q fun e => max e (256 * (f.clk - (s.rg (txqReg p q 0x1C)).toNat)) + cost
      let s := s.setEth p { x with onWire := Tbl.set none x.onWire sp none, e := e }
      let s := (s.bump64 .eth p (spOff sp 0x10) 1).bump64 .eth p (spOff sp 0x18) (n + 4)
      s.txStamp p f

/-- TX_FRAME_COMPLETE (R281). -/
def execTxFrameComplete (port : Fin 16) (sp : Fin 4) (s : State) : Host.Outcome State Fault Refusal :=
  perform s fun s => s.txDone port.val sp.val

end Sys2Proof.Machine
end

