-- ==== Sys2Proof/Machine/Tenants.lean ====
section
/-! DEFINITION. Tenant partitions: grants, the function states and their commands, strikes, mailboxes and the PCIe ports
(R374 to R389, R392 to R395, R436, R446). -/

namespace Sys2Proof.Machine

/-! ## What a function holds, and the registers that show it (R379, R392, R393) -/

/-- The function that `VF_SEL` names. -/
def State.vfSel (s : State) : Nat := fld (s.pr .host 0 0x044) 0 8

/-- Extents owned by a function. -/
def State.extsOf (s : State) (v : Nat) : List Nat :=
  (s.hst.exts.filter fun (p : Nat × Option (Nat × Bool)) => match p.2 with
    | some (o, _) => o == v
    | none => false).map (·.1)

/-- Sum of a function's queue limits, and of all functions' (R149, R379). -/
def State.qlimSum (s : State) (v : Nat) : Nat := sumBy (fun q => s.qlimit v q) (List.range 16)
def State.qlimTotal (s : State) : Nat := sumBy (fun (p : Nat × Fn) => sumBy (·.2) p.2.qlim) s.hst.fns

/-- Queue capacity there is (R149). -/
def qlimPool : Nat := 262144

/-- Extents of the grantable window (R379). -/
def extPool : Nat := 12256

/-- Code of a function state (R382). -/
def FnState.code : FnState → Nat
  | .dark => 0
  | .setting => 1
  | .live => 2
  | .intermission => 3
  | .striking => 4

/-- HOST_STAT as it reads (R392). -/
def State.readHostStat (s : State) : Word :=
  BitVec.ofNat 32 (bn (Tbl.get false s.hst.linkUp 0) + 2 * bn (Tbl.get false s.hst.linkUp 1)
    + 256 * ((s.hst.fns.filter fun (p : Nat × Fn) => p.1 != 0 && decide (p.2.st = .live)).length % 256))

/-- VF_CMD_STAT as it reads: BUSY while a freeze, a save or a strike of the selected function goes on (R392). -/
def State.readVfCmdStat (s : State) : Word :=
  let f := s.fnOf s.vfSel
  setFld (s.pr .host 0 0x04C) 4 1 (bn (f.freezing || decide (f.st = .striking) || f.saved != 0))

/-- POOL_EXT and POOL_QLIM as they read. -/
def State.readPoolExt (s : State) : Word := BitVec.ofNat 32 (extPool - s.hst.exts.length)
def State.readPoolQlim (s : State) : Word := BitVec.ofNat 32 (qlimPool - s.qlimTotal)

/-- GR_STATE of a function. -/
def State.readGrState (s : State) (v : Nat) : Word :=
  BitVec.ofNat 32 ((s.fnOf v).st.code + 8 * bn (s.fnOf v).setPend)

/-- The grant window's registers at an offset of the HOST page, 0x080 to 0x0E0, for function `v` (R392). -/
def State.readGrant (s : State) (v off : Nat) : Word :=
  let f := s.fnOf v
  if off = 0x080 then s.readGrState v
  else if off = 0x084 then f.gen
  else if off = 0x088 then BitVec.ofNat 32 f.fpid.toNat
  else if off = 0x08C then BitVec.ofNat 32 (bn f.port)
  else if off < 0x0A0 then BitVec.ofNat 32 (f.cl.toNat / 2 ^ (32 * ((off - 0x090) / 4)))
  else if off < 0x0E0 then BitVec.ofNat 32 (s.qlimit v ((off - 0x0A0) / 4))
  else BitVec.ofNat 32 (s.extsOf v).length

/-- Register word `i` of a partition's grant: PT_FUNC, PT_ACC0, PT_ACC1, PT_DSP0 to PT_DSP3. -/
def PartGrant.word (g : PartGrant) (i : Nat) : Word :=
  match i with
  | 0 => BitVec.ofNat 32 (g.func + 256 * bn g.valid + 512 * g.tile)
  | 1 => g.acc0
  | 2 => g.acc1
  | n => BitVec.ofNat 32 (g.dsp.toNat / 2 ^ (32 * (n - 3)))

/-- A partition's grant with register word `i` written. -/
def PartGrant.withWord (g : PartGrant) (i : Nat) (v : Word) : PartGrant :=
  match i with
  | 0 => { g with func := fld v 0 8, valid := fld v 8 1 == 1, tile := fld v 9 1 }
  | 1 => { g with acc0 := v }
  | 2 => { g with acc1 := BitVec.ofNat 32 (fld v 0 16) }
  | n =>
    let sh := 32 * (n - 3)
    { g with dsp := (g.dsp &&& ~~~(BitVec.ofNat 128 ((2 ^ 32 - 1) * 2 ^ sh))) ||| BitVec.ofNat 128 (v.toNat * 2 ^ sh) }

/-- VF_RES of a function (R393). -/
def State.readVfRes (s : State) (v : Nat) : Word :=
  BitVec.ofNat 32 (count (s.hasCl v) 128 % 256 + 256 * ((s.extsOf v).length % 2 ^ 14) + 2 ^ 24 * (s.partsOf v).length)

/-- A queue register as it reads (R119): ACTIVE, CQ_FULL, Q_DEPTH and Q_LIMIT are the queue's own. -/
def State.readQueue (s : State) (v q off : Nat) : Word :=
  let r := s.rg (qreg v q off)
  if off = 4 then
    let held := !(s.heldOf v q).isEmpty
    let active := fld (s.rg (qreg v q 0)) 0 1 == 1 || s.qDepth v q != 0 || held
    setFld (setFld r 0 1 (bn active)) 3 1 (bn (held && s.cqFull v q))
  else if off = 0x1C then BitVec.ofNat 32 (s.qDepth v q % 65536)
  else if off = 0x34 then BitVec.ofNat 32 (s.qlimit v q)
  else r

/-! ## Writing grants (R379, R380, R392) -/

/-- Store the result of `VF_CMD` and of grant writes. -/
def State.vfResult (s : State) (n : Nat) : State := s.setPr .host 0 0x04C (BitVec.ofNat 32 n)

/-- Results of VF_CMD_STAT. -/
def resDone : Nat := 0
def resPending : Nat := 1
def resState : Nat := 2
def resGrant : Nat := 3
def resPool : Nat := 4
def resRadio : Nat := 5
def resImage : Nat := 6
def resFit : Nat := 7

/-- Whether a function takes grants (R380): while SETTING, the PF always. -/
def State.takesGrants (s : State) (v : Nat) : Bool := v == 0 || decide ((s.fnOf v).st = .setting)

/-- Write a word of the clusters granted. A bit without a logical cluster breaks the table's limit; the PF only adds. -/
def State.grantCl (s : State) (v q : Nat) (w : Word) : State :=
  let f := s.fnOf v
  if 2 ^ activePerQuarter s.sec.variant ≤ w.toNat then s.vfResult resPool
  else
    let m := BitVec.ofNat 128 ((2 ^ 32 - 1) * 2 ^ (32 * q))
    let new := (f.cl &&& ~~~m) ||| BitVec.ofNat 128 (w.toNat * 2 ^ (32 * q))
    if v = 0 ∧ f.cl &&& ~~~new ≠ 0 then s else s.setFn v { f with cl := new }

/-- Write a queue limit: the sum over all functions and queues stays within the pool; the PF only adds. -/
def State.grantQlim (s : State) (v q n : Nat) : State :=
  let f := s.fnOf v
  let old := s.qlimit v q
  if v = 0 ∧ n < old then s
  else if qlimPool < s.qlimTotal - old + n then s.vfResult resPool
  else s.setFn v { f with qlim := Tbl.set 0 f.qlim q n }

/-- Write a register of the grant window for the selected function (R392); ignored outside SETTING. -/
def State.writeGrant (s : State) (off : Nat) (w : Word) : State :=
  let v := s.vfSel
  let f := s.fnOf v
  if !s.takesGrants v then s
  else if off = 0x088 then s.setFn v { f with fpid := BitVec.ofNat 16 (fld w 0 16) }
  else if off = 0x08C then s.setFn v { f with port := fld w 0 1 == 1 }
  else if 0x090 ≤ off ∧ off < 0x0A0 then s.grantCl v ((off - 0x090) / 4) w
  else if 0x0A0 ≤ off ∧ off < 0x0E0 then s.grantQlim v ((off - 0x0A0) / 4) (fld w 0 19)
  else s

/-- Engines of a class of a tile that the partitions satisfying `p` hold. -/
def State.engineSum (s : State) (e k : Nat) (p : Nat → Bool) : Nat :=
  sumBy (fun x => if p x && (s.part x).valid && (s.part x).tile == e then (s.part x).engines k else 0) (List.range 16)

/-- Whether a partition's grant would be within R379: engines in service, and no core of another partition of its tile. -/
def State.partFits (s : State) (p : Nat) (g : PartGrant) : Bool :=
  ((List.range 6).all fun k => decide (g.engines k + s.engineSum g.tile k (· != p) ≤ s.enginesOn g.tile k))
    && (List.range 16).all fun x => x == p || !(s.part x).valid || (s.part x).tile != g.tile || decide ((s.part x).dsp &&& g.dsp = 0)

/-- Whether a partition's new grant only adds to the old one, of the same function and tile. -/
def PartGrant.adds (new old : PartGrant) : Bool :=
  new.func == old.func && new.tile == old.tile && new.valid && decide (old.dsp &&& ~~~new.dsp = 0)
    && (List.range 6).all fun k => decide (old.engines k ≤ new.engines k)

/-- The function that a partition's grant names. -/
def PartGrant.holder (g : PartGrant) : Option Nat := if g.valid then some g.func else none

/-- New engine grants of partitions: retirements made earlier count no more against them (R238; log 17). -/
def State.regrant (s : State) (yes : Bool) (p : Nat → Bool) : State :=
  if yes then { s with acc := s.acc.map fun a => (a.1, { a.2 with lost := a.2.lost.filter fun x => !p (x.1 / 8) }) } else s

/-- Write word `i` of partition `p`'s grant (R379, R380, R392): taken only while the function named before or after is
SETTING; a partition held goes to nobody else by a write. -/
def State.writePart (s : State) (p i : Nat) (w : Word) : State :=
  let old := s.part p
  let new := old.withWord i w
  if !(old.holder.any s.takesGrants || new.holder.any s.takesGrants) then s
  else if old.holder.isSome && old.holder != new.holder then s.vfResult resPool
  else if old.holder = some 0 && !new.adds old then s
  else if !s.partFits p new then s.vfResult resPool
  else ({ s with hst := { s.hst with parts := Tbl.set {} s.hst.parts p new } } : State).regrant (decide (old.tile ≠ new.tile) ||
    decide (old.acc0 ≠ new.acc0) || decide (old.acc1 ≠ new.acc1)) (· == p)

/-- EXT_DATA as it reads at the extent that EXT_ADDR names (R392). -/
def State.extWord (s : State) : Word :=
  match s.extent (fld (s.pr .host 0 0x068) 0 14) with
  | some (o, ok) => BitVec.ofNat 32 (o + 256 + 512 * bn ok)
  | none => 0

/-- EXT_ADDR moves to the next extent. -/
def State.extNext (s : State) : State :=
  s.setPr .host 0 0x068 (BitVec.ofNat 32 ((fld (s.pr .host 0 0x068) 0 14 + 1) % 2 ^ 14))

/-- Read EXT_DATA. -/
def State.readExtData (s : State) : State := (s.answer s.extWord).extNext

/-- Write EXT_DATA: the selected function becomes the owner of a free extent, or sets SPEC_OK of its own. -/
def State.writeExtData (s : State) (w : Word) : State :=
  let e := fld (s.pr .host 0 0x068) 0 14
  let v := s.vfSel
  let s := s.extNext
  if !s.takesGrants v then s
  else if extPool ≤ e then s.vfResult resPool
  else
    let own := { s with hst := { s.hst with exts := Tbl.set none s.hst.exts e (some (v, fld w 9 1 == 1)) } }
    match s.extent e with
    | some (o, _) => if o ≠ v then s.vfResult resPool else if v = 0 then s else own
    | none => own

/-- EXT_DATA_ACCESS (R392). -/
def execExtDataAccess (write : Bool) (val : BitVec 32) (s : State) : Host.Outcome State Fault Refusal :=
  perform s fun s => if write then s.writeExtData val else s.readExtData

/-! ## Function states (R382 to R385) -/

/-- SET (R382, R384). -/
def State.vfSet (s : State) (v : Nat) : State :=
  let f := s.fnOf v
  if v = 0 then s.vfResult resState
  else match f.st with
    | .dark => (s.setFnState v .setting).vfResult resDone
    | .striking => (s.setFn v { f with setPend := true }).vfResult resPending
    | _ => s.vfResult resState

/-- SET (R382). -/
def execSet (s : State) : Host.Outcome State Fault Refusal := perform s fun s => s.vfSet s.vfSel

/-- Whether the grants of a function meet R379 when it goes LIVE. -/
def State.grantsOk (s : State) (v : Nat) : Bool :=
  decide (s.qlimTotal ≤ qlimPool)
    && (s.partsOf v).all fun p => (List.range 6).all fun k =>
      decide (s.engineSum (s.part p).tile k (fun _ => true) ≤ s.enginesOn (s.part p).tile k)

/-- GO (R382): with every check of R379 met, and a cluster or partition granted. -/
def State.vfGo (s : State) (v : Nat) : State :=
  let f := s.fnOf v
  if v = 0 ∨ f.st ≠ .setting then s.vfResult resState
  else if !s.grantsOk v then s.vfResult resPool
  else if f.cl = 0 ∧ (s.partsOf v).isEmpty then s.vfResult resGrant
  else (s.setFnState v .live).vfResult resDone

/-- GO (R382). -/
def execGo (s : State) : Host.Outcome State Fault Refusal := perform s fun s => s.vfGo s.vfSel

/-- What still drains of a function's preempted streams is over (R383). -/
def State.dropDrains (s : State) (v : Nat) : State :=
  (List.range 144).foldl (fun s k => match (s.clOf (300 + k)).placed with
    | some (i, _) =>
      if (s.itemOf i).any fun (it : Item) => it.fn == v then (s.setCl (300 + k) {}).setSeq (300 + k) {} else s
    | none => s) s

/-- The movers of a function's cluster tasks complete the transfers in progress, as far as nothing makes them wait (R383). -/
def State.endMovers (s : State) (v : Nat) : State :=
  (List.range 144 ++ (List.range 144).map (· + 300)).foldl (fun s k => match (s.clOf k).placed with
    | some (i, _) =>
      if (s.itemOf i).any fun (it : Item) => it.fn == v then
        (List.finRange 4).foldl (fun s m => match s.fifoOf k (.mover m) with
          | d :: _ => if 0 < d.k0 ∧ !d.ran then (s.transfer k (.mover m) (s.clWho k (.mover m) d.x) d).1 else s
          | [] => s) s
      else s
    | none => s) s

/-- A strike begins (R383): doorbells are ignored, mailboxes emptied, every unreleased item returned. -/
def State.strikeFn (s : State) (v : Nat) : State :=
  let s := s.setFn v { s.fnOf v with mb := {}, freezing := false, wiping := false, wiped := false }
  (((s.endMovers v).setFnState v .striking).dropDrains v).returnFn v

/-- Whether a strike takes hold of a function: SETTING, LIVE or INTERMISSION. -/
def State.strikable (s : State) (v : Nat) : Bool :=
  let x := (s.fnOf v).st
  v != 0 && (decide (x = .setting) || decide (x = .live) || decide (x = .intermission))

/-- STRIKE (R383). -/
def State.vfStrike (s : State) (v : Nat) : State :=
  if s.strikable v then (s.strikeFn v).vfResult resDone else s.vfResult resState

/-- STRIKE (R383). -/
def execStrike (s : State) : Host.Outcome State Fault Refusal := perform s fun s => s.vfStrike s.vfSel

/-- A strike that no command asked for (R378). -/
def State.strikeEvent (s : State) (v : Nat) : State := if s.strikable v then s.strikeFn v else s

/-- Release the queues of a function (R378, R383): completions held are discarded, the queue registers but `Q_SEQ` return to
reset. -/
def State.resetQueues (s : State) (v : Nat) : State :=
  (List.range 16).foldl (fun s q =>
    let s := (s.heldOf v q).foldl (fun s c => (s.dropItem v q c.seqNo).discardGen v) s
    let s := s.newQStretch v q
    (List.range 14).foldl (fun s k => s.setRg (qreg v q (4 * k)) (regReset (qreg v q (4 * k)))) s) s

/-- The generation after `g` (R386): never 0. -/
def nextGen (g : BitVec 32) : BitVec 32 := if g = BitVec.allOnes 32 then 1 else g + 1

/-- VF_FLR (R378). -/
def execVfFlr (v : Fin 256) (s : State) : Host.Outcome State Fault Refusal := perform s fun s => s.strikeEvent v.val

/-- Every VF that is not DARK is struck. -/
def State.strikeAll (s : State) : State := (List.range 256).foldl State.strikeEvent s

/-- PF_FLR (R378). -/
def execPfFlr (s : State) : Host.Outcome State Fault Refusal :=
  perform s fun s =>
    let s := ((s.strikeAll.dropDrains 0).returnFn 0).resetQueues 0
    s.setFn 0 { s.fnOf 0 with gen := nextGen (s.fnOf 0).gen }

/-- VF_ENABLE_CLEAR (R378). -/
def execVfEnableClear (s : State) : Host.Outcome State Fault Refusal := perform s State.strikeAll

/-- Whether every request of a function has been acknowledged: those that carry its tag. -/
def State.fnAcked (s : State) (v : Nat) : Bool :=
  s.fab.src.all fun (p : Nat × PairSrc) => p.2.unacked.all fun u => match u.req.tag with
    | some t => t.fn.toNat != v
    | none => true

/-- Whether an item is of a function. -/
def State.itemIsOf (s : State) (i v : Nat) : Bool := (s.itemOf i).any fun it => it.fn == v

/-- Whether no accelerator job and no DSP data mover of a function is in progress (R227, R237, R383). -/
def State.fnIdle (s : State) (v : Nat) : Bool :=
  s.acc.all (fun a => a.2.run.all fun q => q.2.fn != v) && s.dsp.all fun c => c.2.fn != v || c.2.moverRun.isNone

/-- STRIKE_QUIESCED (R383): no work of the function is left, and the wipe may start. -/
def execStrikeQuiesced (v : Fin 256) (s : State) : Host.Outcome State Fault Refusal :=
  perform s fun s =>
    let f := s.fnOf v.val
    if f.st = .striking ∧ !f.wiping ∧ s.work.items.all (fun (p : Nat × Item) => p.2.fn != v.val || p.2.released) ∧ s.fnAcked v.val ∧ s.fnIdle v.val
    then s.setFn v.val { f with wiping := true }
    else s

/-- The strike is complete (R383, R384, R386). -/
def State.strikeEnd (s : State) (v : Nat) : State :=
  let f := s.fnOf v
  let s := (s.resetQueues v).regrant true fun p => (s.part p).holder == some v
  let s := { s with work := { s.work with items := s.work.items.filter fun (p : Nat × Item) => p.2.fn != v },
                    hst := { s.hst with
                      exts := s.hst.exts.filter fun (p : Nat × Option (Nat × Bool)) => match p.2 with
                        | some (o, _) => o != v
                        | none => true,
                      parts := s.hst.parts.filter fun (p : Nat × PartGrant) => p.2.holder != some v } }
  let g := nextGen f.gen
  let s := (s.setFn v { gen := g, st := .striking }).mirrorC v (genBytes g)
  s.setFnState v (if f.setPend then .setting else .dark)

/-- STRIKE_COMPLETE (R383): once the wipe is over. -/
def execStrikeComplete (v : Fin 256) (s : State) : Host.Outcome State Fault Refusal :=
  perform s fun s =>
    let f := s.fnOf v.val
    if f.st = .striking ∧ f.wiping ∧ f.wiped then s.strikeEnd v.val else s

/-! ## Freezing (R389) -/

/-- FREEZE: a function with a partition is refused; the open tasks of a LIVE one are preempted. -/
def State.vfFreeze (s : State) (v : Nat) : State :=
  let f := s.fnOf v
  if v = 0 ∨ f.st ≠ .live then s.vfResult resState
  else if !(s.partsOf v).isEmpty then s.vfResult resRadio
  else if f.freezing then s.vfResult resDone
  else
    let s := (s.setFn v { f with freezing := true }).vfResult resDone
    (List.range 144).foldl (fun s k => match (s.clOf k).placed with
      | some (i, _) => if s.itemIsOf i v then (s.preemptCl k .handover).1 else s
      | none => s) s

/-- FREEZE (R389). -/
def execFreeze (s : State) : Host.Outcome State Fault Refusal := perform s fun s => s.vfFreeze s.vfSel

/-- Whether a freezing function is quiet (R389). -/
def State.fnQuiet (s : State) (v : Nat) : Bool :=
  ((s.placedTasks fun _ => true).all fun x => !s.itemIsOf x.1 v)
    && ((List.range 144).all fun k => match (s.clOf (300 + k)).placed with
      | some (i, _) => !s.itemIsOf i v
      | none => true)
    && s.sh.callq.all (fun c => !s.itemIsOf c.item v)
    && s.sh.threads.all (fun p => match p.2.call with
      | some c => !s.itemIsOf c.item v
      | none => true)
    && s.fnAcked v

/-- FREEZE_QUIET (R389). -/
def execFreezeQuiet (v : Fin 256) (s : State) : Host.Outcome State Fault Refusal :=
  perform s fun s =>
    let f := s.fnOf v.val
    if f.st = .live ∧ f.freezing ∧ s.fnQuiet v.val then (s.setFn v.val { f with freezing := false }).setFnState v.val .intermission
    else s

/-- THAW (R382, R389). -/
def State.vfThaw (s : State) (v : Nat) : State :=
  if (s.fnOf v).st = .intermission then ((s.setFn v { s.fnOf v with saved := 0 }).setFnState v .live).vfResult resDone else s.vfResult resState

/-- THAW (R389). -/
def execThaw (s : State) : Host.Outcome State Fault Refusal := perform s fun s => s.vfThaw s.vfSel

/-! ## Mailboxes (R387, R393, R394) -/

/-- The function that `MB_SEL` names. -/
def State.mbSel (s : State) : Nat := fld (s.pr .mbox 0 0x040) 0 8

/-- Whether a function's mailbox takes anything: a VF that is not being struck. -/
def State.mbOpen (s : State) (v : Nat) : Bool := v != 0 && decide ((s.fnOf v).st ≠ .striking)

/-- The tenant's doorbell. -/
def State.writeTmDb (s : State) (v : Nat) (n : Nat) : State := if s.mbOpen v then s.mbRingTm v n else s

/-- MB_TM_DOORBELL (R387). -/
def execMbTmDoorbell (v : Fin 256) (count : BitVec 8) (s : State) : Host.Outcome State Fault Refusal :=
  perform s fun s => s.writeTmDb v.val count.toNat

/-- The manager's doorbell. -/
def State.writeTtDb (s : State) (n : Nat) : State := if s.mbOpen s.mbSel then s.mbRingTt s.mbSel n else s

/-- MB_TT_DOORBELL (R387). -/
def execMbTtDoorbell (count : BitVec 8) (s : State) : Host.Outcome State Fault Refusal :=
  perform s fun s => s.writeTtDb count.toNat

/-- Free the slot that a reader has read: the manager's is TM, the tenant's TT. -/
def State.mbFree (s : State) (v : Nat) (byManager : Bool) : State :=
  let f := s.fnOf v
  s.setFn v { f with mb := if byManager then { f.mb with tmPend := false } else { f.mb with ttPend := false } }

/-- MB_PEND_CLEAR (R387). -/
def execMbPendClear (v : Fin 256) (byManager : Bool) (s : State) : Host.Outcome State Fault Refusal :=
  perform s fun s => if v.val = 0 then s else s.mbFree v.val byManager

/-- A write of a side's MB_STAT: bit 1 frees the slot it reads, bit 2 clears OVR. -/
def State.writeMbStat (s : State) (v : Nat) (byManager : Bool) (w : Word) : State :=
  let s := if fld w 1 1 = 1 then s.mbFree v byManager else s
  let f := s.fnOf v
  if fld w 2 1 = 1 then s.setFn v { f with mb := { f.mb with ovr := false } } else s

/-- MB_STAT as the tenant reads it, and as the manager does. -/
def State.readMbStatT (s : State) (v : Nat) : Word :=
  let m := (s.fnOf v).mb
  BitVec.ofNat 32 (bn m.tmPend + 2 * bn m.ttPend + 4 * bn m.ovr + 256 * m.ttCount)
def State.readMbStatM (s : State) (v : Nat) : Word :=
  let m := (s.fnOf v).mb
  BitVec.ofNat 32 (bn m.ttPend + 2 * bn m.tmPend + 4 * bn m.ovr + 256 * m.tmCount)

/-- MB_PEND word `k` (R394). -/
def State.readMbPend (s : State) (k : Nat) : Word :=
  BitVec.ofNat 32 (sumBy (fun i => 2 ^ i * bn (s.fnOf (32 * k + i)).mb.tmPend) (List.range 32))

/-! ## PCIe ports (R374, R377, R395, R436, R446) -/

/-- Set a port's link-up bit. -/
def State.setLinkUp (s : State) (p : Nat) (up : Bool) : State :=
  { s with hst := { s.hst with linkUp := Tbl.set false s.hst.linkUp p up } }

/-- PCIE_LINK_UP (R374): the port trains once its SERDES is up. -/
def execPcieLinkUp (p : Fin 2) (s : State) : Host.Outcome State Fault Refusal :=
  perform s fun s => if s.boot.phase < 6 then s else s.setLinkUp p.val true

/-- PCIE_LINK_DOWN (R395). -/
def execPcieLinkDown (p : Fin 2) (s : State) : Host.Outcome State Fault Refusal :=
  perform s fun s =>
    if Tbl.get false s.hst.linkUp p.val then (s.setLinkUp p.val false).raise (pageAt .host 0) 2 0 else s

/-- Forget the IDE streams of a port. -/
def State.clearIde (s : State) (p : Nat) : State :=
  { s with hst := { s.hst with ide := s.hst.ide.filter fun (x : Nat × IdeState) => x.1 / 5 != p } }

/-- PERST_RELEASE (R436): after READY the port's link and configuration space are reset, its IDE streams with them. -/
def execPerstRelease (p : Fin 2) (s : State) : Host.Outcome State Fault Refusal :=
  perform s fun s => if s.boot.ready then (s.setLinkUp p.val false).clearIde p.val else s

/-- ATS_INVALIDATION (R377). -/
def execAtsInvalidation (fn : Fin 256) (page : BitVec 52) (s : State) : Host.Outcome State Fault Refusal :=
  perform s fun s =>
    { s with hst := { s.hst with ats := s.hst.ats.filter fun (x : Nat × Nat) => !(x.1 == fn.val && x.2 == page.toNat) } }

/-- IDE_KEY_PROGRAM (R446): inside an established SPDM session. -/
def execIdeKeyProgram (p : Fin 2) (stream : Fin 5) (s : State) : Host.Outcome State Fault Refusal :=
  perform s fun s =>
    if s.sec.sessions.any (·.2) then
      { s with hst := { s.hst with ide := Tbl.set .none s.hst.ide (5 * p.val + stream.val) .secure } }
    else s

/-- IDE_INTEGRITY_FAIL (R446). -/
def execIdeIntegrityFail (p : Fin 2) (stream : Fin 5) (s : State) : Host.Outcome State Fault Refusal :=
  perform s fun s =>
    let k := 5 * p.val + stream.val
    if Tbl.get .none s.hst.ide k = .none then s
    else ({ s with hst := { s.hst with ide := Tbl.set .none s.hst.ide k .insecure } } : State).raise (pageAt .host 0) 4 0

/-- PCIE_UNCORRECTABLE_ERROR (R395). -/
def execPcieUncorrectableError (_p : Fin 2) (s : State) : Host.Outcome State Fault Refusal :=
  perform s fun s => s.raise (pageAt .host 0) 3 0

end Sys2Proof.Machine
end

