-- ==== Sys2Proof/Machine/Image.lean ====
section
/-! DEFINITION. Intermission images: SAVE and RESTORE (R117, R193, R194, R389 to R391). What R390 does not lay out is laid out
here (log 40). -/

namespace Sys2Proof.Machine

/-! ## Stream states (R117) -/

/-- The 512 bytes of a saved stream state. -/
def StreamSave.bytes (v : StreamSave) : List Byte :=
  let p := v.pt
  let words := fun (l : List Nat) => l.flatMap (leBytes 4)
  leBytes 8 v.xidx ++ leBytes 4 p.line
    ++ leBytes 4 (match p.nest with
      | some n => n.line
      | none => 0xFFFFFFFF)
    ++ words p.cnt ++ words p.rc ++ words p.idx ++ p.base.flatMap (leBytes 8)
    ++ p.inc.flatMap (fun w => leBytes 4 w.toNat) ++ v.tok.flatMap (fun t => leBytes 2 (unsigned 16 t))
    ++ leBytes 68 (sumBy (fun x => 2 ^ (x - v.xidx)) v.done) ++ words v.kdone ++ List.replicate 20 0

/-- A saved stream state from its 512 bytes, the nest that its record describes, the copies before XIDX and the tokens that stand
below 0. -/
def saveOf (b : List Byte) (nest : Option Nest) (rank owed : Nat) : StreamSave :=
  let words := fun (off n : Nat) => (List.range n).map fun i => fb b (off + 4 * i) 4
  let x := fb b 0 8
  { xidx := x, rank := rank,
    pt := { line := fb b 8 4, nest := nest, cnt := words 16 6, rc := words 40 6, idx := words 64 6,
            base := (List.range 8).map fun i => fb b (88 + 8 * i) 8,
            inc := (words 152 48).map (BitVec.ofNat 32) },
    tok := (List.range 16).map fun i => (fb b (344 + 2 * i) 2 : Int) - 65536 * bn (bit owed i),
    done := ((List.range 544).filter fun i => bit (fb b (376 + i / 8) 1) (i % 8)).map (x + ·),
    kdone := words 444 12 }

/-- The numeric summary of 24 bytes (R64). -/
def numericOf (b : List Byte) : Numeric :=
  { sat := fb b 0 4, flush := fb b 4 4, fbs := fb b 8 4, zblk := fb b 12 4, nan := fb b 16 4, wide := fb b 20 4 }

/-! ## What an image holds (R390) -/

/-- The unreleased items of a function. -/
def State.openItems (s : State) (v : Nat) : List (Nat × Item) :=
  s.work.items.filter fun (p : Nat × Item) => p.2.fn == v && !p.2.released && !p.2.returned

/-- A saved task: its item number, its index, its item's sequence number and queue, and the task. -/
structure Saved where
  item : Nat
  idx : Nat
  seqNo : Nat
  queue : Nat
  task : Task
  deriving DecidableEq, Repr

/-- Insert a saved task in ascending (sequence number, task), then queue. -/
def insertSaved (x : Saved) : List Saved → List Saved
  | [] => [x]
  | y :: t =>
    if lexLt [(x.seqNo : Int), x.idx, x.queue] [(y.seqNo : Int), y.idx, y.queue] then x :: y :: t else y :: insertSaved x t

/-- The saved tasks of a function. -/
def State.savedTasks (s : State) (v : Nat) : List Saved :=
  ((s.openItems v).flatMap fun e =>
    (e.2.tasks.zipIdx.filter fun x => x.1.save.isSome && decide (x.1.st = .ready)).map fun x =>
      (⟨e.1, x.2, e.2.seqNo, e.2.queue, x.1⟩ : Saved)).foldl (fun l x => insertSaved x l) []

/-- Logical units of a saved task's cluster that hold its contexts. -/
def State.heldUnits (s : State) (x : Saved) : List Nat :=
  match x.task.ctxAt with
  | some k => (List.range 12).filter fun u => (s.cuOf k u).holds x.item x.idx
  | none => []

/-- PLACE of a saved task: the logical cluster it last had. -/
def Saved.place (x : Saved) : Nat :=
  match x.task.last with
  | some l => l % 32 + 256 * (l / 32)
  | none => 0

/-- Prompt-book records of a function's unreleased items. -/
def State.promptOf (s : State) (v : Nat) : List PbRec :=
  s.work.book.filter fun (r : PbRec) => r.kind != kCheckpoint
    && (s.openItems v).any fun e => e.2.fn == r.fn && e.2.queue == r.queue && e.2.seqNo == r.seqNo

/-- Effect-tag records of a function's items: those this node issued (R359). -/
def State.tagsOf (s : State) (v : Nat) : List TagRec :=
  s.fab.tags.filter fun (r : TagRec) => r.src == s.node && r.tag.fn.toNat == v

/-- The 576 bytes of a saved task; past the nest, the copies of its descriptor before XIDX, and the tokens that stand below 0:
R117's 16 bits do not tell -1 from 65,535 (log 40). -/
def State.savedBytes (s : State) (x : Saved) : List Byte :=
  let v := x.task.save.getD {}
  let mask := sumBy (2 ^ ·) (s.heldUnits x)
  leBytes 8 x.seqNo ++ leBytes 4 x.idx ++ leBytes 4 x.place ++ x.task.num.bytes ++ v.bytes
    ++ leBytes 2 x.queue ++ leBytes 2 mask
    ++ (match v.pt.nest with
      | some n => leBytes 1 n.levels ++ leBytes 1 n.body ++ leBytes 2 n.pos ++ leBytes 4 n.after
      | none => List.replicate 8 0)
    ++ leBytes 1 v.rank ++ leBytes 2 (sumBy (fun p => if p.1 < 0 then 2 ^ p.2 else 0) v.tok.zipIdx) ++ List.replicate 9 0

/-- Bytes of the queue registers (R119), 64 for each queue. -/
def State.queueBytes (s : State) (v : Nat) : List Byte :=
  (List.range 16).flatMap fun q => (List.range 16).flatMap fun k => leBytes 4 (s.readQueue v q (4 * k)).toNat

/-- Bytes of both mailbox slots. -/
def Mailbox.bytes (m : Mailbox) : List Byte :=
  let slot := fun (t : Tbl Word) => (List.range 32).flatMap fun i => leBytes 4 (Tbl.get 0 t i).toNat
  slot m.tm ++ slot m.tt ++ [BitVec.ofNat 8 (bn m.tmPend + 2 * bn m.ttPend + 4 * bn m.ovr)]
    ++ leBytes 1 m.tmCount ++ leBytes 1 m.ttCount ++ List.replicate 5 0

/-- What no other section holds and a resumed run needs (R50, R193; log 40), 64 bytes each: the seeds and classes of the raw streams
among a function's items, with role 0, and the regions that its saved tasks have declared. -/
def State.extras (s : State) (v : Nat) : List (List Byte) :=
  ((s.openItems v).filter fun (p : Nat × Item) => p.2.kind == 2).map (fun p =>
    let r := p.2.seedRec
    leBytes 8 r.seqNo ++ leBytes 1 r.queue ++ [0] ++ leBytes 1 r.cls ++ List.replicate 5 0 ++ leBytes 8 r.seed ++ List.replicate 40 0)
  ++ (s.savedTasks v).flatMap fun x => x.task.regions.map fun r =>
    leBytes 8 x.seqNo ++ leBytes 1 x.queue ++ leBytes 1 r.2.1 ++ [0, 0] ++ leBytes 4 x.idx ++ leBytes 8 r.1 ++ digBytes r.2.2
      ++ List.replicate 8 0

/-- The extra entries of a GRANTS section. -/
def extrasOf (g : List Byte) : List (List Byte) :=
  let b := g.drop (72 + 4 * fb g 0 4)
  (pieces 64 (b.length / 64) b)

/-- The seeds among extra entries. -/
def seedsOf (v : Nat) (l : List (List Byte)) : List SeedRec :=
  (l.filter fun b => fb b 9 1 == 0).map fun b => ⟨v, fb b 8 1, fb b 0 8, fb b 16 8, fb b 10 1⟩

/-- The regions of a task among extra entries. -/
def regionsOf (l : List (List Byte)) (q n t : Nat) : List (Nat × Nat × BitVec 256) :=
  (l.filter fun b => fb b 9 1 != 0 && fb b 0 8 == n && fb b 8 1 == q && fb b 12 4 == t).map fun b =>
    (fb b 16 8, fb b 9 1, BitVec.ofNat 256 (fb b 24 32))

/-- Bytes of the grants: number of extents, of clusters, queue limits, extent indices with SPEC_OK in bit 31, then the extra
entries. -/
def State.grantBytes (s : State) (v : Nat) : List Byte :=
  let es := s.extsOf v
  leBytes 4 es.length ++ leBytes 4 (count (s.hasCl v) 128) ++ ((List.range 16).flatMap fun q => leBytes 4 (s.qlimit v q))
    ++ (es.flatMap fun e => leBytes 4 (e + 2 ^ 31 * bn (s.specOk (e * 2 ^ 26)))) ++ (s.extras v).flatten

/-- Read HBM whose owner is not asked: an image holds what the lines hold, and something free for a poisoned line. -/
def State.imageRead (s : State) (off n : Nat) : State × List Byte :=
  (List.range (n / 64)).foldl (fun (p : State × List Byte) i =>
    let (s, r) := p.1.hbmLineRead (off / 64 + i) false
    match r with
    | some b => (s, p.2 ++ b)
    | none =>
      let (s, b) := s.freeBytes 64
      (s, p.2 ++ b)) (s, [])

/-- The context slots held, task after task, in ascending unit. -/
def State.contextBytes (s : State) (l : List Saved) : State × List Byte :=
  (l.flatMap fun x => (s.heldUnits x).map fun u => (x.task.ctxAt.getD 0, u)).foldl (fun (p : State × List Byte) c =>
    let (s, r) := p.1.csRead c.1 (slotAt c.2) 0x6000
    match r with
    | some b => (s, p.2 ++ b)
    | none =>
      let (s, b) := s.freeBytes 0x6000
      (s, p.2 ++ b)) (s, [])

/-- Lengths of the eight sections. -/
def State.sectionLens (s : State) (v : Nat) : List Nat :=
  let l := s.savedTasks v
  [1024, 64 * (s.promptOf v).length, 576 * l.length, 24576 * sumBy (fun x => (s.heldUnits x).length) l,
   35 * (s.tagsOf v).length, 264, 72 + 4 * (s.extsOf v).length + 64 * (s.extras v).length, 2 ^ 26 * (s.extsOf v).length]

/-- IMG_BYTES: header, sections and digest; 0, its reset value, while the function is not in intermission (log 36). -/
def State.imageBytes (s : State) (v : Nat) : Nat :=
  if (s.fnOf v).st = .intermission then 288 + sumBy id (s.sectionLens v) else 0

/-- The placement digest of R194, of tasks with their PLACE words. -/
def State.placeDigest (s : State) (l : List (Nat × Nat × Nat)) : BitVec 256 :=
  sha3 (digBytes (mapDigest s.sec.variant s.curMap) ++ leBytes 4 s.fwVer.toNat ++ leBytes 2 s.jobChips
    ++ l.flatMap fun x => leBytes 8 x.1 ++ leBytes 4 x.2.1 ++ leBytes 4 x.2.2)

/-- Offsets of sections that follow each other from byte 256. -/
def sectionOffs : Nat → List Nat → List Nat
  | _, [] => []
  | o, n :: t => o :: sectionOffs (o + n) t

/-- The header of R390, from its sections. -/
def State.imageHeader (s : State) (v : Nat) (sections : List (List Byte)) : List Byte :=
  let lens := sections.map List.length
  let dig := s.placeDigest ((s.savedTasks v).map fun x => (x.seqNo, x.idx, x.place))
  leBytes 4 0x31474D49 ++ leBytes 2 1 ++ leBytes 2 8 ++ leBytes 8 (288 + sumBy id lens) ++ leBytes 1 v ++ [0, 0, 0]
    ++ leBytes 4 (s.fnOf v).gen.toNat ++ digBytes dig ++ List.replicate 8 0
    ++ ((sections.zip (sectionOffs 256 lens)).zipIdx.flatMap fun x =>
      leBytes 1 (x.2 + 1) ++ [0, 0, 0] ++ leBytes 4 (crc32c x.1.1).toNat ++ leBytes 8 x.1.2)
    ++ List.replicate 64 0

/-- The whole image of a function in INTERMISSION. -/
def State.image (s : State) (v : Nat) : State × List Byte :=
  let l := s.savedTasks v
  let (s, ctx) := s.contextBytes l
  let (s, mem) := (s.extsOf v).foldl (fun (p : State × List Byte) e =>
    let (s, b) := p.1.imageRead (e * 2 ^ 26) (2 ^ 26)
    (s, p.2 ++ b)) (s, [])
  let sections := [s.queueBytes v, (s.promptOf v).flatMap PbRec.bytes, l.flatMap s.savedBytes, ctx,
                   (s.tagsOf v).flatMap TagRec.bytes, (s.fnOf v).mb.bytes, s.grantBytes v, mem]
  let b := s.imageHeader v sections ++ sections.flatMap id
  (s, b ++ digBytes (sha3 b))

/-! ## SAVE (R390) -/

/-- The image address. -/
def State.imgAddr (s : State) : Nat := s.pair (pageAddr .host 0 + 0x050) / 4096 * 4096

/-- Write an image in pieces of 256 bytes from piece `i` on, until one waits or fails; and the piece it got to. -/
def State.writeImage (s : State) : List (List Byte) → Nat → State × Got × Nat
  | [], i => (s, .ok [], i)
  | p :: t, i =>
    let (s, g) := s.gWrite (s.smWho 0 0 0) (s.imgAddr + 256 * i) p false false
    match g with
    | .ok _ => State.writeImage s t (i + 1)
    | g => (s, g, i)

/-- SAVE: the image is written for the PF, and the function stays in INTERMISSION. A write that fails ends with IMAGE; one that
waits leaves the function BUSY, and the save goes on when SAVE is given again (log 40). -/
def State.vfSave (s : State) (v : Nat) : State :=
  if (s.fnOf v).st ≠ .intermission then s.vfResult resState
  else
    let (s, b) := s.image v
    let n := (s.fnOf v).saved
    let (s, g, i) := s.writeImage ((pieces 256 (b.length / 256 + 1) b).drop n) n
    match g with
    | .fail _ => (s.setFn v { s.fnOf v with saved := 0 }).vfResult resImage
    | .wait => s.setFn v { s.fnOf v with saved := i }
    | .ok _ => (s.setFn v { s.fnOf v with saved := 0 }).vfResult resDone

/-- SAVE (R390). -/
def execSave (s : State) : Host.Outcome State Fault Refusal := perform s fun s => s.vfSave s.vfSel

/-! ## RESTORE (R391, R193) -/

/-- Section `i` of an image: its offset and its bytes. -/
def sectionAt (b : List Byte) (i : Nat) : List Byte :=
  let off := fun (k : Nat) => fb b (64 + 16 * k + 8) 8
  let stop := if i = 7 then b.length - 32 else off (i + 1)
  (b.drop (off i)).take (stop - off i)

/-- Whether an image passes the checks of R391: MAGIC, VERSION, every CRC and the digest. -/
def imageOk (b : List Byte) : Bool :=
  decide (fb b 0 4 = 0x31474D49) && decide (fb b 4 2 = 1) && decide (288 ≤ b.length)
    && ((List.range 8).all fun i => fb b (64 + 16 * i) 1 == i + 1 && fb b (64 + 16 * i + 4) 4 == (crc32c (sectionAt b i)).toNat)
    && digBytes (sha3 (b.take (b.length - 32))) == b.drop (b.length - 32)

/-- Whether a function fits an image: the same extents, and queue limits at least the saved ones. -/
def State.imageFits (s : State) (v : Nat) (g : List Byte) : Bool :=
  let n := fb g 0 4
  ((List.range n).map fun i => fb g (72 + 4 * i) 4 % 2 ^ 31) == s.extsOf v
    && (List.range 16).all fun q => decide (fb g (8 + 4 * q) 4 ≤ s.qlimit v q)

/-- Put the queue registers back: Q_DEPTH and Q_LIMIT are the function's own, of Q_STAT its latched bits. -/
def State.putQueues (s : State) (v : Nat) (b : List Byte) : State :=
  (List.range 16).foldl (fun s q => (List.range 16).foldl (fun s k =>
    let w : Word := BitVec.ofNat 32 (fb b (64 * q + 4 * k) 4)
    if k = 7 ∨ k = 13 then s else s.setRg (qreg v q (4 * k)) (if k = 1 then w &&& 6 else w)) s) s

/-- Put the granted memory back. -/
def State.putMemory (s : State) (v : Nat) (b : List Byte) : State :=
  (s.extsOf v).zipIdx.foldl (fun s x => (s.hbmWrite (x.1 * 2 ^ 26) ((b.drop (x.2 * 2 ^ 26)).take (2 ^ 26)) false).1) s

/-- Ask for what accepting the items of an image's records reads, and add nothing; answers whether a read is out. -/
def State.askRecords (s : State) (seeds : List SeedRec) (accepts : List PbRec) : State × Bool :=
  accepts.foldl (fun (p : State × Bool) r => match p.1.acceptRecord r seeds with
    | (s, none) => (s, true)
    | _ => p) (s, false)

/-- Rebuild the item of an ACCEPT record from its descriptor and its other records, with its tail copy. What has landed stays for
the other items. -/
def State.putItem (s : State) (seeds : List SeedRec) (recs : List PbRec) (r : PbRec) : State :=
  match s.acceptRecord r seeds with
  | (t, some (i, true)) =>
    let t := { t with fab := s.fab }
    let t := (recs.filter r.same).foldl (fun t x => t.replayRec i x) t
    let re := recs.any fun x => x.same r && x.kind == kRerun
    (match t.itemOf i with
      | some it => t.setItem i { it with seqNo := r.seqNo, gen := r.gen, resumed := true, rerun := re }
      | none => t)
  | _ => s

/-- The number of the item that a queue's sequence number names. -/
def State.itemAt (s : State) (v q n : Nat) : Option Nat :=
  (s.work.items.find? fun (p : Nat × Item) => p.2.fn == v && p.2.queue == q && p.2.seqNo == n).map (·.1)

/-- The prompt-book records of an image's PROMPT section. -/
def recsOf (v : Nat) (b : List Byte) : List PbRec :=
  (List.range (b.length / 64)).map fun i => { recOfBytes ((b.drop (64 * i)).take 64) with fn := v }

/-- Put the records back with their items: written anew at the book's next positions. -/
def State.putPrompt (s : State) (v : Nat) (seeds : List SeedRec) (recs : List PbRec) : State :=
  let accepts := recs.filter fun (r : PbRec) => r.kind == kAccept
  -- what acceptance itself would journal, count and number is set back: the records stand in the image
  let t := (accepts.foldl (fun s r => s.putItem seeds recs r) s).forget 7000
  let t := { t with regs := s.regs, work := { t.work with book := s.work.book, tail := s.work.tail, ends := s.work.ends } }
  let back := fun (r : PbRec) => (t.itemAt v r.queue r.seqNo).isSome
  let t := (recs.filter back).foldl State.journal t
  { t with work := { t.work with tail := t.work.tail ++ (accepts.filter back).map fun (r : PbRec) =>
      ({ seqNo := r.seqNo, tag := r.tag, fn := v, queue := r.queue, desc := r.desc, gen := r.gen } : TailCopy) } }

/-- Put the tag records back, while the window has room. -/
def State.putTags (s : State) (b : List Byte) : State :=
  (List.range (b.length / 35)).foldl (fun s i =>
    let r := (b.drop (35 * i)).take 35
    if s.tagsFull then s
    else s.keepTag { src := fb r 16 2, tag := tagOfBytes (r.take 16), off := fb r 19 8, status := fb r 18 1,
                     old := BitVec.ofNat 64 (fb r 27 8) }) s

/-- A mailbox from its bytes, with the generation its messages were posted in. -/
def mailboxOf (b : List Byte) (gen : Nat) : Mailbox :=
  let slot := fun (off : Nat) => (List.range 32).foldl (fun (t : Tbl Word) i => Tbl.set 0 t i (BitVec.ofNat 32 (fb b (off + 4 * i) 4))) []
  let f := fb b 256 1
  { tmPend := bit f 0, ttPend := bit f 1, ovr := bit f 2, tmCount := fb b 257 1, ttCount := fb b 258 1, tmGen := gen,
    ttGen := gen, tm := slot 0, tt := slot 128 }

/-- Whether a logical cluster is present, granted and free for a saved task: nothing placed on it and no unit with another
task's context (R193). -/
def State.clOpen (s : State) (v l : Nat) (used : List Nat) : Bool :=
  !used.contains l && s.hasCl v l && match s.physCl l with
    | some k => (s.clOf k).placed.isNone && (s.clOf k).units.all fun u => u.2.ctx.isNone
    | none => false

/-- Where a saved task goes (R193): its saved place, else the lowest open cluster. -/
def State.placeFor (s : State) (v l : Nat) (used : List Nat) : Option Nat :=
  if s.clOpen v l used then some l else least (fun m => s.clOpen v m used) 128

/-- Put one saved task back: at its place, with its stream state and summary, its contexts written there. Answers what is
left of the contexts, the clusters used, and the PLACE word it got. -/
def State.putTask (s : State) (v : Nat) (extra : List (List Byte)) (b ctx : List Byte) (used : List Nat) :
    State × List Byte × List Nat × Nat :=
  let units := (List.range 12).filter fun u => bit (fb b 554 2) u
  let rest := ctx.drop (24576 * units.length)
  match s.itemAt v (fb b 552 2) (fb b 0 8) with
  | none => (s, rest, used, 0)
  | some i =>
    let t := fb b 8 4
    match s.taskOf i t with
    | none => (s, rest, used, 0)
    | some x =>
      let w := fb b 12 4
      let line := fb b (40 + 12) 4
      let nest : Option Nest :=
        if line = 0xFFFFFFFF then none
        else some { line := line, levels := fb b 556 1, body := fb b 557 1, pos := fb b 558 2, after := fb b 560 4 }
      let y := { x with st := .ready, num := numericOf ((b.drop 16).take 24), preempted := true,
                        save := some (saveOf ((b.drop 40).take 512) nest (fb b 564 1) (fb b 565 2)),
                        regions := regionsOf extra (fb b 552 2) (fb b 0 8) t }
      match s.placeFor v (w % 32 + 32 * (w / 256 % 4)) used with
      | none =>
        -- no cluster is open: contexts have no home, and a task that held some runs again from its first line
        (s.setTask i t (if units.isEmpty then y else { x with st := .ready }), rest, used, 0)
      | some l =>
        let k := (s.physCl l).getD 0
        let s := s.setTask i t { y with last := some l, back := true, ctxAt := if units.isEmpty then none else some k }
        let s := match s.itemOf i with
          | some it => s.setItem i { it with preempted := true }
          | none => s
        let s := units.zipIdx.foldl (fun s u =>
          let s := (s.csWrite k v (slotAt u.1) ((ctx.drop (24576 * u.2)).take 24576) false).1
          s.setCu k u.1 { s.cuOf k u.1 with ctx := some (i, t) }) s
        (s, rest, l :: used, l % 32 + 256 * (l / 32))

/-- Put the saved tasks back, and mark the items when the placement differs from the saved one (R194). -/
def State.putTasks (s : State) (v : Nat) (extra : List (List Byte)) (b ctx : List Byte) (saved : BitVec 256) : State :=
  let l := (List.range (b.length / 576)).map fun i => (b.drop (576 * i)).take 576
  let (s, _, _, places) := l.foldl (fun (p : State × List Byte × List Nat × List (Nat × Nat × Nat)) r =>
    let (s, c, u, w) := p.1.putTask v extra r p.2.1 p.2.2.1
    (s, c, u, p.2.2.2 ++ [(fb r 0 8, fb r 8 4, w)])) (s, ctx, [], [])
  let change := decide (s.placeDigest places ≠ saved)
  { s with work := { s.work with items := s.work.items.map fun (p : Nat × Item) =>
      (p.1, if p.2.fn == v && p.2.resumed then { p.2 with placeChg := p.2.placeChg || change } else p.2) } }

/-- Restore a valid image that fits (R391). While a read that accepting its items makes is out, the function stays SETTING, and
RESTORE goes on when it is given again. -/
def State.restoreImage (s : State) (v : Nat) (b : List Byte) : State :=
  let gen : BitVec 32 := BitVec.ofNat 32 (fb b 20 4)
  let extra := extrasOf (sectionAt b 6)
  let recs := recsOf v (sectionAt b 1)
  let (s, waits) := (s.putMemory v (sectionAt b 7)).askRecords (seedsOf v extra) (recs.filter fun r => r.kind == kAccept)
  if waits then s
  else
    let s := s.putQueues v (sectionAt b 0)
    let s := s.setFn v { s.fnOf v with gen := gen, mb := mailboxOf (sectionAt b 5) gen.toNat }
    let s := (s.putPrompt v (seedsOf v extra) recs).putTags (sectionAt b 4)
    let s := s.putTasks v extra (sectionAt b 2) (sectionAt b 3) (BitVec.ofNat 256 (fb b 24 32))
    (s.setFnState v .intermission).vfResult resDone

/-- RESTORE: the image is read for the PF; one that is not valid or does not fit leaves the function SETTING. While a remote
read of it is out, nothing more happens. -/
def State.vfRestore (s : State) (v : Nat) : State :=
  if v = 0 ∨ (s.fnOf v).st ≠ .setting then s.vfResult resState
  else
    let bad := fun (s : State) => (((s.forget 7000).vfResult resImage).raise (pageAt .host 0) 5 (BitVec.ofNat 32 v))
    let (s, h) := s.gRead (s.smWho 0 0 0) s.imgAddr 256 false
    match h with
    | .wait => s
    | .fail _ => bad s
    | .ok hb =>
      if fb hb 0 4 ≠ 0x31474D49 ∨ fb hb 4 2 ≠ 1 ∨ fb hb 8 8 < 288 ∨ 2 ^ 41 < fb hb 8 8 then bad s
      else
        let (s, g) := s.gRead (s.smWho 0 0 0) s.imgAddr (fb hb 8 8) false
        match g with
        | .wait => s
        | .fail _ => bad s
        | .ok b =>
          if !imageOk b then bad s
          else if !s.imageFits v (sectionAt b 6) then (s.forget 7000).vfResult resFit
          else s.restoreImage v b

/-- RESTORE (R391). -/
def execRestore (s : State) : Host.Outcome State Fault Refusal := perform s fun s => s.vfRestore s.vfSel

end Sys2Proof.Machine
end

