-- ==== Sys2Proof/Machine/Time.lean ====
section
/-! DEFINITION. The time unit (R290 to R311): the tick of the time clock, steps and sets, the legacy counter, pulse outputs
and capture inputs. -/

namespace Sys2Proof.Machine

/-! ## Bases -/

/-- Register `off` of a base's block (R309). -/
def tbReg (b off : Nat) : Nat := pageAddr .time 0 + 0x100 + 0x40 * b + off

/-- Replace a base. -/
def State.setBase (s : State) (b : Nat) (x : TBase) : State := { s with time := { s.time with bases := s.time.bases.set b x } }

/-- One tick of a base (R291). -/
def TBase.tick (x : TBase) : TBase :=
  let f := x.frac + x.inc.toNat % 2 ^ 32
  let n := x.ns + x.inc.toNat / 2 ^ 32 + f / 2 ^ 32
  if 1000000000 ≤ n then { x with frac := f % 2 ^ 32, ns := n - 1000000000, sec := (x.sec + 1) % 2 ^ 48 }
  else { x with frac := f % 2 ^ 32, ns := n }

/-- Whole ns of a base. -/
def TBase.total (x : TBase) : Nat := x.sec * 1000000000 + x.ns

/-- Whether a step or set of a base is pending (R293). -/
def State.cmdPending (s : State) (b : Nat) : Bool :=
  s.time.pend.any fun p => p.1 == b && match p.2.1 with
    | .step _ | .setTo _ _ => true
    | _ => false

/-- A command that takes effect at its apply tick, 64 ticks on (R293). -/
def State.defer (s : State) (b : Nat) (c : TCmd) : State :=
  { s with time := { s.time with pend := s.time.pend ++ [(b, c, 64)] } }

/-- TB_INC_COMMIT (R292). -/
def State.incCommit (s : State) (r : Requestor) (b : Nat) (hi : Word) : State :=
  let (s, x) := s.takePair r (tbReg b 0x10) hi
  let w := x % 2 ^ 40
  if w < 0xF0000000 ∨ 0x110000000 < w then s.raise (pageAt .time 0) 3 (BitVec.ofNat 32 b)
  else (s.setPair (tbReg b 0x10) w).defer b (.inc (BitVec.ofNat 40 w))

/-- TB_INC_COMMIT (R292). -/
def execTbIncCommit (req : Requestor) (b : Fin 8) (val : BitVec 32) (s : State) : Host.Outcome State Fault Refusal :=
  perform s fun s => s.incCommit req b.val val

/-- A write of TB_CMD (R293, R294): ignored while a command is pending; a set goes before a step, and a refused set
refuses both. -/
def State.writeTbCmd (s : State) (b : Nat) (v : Word) : State :=
  if s.cmdPending b then s
  else if fld v 1 1 = 1 then
    let ns := (s.rg (tbReg b 0x20)).toNat
    if 1000000000 ≤ ns then s.raise (pageAt .time 0) 3 (BitVec.ofNat 32 b)
    else s.defer b (.setTo (s.pair (tbReg b 0x24) % 2 ^ 48) ns)
  else if fld v 0 1 = 1 then s.defer b (.step (BitVec.ofNat 64 (s.pair (tbReg b 0x18))))
  else s

/-- TB_STEP (R294). -/
def execTbStep (b : Fin 8) (s : State) : Host.Outcome State Fault Refusal := perform s fun s => s.writeTbCmd b.val 1

/-- TB_SET (R294); STEP written with it is discarded. -/
def execTbSet (b : Fin 8) (alsoStep : Bool) (s : State) : Host.Outcome State Fault Refusal :=
  perform s fun s => s.writeTbCmd b.val (BitVec.ofNat 32 (2 + bn alsoStep))

/-- LTC_SET (R298). -/
def execLtcSet (val : BitVec 32) (s : State) : Host.Outcome State Fault Refusal :=
  perform s fun s => s.defer 8 (.ltc val.toNat)

/-! ## Pulse outputs (R301, R302) -/

/-- Register `off` of a pulse output. -/
def tpoReg (n off : Nat) : Nat := pageAddr .time 0 + 0x400 + 0x20 * n + off

/-- A pulse output. -/
def State.tpoOf (s : State) (n : Nat) : Tpo := Tbl.get {} s.time.tpo n

/-- Replace a pulse output. -/
def State.setTpo (s : State) (n : Nat) (x : Tpo) : State := { s with time := { s.time with tpo := Tbl.set {} s.time.tpo n x } }

/-- START of a pulse output in ns. -/
def State.tpoStart (s : State) (n : Nat) : Nat := s.pair (tpoReg n 0x08) % 2 ^ 48 * 1000000000 + (s.rg (tpoReg n 0x04)).toNat

/-- Drive the pin. -/
def State.tpoPin (s : State) (n : Nat) (active : Bool) : State :=
  { s with out := .pulse n (active != (fld (s.rg (tpoReg n 0)) 1 1 == 1)) :: s.out }

/-- Take START, PERIOD and WIDTH from the registers: a new START re-places N. -/
def State.tpoLoad (s : State) (n : Nat) : State :=
  let x := s.tpoOf n
  let st := s.tpoStart n
  s.setTpo n { x with start := st, period := (s.rg (tpoReg n 0x10)).toNat, width := (s.rg (tpoReg n 0x14)).toNat,
                      next := if st = x.start then x.next else st }

/-- A change of POL moves the pin. -/
def State.tpoPol (s : State) (n : Nat) (old : Word) : State :=
  if fld old 1 1 = fld (s.rg (tpoReg n 0)) 1 1 then s else s.tpoPin n (s.tpoOf n).high

/-- A write of TPO_CTRL (R301): arming with an unsuitable WIDTH is ignored. -/
def State.writeTpoCtrl (s : State) (n : Nat) (v : Word) : State :=
  let per := (s.rg (tpoReg n 0x10)).toNat
  let wid := (s.rg (tpoReg n 0x14)).toNat
  let old := s.rg (tpoReg n 0)
  if fld v 0 1 = 1 then
    if wid < 4 ∨ (per ≠ 0 ∧ per < wid + 4) then s
    else
      let on := fld (s.rg (tpoReg n 0)) 0 1 == 1
      let s := s.storeAt (tpoReg n 0) v
      if on then s.tpoPol n old
      else (s.tpoPol n old).setTpo n { armed := true, next := s.tpoStart n, start := s.tpoStart n, period := per, width := wid }
  else
    let s := (s.storeAt (tpoReg n 0) v).tpoPol n old
    let x := s.tpoOf n
    let s := s.setTpo n { x with armed := false, high := false }
    if x.high then s.tpoPin n false else s

/-- A write of START, PERIOD or WIDTH: while EN = 1 it takes effect after the pulse in progress (R301). -/
def State.writeTpoTime (s : State) (n : Nat) : State :=
  if fld (s.rg (tpoReg n 0)) 0 1 = 1 ∧ !(s.tpoOf n).high then s.tpoLoad n else s

/-- The output's pulse begins. -/
def State.tpoFire (s : State) (n : Nat) : State :=
  let x := s.tpoOf n
  let x := if x.period = 0 then { x with armed := false, fired := true, high := true, off := x.next + x.width }
    else { x with next := x.next + x.period, high := true, off := x.next + x.width }
  (s.setTpo n x).tpoPin n true

/-- TPO_PULSE_START (R301). -/
def execTpoPulseStart (n : Fin 16) (s : State) : Host.Outcome State Fault Refusal :=
  perform s fun s =>
    let x := s.tpoOf n.val
    if s.time.running && x.armed && !x.high && decide (x.next ≤ (s.base (fld (s.rg (tpoReg n.val 0)) 4 3)).total) then
      s.tpoFire n.val
    else s

/-- TPO_PULSE_END (R301): WIDTH ns of the base have passed. -/
def execTpoPulseEnd (n : Fin 16) (s : State) : Host.Outcome State Fault Refusal :=
  perform s fun s =>
    let x := s.tpoOf n.val
    if x.high && decide (x.off ≤ (s.base (fld (s.rg (tpoReg n.val 0)) 4 3)).total) then
      let s := (s.setTpo n.val { x with high := false }).tpoPin n.val false
      if fld (s.rg (tpoReg n.val 0)) 0 1 = 1 then s.tpoLoad n.val else s
    else s

/-- A step or set of a base re-places the output's N (R302); a pulse in progress keeps its width. -/
def State.tpoMoved (s : State) (b n old new : Nat) : State :=
  let y := s.tpoOf n
  let x := if fld (s.rg (tpoReg n 0)) 4 3 = b then { y with off := y.off + new - old } else y
  let s := s.setTpo n x
  if !x.armed || fld (s.rg (tpoReg n 0)) 4 3 != b then s
  else if x.period = 0 then
    (if old < x.next ∧ x.next < new then
      (s.setRg (tpoReg n 0x18) (s.rg (tpoReg n 0x18) ||| 2)).tpoFire n
    else s)
  else
    let back := x.start % x.period
    let next := if new ≤ back then back else back + (new - back + x.period - 1) / x.period * x.period
    let st := s.rg (tpoReg n 0x18)
    let missed := min 0xFFFF (fld st 16 16 + (next - x.next) / x.period)
    let s := if x.next < next then s.setRg (tpoReg n 0x18) (setFld st 16 16 missed) else s
    s.setTpo n { x with next := next }

/-! ## Ticks (R291, R293, R295, R298) -/

/-- A step or set has been applied to a base (R294, R297, R302). -/
def State.moved (s : State) (b : Nat) (old : Nat) : State :=
  let s := s.setRg (tbReg b 0x30) (satAdd (s.rg (tbReg b 0x30)) 1)
  let s := s.raise (pageAt .time 0) 1 (BitVec.ofNat 32 b)
  let s := if s.ro.tb = b ∧ s.time.running then { s with ro := { s.ro with realignDue := true } } else s
  (List.range 16).foldl (fun s n => s.tpoMoved b n old (s.base b).total) s

/-- A base that a command has been applied to. -/
def TBase.apply (x : TBase) : TCmd → TBase
  | .inc w => { x with inc := w }
  | .step adj => { x with sec := (x.shifted adj.toInt).1, ns := (x.shifted adj.toInt).2.1 }
  | .setTo sec ns => { x with sec := sec, ns := ns, frac := 0 }
  | .ltc _ => x

/-- Apply a command at its apply tick, to the master and to every copy (R299). -/
def State.applyCmd (s : State) (b : Nat) (c : TCmd) : State :=
  let x := s.base b
  let s : State := { s with time := { s.time with
    copies := s.time.copies.map fun (p : Nat × Option (List TBase × Nat)) =>
      (p.1, p.2.map fun y => (y.1.set b ((nth {} y.1 b).apply c), y.2)) } }
  match c with
  | .inc _ => s.setBase b (x.apply c)
  | .step _ | .setTo _ _ => (s.setBase b (x.apply c)).moved b x.total
  | .ltc ns => { s with time := { s.time with ltcNs := ns, ltcFrac := 0 } }

/-- The legacy counter's tick: on every tick of the time clock, or on every tenth for the 100 MHz REFCLK_SYS (R298). -/
def State.ltcTick (s : State) : State :=
  let c := s.pr .time 0 0x300
  if fld c 0 1 = 0 ∨ (fld c 1 1 = 1 ∧ s.time.clk % 10 ≠ 0) then s
  else
    let inc := s.pr .time 0 0x30C
    let f := s.time.ltcFrac + fld inc 0 24 * 256
    { s with time := { s.time with ltcFrac := f % 2 ^ 32, ltcNs := (s.time.ltcNs + fld inc 24 8 + f / 2 ^ 32) % 2 ^ 32 } }

/-- Rank of a command within an apply tick: a step, then a set; an increment word acts from the next tick (R295). -/
def TCmd.late : TCmd → Nat
  | .step _ => 0
  | .setTo _ _ => 1
  | .ltc _ => 1
  | .inc _ => 2

/-- Every copy that differs advances its own state, until its reload is over (R299). -/
def State.copiesTick (s : State) : State :=
  if s.time.copies.isEmpty then s
  else { s with time := { s.time with
    copies := (s.time.copies.filter fun (p : Nat × Option (List TBase × Nat)) => p.2.any fun y => y.2 != 1).map
      fun (p : Nat × Option (List TBase × Nat)) => (p.1, p.2.map fun y => (y.1.map TBase.tick, y.2 - 1)) } }

/-- One tick of the time clock. -/
def State.tick (s : State) : State :=
  let s := (List.range 16).foldl State.meterFrames s
  let s : State := { s with time := { s.time with clk := s.time.clk + 1 } }
  if !s.time.running then s
  else
    let s : State := { s with time := { s.time with bases := s.time.bases.map TBase.tick } }
    let s := s.copiesTick
    let s := s.ltcTick
    let due := s.time.pend.filter fun p => decide (p.2.2 ≤ 1)
    let s : State := { s with time := { s.time with
      pend := (s.time.pend.filter fun p => decide (1 < p.2.2)).map fun p => (p.1, p.2.1, p.2.2 - 1) } }
    [0, 1, 2].foldl (fun s k => due.foldl (fun s p => if p.2.1.late = k then s.applyCmd p.1 p.2.1 else s) s) s

/-- `n` ticks. -/
def State.ticks (s : State) : Nat → State
  | 0 => s
  | n + 1 => State.ticks s.tick n

/-- TIME_APPLY_TICK (R295): the time clock reaches the next apply tick. -/
def execTimeApplyTick (s : State) : Host.Outcome State Fault Refusal :=
  perform s fun s =>
    if s.time.running && !s.time.pend.isEmpty then s.ticks (minBy 64 (fun (p : Nat × TCmd × Nat) => p.2.2) s.time.pend) else s

/-! ## Reads (R296, R298) -/

/-- A read of TB_NS. -/
def State.readTbNs (s : State) (b : Nat) : State :=
  let x := s.base b
  let s := (s.setPair (tbReg b 0x08) x.sec).setRg (tbReg b 0) (BitVec.ofNat 32 x.frac)
  s.answer (BitVec.ofNat 32 x.ns)

/-- TB_NS_READ (R296). -/
def execTbNsRead (b : Fin 8) (s : State) : Host.Outcome State Fault Refusal := perform s fun s => s.readTbNs b.val

/-- A read of LTC_NS. -/
def State.readLtc (s : State) : State :=
  (s.setPr .time 0 0x308 (BitVec.ofNat 32 s.time.ltcFrac)).answer (BitVec.ofNat 32 s.time.ltcNs)

/-- LTC_NS_READ (R298). -/
def execLtcNsRead (s : State) : Host.Outcome State Fault Refusal := perform s State.readLtc

/-- The bytes of a base's state: SEC, NS, FRAC and the increment word. -/
def TBase.bytes (x : TBase) : List Byte := leBytes 6 x.sec ++ leBytes 4 x.ns ++ leBytes 4 x.frac ++ leBytes 5 x.inc.toNat

/-- The base that bytes hold. -/
def baseOfBytes (l : List Byte) : TBase :=
  { sec := leNat (l.take 6), ns := leNat ((l.drop 6).take 4), frac := leNat ((l.drop 10).take 4),
    inc := BitVec.ofNat 40 (leNat (l.drop 14)) }

/-- The bases of a state some of whose bits, 152 a base, have changed. -/
def flipTime (l : List TBase) (flips : List (Fin 1216)) : List TBase :=
  flips.foldl (fun l f =>
    let b := f.val / 152
    l.set b (baseOfBytes (leBytes 19 (leNat (nth {} l b).bytes ^^^ 2 ^ (f.val % 152))))) l

/-- TIME_STATE_CHECK (R299): the copies of a die have changed in some bits since the last check; each checks the CRC of the
master's state against its own, and one that differs is reloaded within 2 µs, serving what it held until then. -/
def execTimeStateCheck (die : Fin 6) (flips : List (Fin 1216)) (s : State) : Host.Outcome State Fault Refusal :=
  perform s fun s =>
    let old : List TBase × Nat := (Tbl.get none s.time.copies die.val).getD (s.time.bases, 0)
    let l := flipTime old.1 flips
    let crc := fun (l : List TBase) => crc32c (l.flatMap TBase.bytes)
    if !s.time.running then s
    else if l = s.time.bases then { s with time := { s.time with copies := Tbl.set none s.time.copies die.val none } }
    else if old.2 = 0 ∧ crc l ≠ crc s.time.bases then
      ({ s with time := { s.time with copies := Tbl.set none s.time.copies die.val (some (l, 2000)) } } : State).raise
        (pageAt .time 0) 2 (BitVec.ofNat 32 (die.val * 256))
    else { s with time := { s.time with copies := Tbl.set none s.time.copies die.val (some (l, old.2)) } }

/-! ## Capture inputs (R303) -/

/-- Register `off` of a capture input. -/
def tciReg (n off : Nat) : Nat := pageAddr .time 0 + 0x600 + 0x20 * n + off

/-- The FIFO of a capture input. -/
def State.tciOf (s : State) (n : Nat) : List Capture := Tbl.get [] s.time.tci n

/-- An edge at a capture input. -/
def State.tciEdge (s : State) (n : Nat) (rising : Bool) : State :=
  let c := s.rg (tciReg n 0)
  let sel := match fld c 1 2 with
    | 0 => rising
    | 1 => !rising
    | 2 => true
    | _ => false
  let st := s.rg (tciReg n 0x14)
  if !s.time.running || fld c 0 1 == 0 || !sel then s
  else if (Tbl.get none s.time.lastEdge n).any fun t => decide (s.time.clk ≤ t + 16) then
    s.setRg (tciReg n 0x14) (setFld st 16 16 (min 0xFFFF (fld st 16 16 + 1)))
  else if 16 ≤ (s.tciOf n).length then
    (s.setRg (tciReg n 0x14) (st ||| 0x20)).raise (pageAt .time 0) 4 (BitVec.ofNat 32 (fld c 4 3 + 16 * n))
  else
    let b := s.base (fld c 4 3)
    { s with time := { s.time with
      tci := Tbl.upd [] s.time.tci n fun l => l ++ [{ ns := b.ns, sec := b.sec, ltc := s.time.ltcNs, rising := rising }],
      lastEdge := Tbl.set none s.time.lastEdge n (some s.time.clk) } }

/-- TCI_EDGE (R303). -/
def execTciEdge (n : Fin 8) (rising : Bool) (s : State) : Host.Outcome State Fault Refusal :=
  perform s fun s => s.tciEdge n.val rising

/-- A read of TCI_NS: the head's NS, its other fields latched, the head removed. With nothing in the FIFO it reads its reset
value until an edge has been captured, and a free value after. -/
def State.readTci (s : State) (n : Nat) : State :=
  match s.tciOf n with
  | c :: t =>
    let s : State := { s with time := { s.time with tci := Tbl.set [] s.time.tci n t } }
    let s := (s.setPair (tciReg n 0x08) c.sec).setRg (tciReg n 0x10) (BitVec.ofNat 32 c.ltc)
    s.answer (BitVec.ofNat 32 (c.ns + 2 ^ 31 * bn c.rising))
  | [] =>
    if (Tbl.get none s.time.lastEdge n).isNone then s.answer 0
    else ({ s with free := s.free + 1 } : State).answer (Config.freeWord s.free)

/-- TCI_NS_READ (R303). -/
def execTciNsRead (n : Fin 8) (s : State) : Host.Outcome State Fault Refusal := perform s fun s => s.readTci n.val

/-- A read of TXTS_INFO: the head of the two-step FIFO, which is latched and removed (R306). Without an entry VALID reads 0. -/
def State.readTxts (s : State) : State :=
  match s.time.txts with
  | e :: t =>
    let s : State := { s with time := { s.time with txts := t } }
    let s := (s.setPr .time 0 0x864 (BitVec.ofNat 32 e.ns)).setPair (pageAddr .time 0 + 0x868) e.sec
    let s := s.setPr .time 0 0x870 (BitVec.ofNat 32 e.frac)
    s.answer (BitVec.ofNat 32 (2 ^ 31 + e.port * 2 ^ 16 + e.queue * 2 ^ 11 + e.base * 2 ^ 8 + e.idx % 256))
  | [] =>
    if s.time.txUsed then
      ({ s with free := s.free + 1 } : State).answer (Config.freeWord s.free &&& 0x7FFFFFFF)
    else s.answer 0

/-- TXTS_INFO_READ (R306). -/
def execTxtsInfoRead (s : State) : Host.Outcome State Fault Refusal := perform s State.readTxts

end Sys2Proof.Machine
end

