-- ==== Sys2Proof/Machine/RegRead.lean ====
section
/-! DEFINITION. What every register reads as, and the effects of reading one (R7 to R12, R462, R464 to R467). -/

namespace Sys2Proof.Machine

/-- A word of a number. -/
def w32 (n : Nat) : Word := BitVec.ofNat 32 n

/-! ## The page header (R462, R465, R466) -/

/-- Whether a unit with a map state serves: ACTIVE and not DARK. -/
def State.unitServes (s : State) (p : Page) : Bool :=
  match p.kind with
  | .clus => s.unitSt clsCluster p.inst == .active && decide ((s.clOf p.inst).pwr ≠ .dark)
  | .rdsp =>
    s.unitSt clsDsp p.inst == .active && !Tbl.get false s.pwr.dark (p.inst / 136 * 17 + p.inst % 136 / 8)
  | .hbmc => s.hbmUp p.inst
  | _ => true

/-- `PG_STAT.READY` (R462): no reset of the page's unit, its domain or the device runs, its domain is not in fault state, and
its unit serves. -/
def State.pageReady (s : State) (p : Page) : Bool :=
  let d := pageDomain p.kind p.inst
  s.boot.ready && !s.rst.warm && !s.rst.doms.contains d && !s.rst.units.contains (p.base / 256) && !s.domFault d && s.unitServes p

/-- `PG_STAT` (R399, R466). -/
def State.pageStat (s : State) (p : Page) : Word :=
  let valid := fld (s.rg (p.base + 0x010)) 31 1
  let ovf := fld (s.rg (p.base + 0x018)) 0 1
  let sev := s.anySevere p
  w32 (bn (s.pageReady p) + 2 * bn (valid == 1 || ovf == 1 || sev) + 4 * valid + 8 * bn sev)

/-- Header registers that are computed. -/
def State.headerVal (s : State) (p : Page) (off : Nat) : Option Word :=
  if off = 0x000 then some (w32 (typeCode p.kind * 2 ^ 24 + 2 ^ 16 + p.inst))
  else if off = 0x004 then some (pageCaps p.kind)
  else if off = 0x008 then some (setFld (s.rg (p.base + 8)) 1 1 (bn (s.rst.units.contains (p.base / 256))))
  else if off = 0x00C then some (s.pageStat p)
  else if 0x020 ≤ off ∧ off ≤ 0x028 then some (pgUid p ((off - 0x020) / 4))
  else none

/-! ## Computed registers, page by page -/

/-- Four counts, one byte each. -/
def byCounts (f : Nat → Nat) (n : Nat) : Word := w32 (sumBy (fun q => f q % 256 * 256 ^ q) (List.range n))

/-- CHIP page (R29, R203, R204, R448, R474). -/
def State.chipVal (s : State) (off : Nat) : Option Word :=
  if off = 0x040 then some (w32 (4 * activePerQuarter s.sec.variant + 0xB1 * 256 + s.sec.variant * 65536))
  else if off = 0x04C then some (imageWord s.sec.variant s.map.snap (s.rg 0x048).toNat)
  else if off = 0x054 then some (byCounts (fun q => s.spares clsCluster (36 * q) 36) 4)
  else if off = 0x058 then some (byCounts (fun e => s.spares clsDsp (136 * e) 136) 2)
  else if off = 0x05C then some (byCounts s.activeIn 4)
  else if 0x060 ≤ off ∧ off < 0x080 then
    some (w32 (bits (mapDigest s.sec.variant s.map.snap).toNat (8 * (off - 0x060)) 32))
  else if off = 0x084 then some s.fwVer
  else if off = 0x09C then some s.readUndStat
  else if off = 0x0C0 then some s.readLcState
  else if off = 0x0C4 then some s.readBootStat
  else if 0x0D0 ≤ off ∧ off < 0x0F0 then some (w32 (bits s.sec.nonce.toNat (8 * (off - 0x0D0)) 32))
  else if off = 0x110 then some s.readFwuStat
  else if off = 0x114 then some s.readFwuSvn
  else none

/-- FAULT page (R415, R416). -/
def State.faultVal (s : State) (off : Nat) : Option Word :=
  if off = 0x044 then some s.readFaultStat
  else if off = 0x04C then some (w32 s.flt.fq.length)
  else if off = 0x07C then some s.readExpUsed
  else if 0x094 ≤ off ∧ off ≤ 0x0A0 then some (s.readMon off)
  else if off = 0x0B4 then some s.readHsData
  else none

/-- STEP and SET of `TB_CMD`, which read 1 while pending (R293). -/
def State.tbCmdBits (s : State) (b : Nat) : Nat :=
  bn (s.time.pend.any fun (p : Nat × TCmd × Nat) => p.1 == b && (match p.2.1 with
    | .step _ => true
    | _ => false)) +
  2 * bn (s.time.pend.any fun (p : Nat × TCmd × Nat) => p.1 == b && (match p.2.1 with
    | .setTo _ _ => true
    | _ => false))

/-- `SYNCE_CTRL[x].LOCK` (R310): the sub-port of the selected lane has lock (log 30). -/
def State.synceLock (s : State) (v : Word) : Bool :=
  let p := fld v 4 4
  let lane := fld v 8 2
  let sp := match fld (s.pr .eth p 0x040) 0 2 with
    | 0 => 0
    | 1 => lane / 2
    | _ => lane
  fld (s.pr .eth p 0x044) (4 + sp) 1 == 1

/-- TIME page (R309). -/
def State.timeVal (s : State) (off : Nat) : Option Word :=
  let a := pageAddr .time 0 + off
  if 0x100 ≤ off ∧ off < 0x300 then
    (let b := (off - 0x100) / 0x40
     let o := off % 0x40
     if o = 0x04 then some (w32 (s.base b).ns)
     else if o = 0x2C then some (w32 (s.tbCmdBits b))
     else if o = 0x34 then some (w32 (s.t64 b))
     else if o = 0x38 then some (w32 (s.t64 b / 2 ^ 32))
     else none)
  else if off = 0x304 then some (w32 s.time.ltcNs)
  else if 0x400 ≤ off ∧ off < 0x600 ∧ off % 0x20 = 0x18 then
    some (setFld (s.rg a) 0 1 (bn (s.tpoOf ((off - 0x400) / 0x20)).armed))
  else if 0x600 ≤ off ∧ off < 0x700 ∧ off % 0x20 = 0x14 then
    some (setFld (s.rg a) 0 5 (s.tciOf ((off - 0x600) / 0x20)).length)
  else if 0x900 ≤ off ∧ off < 0x908 then some (setFld (s.rg a) 2 1 (bn (s.synceLock (s.rg a))))
  else none

/-- RUNORD page (R174, R175); the current scene of an insertion is free and drawn where the register is read. -/
def State.runordVal (s : State) (off : Nat) : Option Word :=
  let a := pageAddr .runord 0 + off
  if off = 0x040 then some (setFld (setFld (s.rg a) 8 1 (bn s.ro.commitReq)) 9 1 (bn s.ro.bankB))
  else if off = 0x044 then
    some (setFld (setFld (setFld (s.rg a) 0 1 (bn (s.ro.commitReq || s.ro.copying))) 1 1 (bn s.ro.realign)) 16 12 s.ro.scene)
  else if 0x100 ≤ off ∧ off < 0x500 then
    (let p := (off - 0x100) / 0x40
     if off % 0x40 = 0 then some (setFld (s.rg a) 1 1 (s.part p).tile)
     else if off % 0x40 = 0x10 then some (w32 (min 65535 (s.loadOf p).1 + 65536 * min 65535 (s.loadOf p).2))
     else none)
  else none

/-- PWR page (R432). -/
def State.pwrVal (s : State) (off : Nat) : Option Word :=
  if off = 0x058 then some s.readQop
  else if off = 0x06C then some s.readRstStat
  else if off = 0x070 then some s.readDomRst
  else if off = 0x0A4 then some s.readClPwr
  else none

/-- Number of the tasks of items that satisfy `p` which satisfy `q`. -/
def State.countTasks (s : State) (p : Item → Bool) (q : Task → Bool) : Nat :=
  sumBy (fun (e : Nat × Item) => if p e.2 then (e.2.tasks.filter q).length else 0) s.work.items

/-- STAGE pages (R153). -/
def State.stageVal (s : State) (i off : Nat) : Option Word :=
  if off = 0x044 then some (w32 (s.countTasks (fun it => !it.released && it.home == i) fun x => decide (x.st = .ready)))
  else if off = 0x048 then
    some (w32 (s.countTasks (fun it => !it.released) fun x => (decide (x.st = .cued) || decide (x.st = .playing))
      && x.place.isSome && x.placeWord / 256 == i))
  else if off = 0x04C then
    some (w32 ((s.work.items.filter fun (e : Nat × Item) => !e.2.released && !e.2.rejected && e.2.home == i).length))
  else if off = 0x080 then some (w32 s.pbPos)
  else if off = 0x084 then some (w32 (s.pbPos / 2 ^ 32))
  else if off = 0x088 then some (w32 s.pbFree)
  else if off = 0x08C then some (w32 (s.work.tail.length + s.work.reports.length))
  else if off = 0x090 then some (w32 s.work.reports.length)
  else none

/-- STGH page (R124). -/
def State.stghVal (s : State) (off : Nat) : Option Word :=
  if off = 0x048 then some s.fwVer
  else if off = 0x050 then some (w32 ((s.sh.threads.filter fun (p : Nat × Thread) => p.2.call.isSome).length))
  else if off = 0x054 then some (w32 s.sh.callq.length)
  else none

/-- CLUS pages (R89 to R91, R125). -/
def State.clusVal (s : State) (k off : Nat) : Option Word :=
  let c := s.clOf k
  let q := s.seqOf k
  if off = 0x040 then
    (let l := s.logCl k
     let own := match l with
       | some l => s.ownerNow (arbCl l)
       | none => 0x1F
     let pwr := match c.pwr with
       | .lit => 0
       | .dimmed => 1
       | .dark => 2
     some (w32 (ustateCode (s.unitSt clsCluster k) + 256 * (match l with
       | some l => l % 32
       | none => 255) + 65536 * pwr + 2 ^ 24 * own)))
  else if off = 0x044 then some (w32 (sumBy (fun u => 4 ^ u * ustateCode (s.unitSt clsUnit (13 * k + u))) (List.range 13)))
  else if off = 0x048 then some (w32 (sumBy (fun u => 2 ^ u * bn (s.cuOf k u).ctx.isSome) (List.range 12)))
  else if off = 0x0A0 then some (w32 (bn q.running + 2 * bn q.halted + 256 * q.cause))
  else if off = 0x0A4 then
    some (w32 (match q.ending with
      | some e => e.2.2
      | none => q.pt.line))
  else none

/-- HBMC and HASH pages (R327 to R329). -/
def State.hbmcVal (s : State) (i off : Nat) : Option Word :=
  if off = 0x040 then some (s.readHcState i)
  else if 0x090 ≤ off ∧ off ≤ 0x09C then some (Config.stackId (i / 32) ((off - 0x090) / 4))
  else none
def State.hashVal (s : State) (off : Nat) : Option Word :=
  if off = 0x058 then some s.readWipeStat
  else if off = 0x06C then some (w32 s.poison.length)
  else none

/-- GLINK pages (R369, R370). -/
def State.glinkVal (s : State) (l off : Nat) : Option Word :=
  if off = 0x044 then some (s.readGlStat l)
  else if off = 0x054 then some (w32 (min 65535 (penNow s.time.clk (s.linkOf l).pen)))
  else if 0x0C0 ≤ off ∧ off < 0x0E8 then some (s.readLaneErr l ((off - 0x0C0) / 4))
  else none

/-- FABRIC page (R371). -/
def State.fabricVal (s : State) (off : Nat) : Option Word :=
  if off = 0x060 then some (w32 (bits s.routeEntry 0 30))
  else if off = 0x064 then some (w32 (bits s.routeEntry 30 18))
  else if off = 0x074 then some (w32 s.fab.reads.length)
  else if off = 0x078 then some (w32 s.unackedAll)
  else if off = 0x07C then some (w32 s.fab.tags.length)
  else if 0x400 ≤ off ∧ off < 0x800 ∧ off % 0x10 = 0x0C then some (s.readGrpStat ((off - 0x400) / 0x10))
  else none

/-- Partition that holds a logical DSP core, 0x1F if none (R229). -/
def State.coreOwner (s : State) (l : Nat) : Nat :=
  ((List.range 16).find? fun p =>
    (s.part p).valid && (s.part p).tile == l / 128 && (s.part p).dsp.getLsbD (l % 128)).getD 0x1F

/-- RDSP pages (R229, R230). -/
def State.rdspVal (s : State) (k off : Nat) : Option Word :=
  let d := s.coreOf k
  if off = 0x040 then
    (let l := s.logCore k
     some (w32 (ustateCode (s.unitSt clsDsp k) + 256 * (match l with
       | some l => l % 128
       | none => 255) + 2 ^ 24 * (match l with
       | some l => s.coreOwner l
       | none => 0x1F))))
  else if off = 0x048 then
    some (setFld (setFld (setFld (setFld (s.pr .rdsp k 0x048) 0 1 (bn d.playing)) 1 1 (bn d.sh)) 6 1 (bn d.halted)) 8 8
      d.imask.toNat)
  else if off = 0x04C then some (w32 (bits d.lastPc 0 16))
  else none

/-- Bits of the engines of a class that are in service. -/
def State.engBits (s : State) (e k n : Nat) : Nat := sumBy (fun i => 2 ^ i * bn (s.engineOn e k i)) (List.range n)

/-- Accelerator pages (R264). -/
def State.accelVal (s : State) (k : PageKind) (e off : Nat) : Option Word :=
  if off = 0x040 then
    some (w32 (match k with
      | .fft => s.engBits e 0 24
      | .ldpc => s.engBits e 1 32
      | .polar => s.engBits e 3 8
      | _ => s.engBits e 5 4))
  else if off = 0x044 then
    some (w32 (match k with
      | .ldpc => s.engBits e 2 16 + 65536 * s.engBits e 4 8
      | _ => 0))
  else none

/-- HOST page (R119, R392). -/
def State.hostVal (s : State) (off : Nat) : Option Word :=
  if off = 0x040 then some s.readHostStat
  else if off = 0x04C then some s.readVfCmdStat
  else if off = 0x058 then some (w32 (s.imageBytes s.vfSel))
  else if off = 0x05C then some (w32 (s.imageBytes s.vfSel / 2 ^ 32))
  else if off = 0x060 then some s.readPoolExt
  else if off = 0x064 then some s.readPoolQlim
  else if off = 0x06C then some s.extWord
  else if 0x080 ≤ off ∧ off ≤ 0x0E0 then some (s.readGrant s.vfSel off)
  else if 0x200 ≤ off ∧ off < 0x400 ∧ off % 0x20 ≤ 0x18 then some ((s.part ((off - 0x200) / 0x20)).word (off % 0x20 / 4))
  else if 0x400 ≤ off ∧ off < 0x800 then some (s.readQueue 0 ((off - 0x400) / 0x40) (off % 0x40))
  else none

/-- MBOX page (R394). -/
def State.mboxVal (s : State) (off : Nat) : Option Word :=
  let m := (s.fnOf s.mbSel).mb
  if off = 0x048 then some (s.readMbStatM s.mbSel)
  else if 0x060 ≤ off ∧ off < 0x080 then some (s.readMbPend ((off - 0x060) / 4))
  else if 0x100 ≤ off ∧ off < 0x180 then some (Tbl.get 0 m.tm ((off - 0x100) / 4))
  else if 0x180 ≤ off ∧ off < 0x200 then some (Tbl.get 0 m.tt ((off - 0x180) / 4))
  else none

/-- VF pages (R393). -/
def State.vfVal (s : State) (v off : Nat) : Option Word :=
  let m := (s.fnOf v).mb
  if off = 0x040 then some (w32 (s.fnOf v).st.code)
  else if off = 0x044 then some (s.fnOf v).gen
  else if off = 0x04C then some (s.readVfRes v)
  else if off = 0x054 then some (s.readMbStatT v)
  else if 0x100 ≤ off ∧ off < 0x180 then some (Tbl.get 0 m.tm ((off - 0x100) / 4))
  else if 0x180 ≤ off ∧ off < 0x200 then some (Tbl.get 0 m.tt ((off - 0x180) / 4))
  else if 0x400 ≤ off ∧ off < 0x800 then some (s.readQueue v ((off - 0x400) / 0x40) (off % 0x40))
  else none

/-- Value that the hardware drives at an offset of a page; `none` where the register reads what is stored. -/
def State.driven (s : State) (p : Page) (off : Nat) : Option Word :=
  if off < 0x40 then s.headerVal p off
  else match p.kind with
  | .chip => s.chipVal off
  | .fault => s.faultVal off
  | .time => s.timeVal off
  | .runord => s.runordVal off
  | .pwr => s.pwrVal off
  | .life => if off = 0x040 then some s.readLogStat else if off = 0x054 then some (w32 s.poh) else if off = 0x058 then some (w32 (s.poh / 2 ^ 32)) else none
  | .stage => s.stageVal p.inst off
  | .stgh => s.stghVal off
  | .clus => s.clusVal p.inst off
  | .hbmc => s.hbmcVal p.inst off
  | .hash => s.hashVal off
  | .glink => s.glinkVal p.inst off
  | .fabric => s.fabricVal off
  | .rdsp => s.rdspVal p.inst off
  | .fft | .ldpc | .polar | .chirp => s.accelVal p.kind p.inst off
  | .eth | .tmgr => none
  | .host => s.hostVal off
  | .mbox => s.mboxVal off
  | .vf => s.vfVal p.inst off
  | .optm => if off = 0x04C then some (s.readOnHrs p.inst) else none
  | .dbg => if off = 0x040 then some (w32 (bn s.sec.debugOpen)) else none

/-- What a register reads as, its read's effects apart: what the hardware drives, else what is stored; 0 at an undefined
offset (R9). -/
def State.regVal (s : State) (p : Page) (off : Nat) : Word :=
  match regSpec p.kind off with
  | none => 0
  | some _ => (s.driven p off).getD (s.rg (p.base + off))

/-! ## Reads with effects -/

/-- A register read that changes state, at an offset of a page; `none` where the read of the register changes nothing. -/
def State.readActs (s : State) (p : Page) (off : Nat) : Option State :=
  match p.kind with
  | .chip => if off = 0x04C then some s.readDmapData else none
  | .fault => if off = 0x050 then some s.readFqSrc else none
  | .time =>
    if 0x100 ≤ off ∧ off < 0x300 ∧ off % 0x40 = 0x04 then some (s.readTbNs ((off - 0x100) / 0x40))
    else if off = 0x304 then some s.readLtc
    else if 0x600 ≤ off ∧ off < 0x700 ∧ off % 0x20 = 0x04 then some (s.readTci ((off - 0x600) / 0x20))
    else if off = 0x860 then some s.readTxts
    else none
  | .runord =>
    if off = 0x05C then some s.readRoTbl
    else if off = 0x064 then some s.readRoBind
    else if off = 0x044 ∧ s.ro.realign then
      some (({ s with free := s.free + 1 } : State).answer
        (setFld ((s.runordVal 0x044).getD 0) 16 12 (fld (Config.freeWord s.free) 0 12)))
    else none
  | .life => if off = 0x064 then some (s.readRdData true) else none
  | .rdsp => if off = 0x064 then some (s.pmemAccess p.inst false 0) else none
  | .fabric => if off = 0x06C then some s.readLost else none
  | .host => if off = 0x06C then some s.readExtData else none
  | .dbg =>
    if off = 0x040 then
      some (({ s with free := s.free + 1 } : State).answer
        (w32 (bn s.sec.debugOpen + 2 * fld (Config.freeWord s.free) 0 1)))
    else none
  | _ => none

/-- A 32-bit read of a page's register by a requestor. The halves of a pair that a read of another register latches are plain
registers (R12): `TB_SEC`, `TCI_SEC` and `TXTS_SEC`. -/
def State.pageRead (s : State) (req : Requestor) (p : Page) (off : Nat) : State :=
  match regSpec p.kind off with
  | none => s.answer 0
  | some r =>
    match (if off < 0x40 then none else s.readActs p off) with
    | some s => s
    | none =>
      match r.pair with
      | .none => s.answer (s.regVal p off)
      | .lo => s.readLo req (p.base + off) ((s.regVal p off).toNat + 2 ^ 32 * (s.regVal p (off + 4)).toNat)
      | .hi => s.readHi req (p.base + off - 4)

/-- Whether a requestor's access reaches the registers: a PCIe port's does not before READY (R436). -/
def State.reaches (s : State) (req : Requestor) : Bool := s.boot.ready || decide (req = .fw)

/-- Whether a page is shut by a warm reset or by its domain's reset (R431, R463). -/
def State.pageShut (s : State) (p : Page) : Bool :=
  if s.rst.warm then p.kind != .pwr else s.rst.doms.contains (pageDomain p.kind p.inst)

/-- A hole answers 0 and raises 0x0101 (R460); its `PG_ERR_INFO` is not laid out (log 2). While a warm reset or that of E0
shuts the CHIP page, nothing is raised and all ones answer. -/
def State.hole (s : State) (write : Bool) : State :=
  if s.rst.warm then (if write then s else s.answer (BitVec.allOnes 32))
  else
    let s := if write then s else s.answer 0
    ({ s with free := s.free + 1 } : State).raise (pageAt .chip 0) 1 (Config.freeWord s.free)

/-- A 32-bit read at a BAR0 address. -/
def State.regRead (s : State) (req : Requestor) (a : Nat) : State :=
  if !s.reaches req then s
  else match pageOf (a / 4 * 4) with
  | none => s.hole false
  | some (p, off) => if s.pageShut p then s.answer (BitVec.allOnes 32) else s.pageRead req p off

/-- The addressed bytes of the word that a read returned: `n` bytes from address `a` (R7). -/
def addressed (x : BitVec 64) (a n : Nat) : BitVec 64 := BitVec.ofNat 64 (bits x.toNat (8 * (a % 4)) (8 * n))

/-- A read of any width (R7): a narrow one has the effects of the 32-bit read of its register and returns the addressed bytes;
a 64-bit one is two of 32 bits, the lower address first. -/
def State.busRead (s : State) (req : Requestor) (width : Width) (a : Nat) : State :=
  let t := s.regRead req a
  if !s.reaches req then t
  else match width with
  | .w8 => { t with rdata := addressed t.rdata a 1 }
  | .w16 => { t with rdata := addressed t.rdata a 2 }
  | .w32 => t
  | .w64 =>
    let u := t.regRead req (a / 4 * 4 + 4)
    { u with rdata := u.rdata <<< 32 ||| t.rdata }

/-- REGISTER_PAIR_LO_READ (R7, R12): a read of any register; that of a `_LO` half latches the high one. -/
def execRegisterPairLoRead (req : Requestor) (width : Width) (addr : BitVec 28) (s : State) :
    Host.Outcome State Fault Refusal :=
  perform s fun s => s.busRead req width addr.toNat

end Sys2Proof.Machine
end

