-- ==== Sys2Proof/Machine/RegAccess.lean ====
section
/-! DEFINITION. Register writes: what each register does with a written value, the widths and requestors of R7 and R464, and
the accesses to holes (R7 to R12, R460, R464 to R466). -/

namespace Sys2Proof.Machine

/-! ## Header (R397, R401, R466) -/

/-- A write of `PG_CTRL`. -/
def State.writePgCtrl (s : State) (p : Page) (v : Word) : State :=
  let a := p.base + 0x008
  let old := s.rg a
  let w := if fld v 2 2 < 2 then setFld old 2 2 (fld v 2 2) else old
  let w := if p.kind == .clus || p.kind == .rdsp then setFld w 0 1 (fld v 0 1) else w
  let s := s.setRg a w
  if fld v 1 1 = 1 then s.softReset p.base else s

/-- A write of a header register. -/
def State.writeHeader (s : State) (p : Page) (off : Nat) (v : Word) : State :=
  let a := p.base + off
  if off = 0x008 then s.writePgCtrl p v
  else if off = 0x010 then (if fld v 31 1 = 1 then s.releaseErr p false else s)
  else if off = 0x018 then (if fld v 0 1 = 1 then s.setRg a 0 else s)
  else if off = 0x030 then s.writeRange a v 0 8 1 255
  else if off = 0x034 then (if 1000 ≤ v.toNat then s.setRg a v else s)
  else s.storeAt a v

/-! ## Pairs: a write of `_HI` (R12) -/

/-- Whether a ring's address and size are locked: its queue is enabled, or a completion ring still has records to come. -/
def State.ringLocked (s : State) (p : Page) (off : Nat) : Bool :=
  match p.kind with
  | .host | .vf =>
    let v := p.inst
    let q := (off - 0x400) / 0x40
    let o := off % 0x40
    if off < 0x400 ∨ 0x800 ≤ off then false
    else if o = 0x08 ∨ o = 0x0C ∨ o = 0x10 then fld (s.rg (qreg v q 0)) 0 1 == 1
    else if o = 0x20 ∨ o = 0x24 ∨ o = 0x28 then
      fld (s.rg (qreg v q 0)) 0 1 == 1 || s.qDepth v q != 0 || fld (s.readQueue v q 4) 3 1 == 1
    else false
  | .time => (off == 0x840 || off == 0x844) && fld (s.pr .time 0 0x848) 8 1 == 1
  | .eth =>
    let o := off % 0x40
    decide (0x200 ≤ off) && decide (off < 0x600) && (o == 0x04 || o == 0x08 || o == 0x0C)
      && fld (s.rg (p.base + off / 0x40 * 0x40)) 0 1 == 1
  | .tmgr =>
    let o := off % 0x20
    decide (0x100 ≤ off) && decide (off < 0x500) && (o == 0x04 || o == 0x08 || o == 0x0C)
      && fld (s.rg (p.base + off / 0x20 * 0x20)) 0 1 == 1
  | _ => false

/-- A write of the `_HI` half at an offset: both halves are committed, with what the register does besides. -/
def State.writeHi (s : State) (req : Requestor) (p : Page) (off : Nat) (v : Word) : State :=
  let lo := p.base + off - 4
  match p.kind with
  | .hash => if off = 0x044 then s.writeXl req v else s.commitPair req lo v
  | .fabric =>
    if off = 0x064 then s.writeRtHi req v
    else if 0x400 ≤ off then s.commitGroup req ((off - 0x400) / 0x10) v
    else s.commitPair req lo v
  | .time =>
    if 0x100 ≤ off ∧ off < 0x300 ∧ off % 0x40 = 0x14 then s.incCommit req ((off - 0x100) / 0x40) v
    else
      let s := s.commitPair req lo v
      if 0x400 ≤ off ∧ off < 0x600 then s.writeTpoTime ((off - 0x400) / 0x20) else s
  | _ => s.commitPair req lo v

/-! ## Plain registers, page by page -/

/-- Store where a condition holds. -/
def State.storeIf (s : State) (ok : Bool) (a : Nat) (v : Word) : State := if ok then s.storeAt a v else s

/-- A write on the CHIP page (R29, R203, R204, R448). `LC_REQ` has a command of its own, which says whether the token's
signature verifies; of a plain write's token that is free (log 2). -/
def State.writeChip (s : State) (off : Nat) (v : Word) : State :=
  if off = 0x048 then s.writeDmapAddr v
  else if off = 0x088 then s.writeRange off v 0 15 1 16384
  else if off = 0x094 then s.writeUndCtrl v
  else if off = 0x098 then s.storeIf (decide (s.und.st = .none)) off v
  else if off = 0x0A0 then s.storeIf (fld v 0 16 != 0) off v
  else if off = 0x0F8 then (if fld v 0 1 = 1 then s.lcGo Config.tokenSigned else s)
  else if off = 0x10C then s.writeFwuCtrl v
  else s.storeAt off v

/-- A write on the TIME page (R309, R310). -/
def State.writeTime (s : State) (off : Nat) (v : Word) : State :=
  let a := pageAddr .time 0 + off
  if 0x100 ≤ off ∧ off < 0x300 ∧ off % 0x40 = 0x2C then s.writeTbCmd ((off - 0x100) / 0x40) v
  else if off = 0x310 then s.defer 8 (.ltc v.toNat)
  else if 0x400 ≤ off ∧ off < 0x600 then
    (let n := (off - 0x400) / 0x20
     let o := off % 0x20
     if o = 0 then s.writeTpoCtrl n v
     else if o = 0x04 ∨ o = 0x10 ∨ o = 0x14 then (s.storeAt a v).writeTpoTime n
     else s.storeAt a v)
  else if 0x600 ≤ off ∧ off < 0x700 ∧ off % 0x20 = 0 ∧ fld v 1 2 = 3 then s.storeAt a (setFld v 1 2 (fld (s.rg a) 1 2))
  else s.storeAt a v

/-- A write on the RUNORD page (R155, R173 to R175). -/
def State.writeRunord (s : State) (off : Nat) (v : Word) : State :=
  let a := pageAddr .runord 0 + off
  if off = 0x040 then s.writeRoCtrl v
  else if off = 0x048 then s.storeIf (decide (fld v 0 17 < periodNs (fld (s.pr .runord 0 0x040) 1 2))) a v
  else if off = 0x05C then s.writeRoTbl v
  else if off = 0x064 then s.writeRoBind v
  else s.storeAt a v

/-- A write on the FABRIC page (R371). -/
def State.writeFabric (s : State) (off : Nat) (v : Word) : State :=
  let a := pageAddr .fabric 0 + off
  if off = 0x040 then s.storeIf (fld (s.rg a) 31 1 == 0) a v
  else if off = 0x044 then (s.storeAt a v).sendHeld
  else if off = 0x048 then s.writeRange a v 0 8 1 255
  else if off = 0x04C then s.writeRange a v 0 4 1 15
  else if off = 0x050 then s.writeRange a v 0 16 10 10000
  else if off = 0x070 then s.revive (fld v 0 14)
  else if off = 0x0B0 then s.writeFabClr v
  else s.storeAt a v

/-- A write on an RDSP page (R217, R222, R229, R230). -/
def State.writeRdsp (s : State) (k off : Nat) (v : Word) : State :=
  let a := pageAddr .rdsp k + off
  if off = 0x048 then (let s := s.storeAt a (v &&& 0x1C); if fld v 5 1 = 1 then s.clearTrap k else s)
  else if off = 0x054 then s.writeIrqPend k v
  else if off = 0x064 then s.pmemAccess k true v
  else if off = 0x090 then s.dspClear k v
  else s.storeAt a v

/-- A write on an accelerator page (R264 to R266). -/
def State.writeAccel (s : State) (k : PageKind) (e off : Nat) (v : Word) : State :=
  let a := pageAddr k e + off
  if off = 0x064 then s.accelClear k e v
  else if k = .chirp ∧ off = 0x080 then
    (let v := if fld v 4 4 < 8 then setFld v 4 4 8 else v
     s.storeAt a (if fld v 8 5 = 0 then setFld v 8 5 1 else v))
  else if k = .chirp ∧ 0x800 ≤ off then s.writeChCfg e ((off - 0x800) / 4 / 128) ((off - 0x800) / 4 % 128) v
  else s.storeAt a v

/-- A write on an ETH or TMGR page (R269, R276, R278, R281, R286 to R288). -/
def State.writeEth (s : State) (p off : Nat) (v : Word) : State :=
  let a := pageAddr .eth p + off
  if off = 0x040 then s.writeEthCtrl p v
  else if 0x800 ≤ off then s.writeClass p ((off - 0x800) / 0x10) (off % 0x10 / 4) v
  else s.storeAt a v
def State.writeTmgr (s : State) (p off : Nat) (v : Word) : State :=
  let a := pageAddr .tmgr p + off
  if off = 0x040 then s.storeAt a (if fld v 24 8 = 0 then setFld v 24 8 1 else v)
  else if 0x800 ≤ off ∧ off % 0x20 < 0x14 then s.writeMeter p ((off - 0x800) / 0x20) (off % 0x20 / 4) v
  else if 0x100 ≤ off ∧ off < 0x500 ∧ off % 0x20 = 0x10 then s.writeTxTail p ((off - 0x100) / 0x20) v
  else if 0x100 ≤ off ∧ off < 0x500 ∧ off % 0x20 = 0x18 then s.storeAt a (if 400000 < fld v 0 19 then 400000 else v)
  else s.storeAt a v

/-- A write of a queue's register (R119 to R123). -/
def State.writeQueue (s : State) (v q o a : Nat) (w : Word) : State :=
  if o = 0 then s.writeQCtrl v q w
  else if o = 0x14 then s.writeQTail v q w
  else s.storeAt a w

/-- A write of `VF_CMD` (R382, R392): command codes 1 to 7. -/
def State.writeVfCmd (s : State) (v : Word) : State :=
  match fld v 0 4 with
  | 1 => s.vfSet s.vfSel
  | 2 => s.vfGo s.vfSel
  | 3 => s.vfStrike s.vfSel
  | 4 => s.vfFreeze s.vfSel
  | 5 => s.vfThaw s.vfSel
  | 6 => s.vfSave s.vfSel
  | 7 => s.vfRestore s.vfSel
  | _ => s

/-- A write on the HOST page (R119, R392). -/
def State.writeHost (s : State) (off : Nat) (v : Word) : State :=
  let a := pageAddr .host 0 + off
  if off = 0x048 then s.writeVfCmd v
  else if off = 0x06C then s.writeExtData v
  else if 0x080 ≤ off ∧ off ≤ 0x0E0 then s.writeGrant off v
  else if 0x200 ≤ off ∧ off < 0x400 then s.writePart ((off - 0x200) / 0x20) (off % 0x20 / 4) v
  else if 0x400 ≤ off ∧ off < 0x800 then s.writeQueue 0 ((off - 0x400) / 0x40) (off % 0x40) a v
  else s.storeAt a v

/-- A write on the MBOX page (R387, R394). -/
def State.writeMbox (s : State) (off : Nat) (v : Word) : State :=
  let a := pageAddr .mbox 0 + off
  if off = 0x040 then s.storeIf (fld v 0 8 != 0) a v
  else if off = 0x044 then s.writeTtDb (fld v 0 8)
  else if off = 0x048 then s.writeMbStat s.mbSel true v
  else if 0x180 ≤ off ∧ off < 0x200 then (if s.mbOpen s.mbSel then s.mbStoreTt s.mbSel ((off - 0x180) / 4) v else s)
  else s.storeAt a v

/-- A write on a VF page (R119, R387, R393). -/
def State.writeVf (s : State) (f off : Nat) (v : Word) : State :=
  let a := pageAddr .vf f + off
  if off = 0x050 then s.writeTmDb f (fld v 0 8)
  else if off = 0x054 then s.writeMbStat f false v
  else if 0x100 ≤ off ∧ off < 0x180 then (if s.mbOpen f then s.mbStoreTm f ((off - 0x100) / 4) v else s)
  else if 0x400 ≤ off ∧ off < 0x800 then s.writeQueue f ((off - 0x400) / 0x40) (off % 0x40) a v
  else s.storeAt a v

/-- A write of a register that is neither in the header nor half of a pair. -/
def State.writePlain (s : State) (p : Page) (off : Nat) (v : Word) : State :=
  let a := p.base + off
  match p.kind with
  | .chip => s.writeChip off v
  | .fault => s.writeFaultReg off v
  | .time => s.writeTime off v
  | .runord => s.writeRunord off v
  | .pwr => if off = 0x068 then s.writePwrRst v else if off = 0x0A4 then s.writeClPwr v else s.writePwrReg off v
  | .life => if off = 0x068 then s.writeSnapNow v else s.storeAt a v
  | .stage => if off = 0x040 then s.writeSmCtrl v else s.storeAt a v
  | .stgh =>
    if off = 0x040 then s.writeRange a v 0 14 1 10000 else if off = 0x044 then s.writeRange a v 0 8 1 100 else s.storeAt a v
  | .clus => if off = 0x098 then s.clrClus p.inst v else s.storeAt a v
  | .hbmc =>
    if off = 0x080 then s.writeRange a v 0 8 1 255 else if off = 0x084 then s.writeHbmcClr p.inst v else s.storeAt a v
  | .hash =>
    if off = 0x060 then s.writeRange a v 0 8 1 168 else if off = 0x064 then s.writeRange a v 0 16 10 60000 else s.storeAt a v
  | .glink =>
    if off = 0x040 then s.writeGlCtrl p.inst v else if off = 0x084 then s.writeGlClr p.inst v else s.storeAt a v
  | .fabric => s.writeFabric off v
  | .rdsp => s.writeRdsp p.inst off v
  | .fft | .ldpc | .polar | .chirp => s.writeAccel p.kind p.inst off v
  | .eth => s.writeEth p.inst off v
  | .tmgr => s.writeTmgr p.inst off v
  | .host => s.writeHost off v
  | .mbox => s.writeMbox off v
  | .vf => s.writeVf p.inst off v
  | .optm => if off = 0x040 ∧ fld v 8 8 = 0 then s.storeAt a (setFld v 8 8 1) else s.storeAt a v
  | .dbg => s.storeAt a v

/-- A 32-bit write to a page by a requestor: an undefined offset ignores it (R9); the halves of a pair stage and commit
(R12), unless both are read-only. -/
def State.pageWrite (s : State) (req : Requestor) (p : Page) (off : Nat) (v : Word) : State :=
  match regSpec p.kind off with
  | none => s
  | some r =>
    if off < 0x40 then s.writeHeader p off v
    else if s.ringLocked p off then s
    else match r.pair with
      | .none => s.writePlain p off v
      | .lo => if r.rw = 0 then s else s.stageLo req (p.base + off) v
      | .hi => if r.rw = 0 then s else s.writeHi req p off v

/-- A 32-bit write at a BAR0 address. -/
def State.regWrite (s : State) (req : Requestor) (a : Nat) (v : Word) : State :=
  if !s.reaches req then s
  else match pageOf (a / 4 * 4) with
  | none => s.hole true
  | some (p, off) => if s.pageShut p then s else s.pageWrite req p off v

/-- `PG_ERR_INFO` of the register access error (R7): the layout that the page's chapter gives its sources. A field holds the
code for "none" where it has one, what the register belongs to where that is a unit of its own, and the part of `w` that
falls into it otherwise; bits outside the layout are 0 (R8). Pages without a layout for this source have all of `w` (log 9). -/
def State.accessInfo (s : State) (req : Requestor) (p : Page) (off : Nat) (w : Word) : Word :=
  match p.kind with
  | .clus => 0x0000FFFF ||| (w &&& 0x0FFF0000)
  | .stage => 0x000FFF00 ||| (if req = .fw then w &&& 0xFF else 0)
  | .runord | .pwr => 0
  | .fft => 0x0FF
  | .ldpc => 0x0FF ||| (w &&& 0x700)
  | .polar => 0x3FF
  | .chirp => w32 (0x5FF + (if 0x800 ≤ off then (off - 0x800) / 4 % 128 * 2 ^ 11 else 0))
  | .glink =>
    w32 ((if 0x0C0 ≤ off ∧ off < 0x0E8 then (off - 0x0C0) / 4 else 0xF) + 16 * linkCode (s.linkOf p.inst).st)
  | .optm => 0xF
  | .fabric => w &&& 0x003F3FFF
  | .hbmc => w &&& 0x03FFFFFF
  | .rdsp => w &&& 0x0007FFFF
  | .eth => if 0x200 ≤ off ∧ off < 0x600 then (w &&& 0x3) ||| w32 ((off - 0x200) / 0x40 * 16) else w &&& 0xF3
  | .tmgr => if 0x100 ≤ off ∧ off < 0x500 then w32 ((off - 0x100) / 0x20) else w &&& 0x1F
  | .time => if 0x100 ≤ off ∧ off < 0x300 then w32 ((off - 0x100) / 0x40) ||| (w &&& 0x7F0) else w &&& 0x7F7
  | .host => if 0x400 ≤ off ∧ off < 0x800 then w32 ((off - 0x400) / 0x40 * 256) else w &&& 0xF00
  | .vf => w32 p.inst ||| (if 0x400 ≤ off ∧ off < 0x800 then w32 ((off - 0x400) / 0x40 * 256) else w &&& 0xF00)
  | .fault => w &&& 0x0F01FF1F
  | .chip | .life | .stgh | .hash | .mbox | .dbg => w

/-- An 8-bit or 16-bit write: a register discards it and its page raises the register access error (R7); at an undefined
offset nothing happens (R9). A word that a register table lists as reserved, without a name (`headerRegs`), is taken as an
undefined offset here: the manual does not say which of the two it is (DESIGN CHOICE, log 54). -/
def State.narrowWrite (s : State) (req : Requestor) (a : Nat) : State :=
  if !s.reaches req then s
  else match pageOf (a / 4 * 4) with
  | none => s.hole true
  | some (p, off) =>
    if s.pageShut p then s
    else match regSpec p.kind off with
      | none => s
      | some _ => ({ s with free := s.free + 1 } : State).raise p 0 (s.accessInfo req p off (Config.freeWord s.free))

/-- A write of any width: a 64-bit one is two of 32 bits, the lower address first (R7). -/
def State.busWrite (s : State) (req : Requestor) (width : Width) (a : Nat) (v : BitVec 64) : State :=
  match width with
  | .w8 | .w16 => s.narrowWrite req a
  | .w32 => s.regWrite req a (v.truncate 32)
  | .w64 => (s.regWrite req a (v.truncate 32)).regWrite req (a / 4 * 4 + 4) (w32 (v.toNat / 2 ^ 32))

/-- REGISTER_WRITE (R7 to R12). -/
def execRegisterWrite (req : Requestor) (width : Width) (addr : BitVec 28) (val : BitVec 64) (s : State) :
    Host.Outcome State Fault Refusal :=
  perform s fun s => s.busWrite req width addr.toNat val

/-- REGISTER_PAIR_HI_WRITE (R12). -/
def execRegisterPairHiWrite (req : Requestor) (addr : BitVec 28) (val : BitVec 32) (s : State) :
    Host.Outcome State Fault Refusal :=
  perform s fun s => s.regWrite req addr.toNat val

/-- HOLE_ACCESS (R460): at an address that lies in a page there is no hole, and nothing happens. -/
def execHoleAccess (req : Requestor) (write : Bool) (addr : BitVec 28) (val : BitVec 32) (s : State) :
    Host.Outcome State Fault Refusal :=
  perform s fun s =>
    match pageOf (addr.toNat / 4 * 4) with
    | some _ => s
    | none => if write then s.regWrite req addr.toNat val else s.regRead req addr.toNat

end Sys2Proof.Machine
end

