-- ==== Sys2Proof/Machine/Dispatch.lean ====
section
/-! DEFINITION. What each command does: one direct call of its meaning per constructor. -/

namespace Sys2Proof.Machine

/-- The effect of a command on everything but the queue. -/
def exec (i : Instr) (s : State) : Host.Outcome State Fault Refusal :=
  match i with
  | .registerWrite req width addr val => Sys2Proof.Machine.execRegisterWrite req width addr val s
  | .registerPairLoRead req width addr => Sys2Proof.Machine.execRegisterPairLoRead req width addr s
  | .registerPairHiWrite req addr val => Sys2Proof.Machine.execRegisterPairHiWrite req addr val s
  | .holeAccess req write addr val => Sys2Proof.Machine.execHoleAccess req write addr val s
  | .bringInStart die => Sys2Proof.Machine.execBringInStart die s
  | .bringInAttemptComplete die pass => Sys2Proof.Machine.execBringInAttemptComplete die pass s
  | .bringInResumeAfterReset => Sys2Proof.Machine.execBringInResumeAfterReset s
  | .dmapSnapshotLatch val => Sys2Proof.Machine.execDmapSnapshotLatch val s
  | .dmapDataRead => Sys2Proof.Machine.execDmapDataRead s
  | .hdr sq => Sys2Proof.Machine.execHdr sq s
  | .descriptorDispatch sq => Sys2Proof.Machine.execDescriptorDispatch sq s
  | .tokenWaitSatisfied sq eng => Sys2Proof.Machine.execTokenWaitSatisfied sq eng s
  | .descriptorComplete sq eng => Sys2Proof.Machine.execDescriptorComplete sq eng s
  | .loop sq => Sys2Proof.Machine.execLoop sq s
  | .setcnt sq => Sys2Proof.Machine.execSetcnt sq s
  | .brk sq => Sys2Proof.Machine.execBrk sq s
  | .call sq => Sys2Proof.Machine.execCall sq s
  | .token sq => Sys2Proof.Machine.execToken sq s
  | .endStream sq => Sys2Proof.Machine.execEndStream sq s
  | .mma cl u => Sys2Proof.Machine.execMma cl u s
  | .mmaQuad cl u => Sys2Proof.Machine.execMmaQuad cl u s
  | .vmap cl residue others => Sys2Proof.Machine.execVmap cl residue others s
  | .vred cl residue others => Sys2Proof.Machine.execVred cl residue others s
  | .vcvt cl residue others => Sys2Proof.Machine.execVcvt cl residue others s
  | .get cl mv others => Sys2Proof.Machine.execGet cl mv others s
  | .put cl mv others => Sys2Proof.Machine.execPut cl mv others s
  | .atomic cl mv others => Sys2Proof.Machine.execAtomic cl mv others s
  | .fence cl mv => Sys2Proof.Machine.execFence cl mv s
  | .job tile => Sys2Proof.Machine.execJob tile s
  | .callStart th => Sys2Proof.Machine.execCallStart th s
  | .callReturn th => Sys2Proof.Machine.execCallReturn th s
  | .fill th => Sys2Proof.Machine.execFill th s
  | .copy th => Sys2Proof.Machine.execCopy th s
  | .gatherRows th => Sys2Proof.Machine.execGatherRows th s
  | .scatterRows th => Sys2Proof.Machine.execScatterRows th s
  | .allreduce th others => Sys2Proof.Machine.execAllreduce th others s
  | .reduceScatter th others => Sys2Proof.Machine.execReduceScatter th others s
  | .allgather th others => Sys2Proof.Machine.execAllgather th others s
  | .broadcast th data => Sys2Proof.Machine.execBroadcast th data s
  | .alltoall th others => Sys2Proof.Machine.execAlltoall th others s
  | .barrier th => Sys2Proof.Machine.execBarrier th s
  | .digestRegion th => Sys2Proof.Machine.execDigestRegion th s
  | .semArrive th => Sys2Proof.Machine.execSemArrive th s
  | .timeRead th => Sys2Proof.Machine.execTimeRead th s
  | .mboxPost th => Sys2Proof.Machine.execMboxPost th s
  | .threadWatchdogExpire th => Sys2Proof.Machine.execThreadWatchdogExpire th s
  | .heartbeatRefresh core => Sys2Proof.Machine.execHeartbeatRefresh core s
  | .heartbeatMissed core => Sys2Proof.Machine.execHeartbeatMissed core s
  | .queueDoorbell fn q tail => Sys2Proof.Machine.execQueueDoorbell fn q tail s
  | .queueEnableWrite fn q val => Sys2Proof.Machine.execQueueEnableWrite fn q val s
  | .entryAccept fn q tailOk => Sys2Proof.Machine.execEntryAccept fn q tailOk s
  | .completionWrite fn q => Sys2Proof.Machine.execCompletionWrite fn q s
  | .cqHeadWrite fn q val => Sys2Proof.Machine.execCqHeadWrite fn q val s
  | .queueWatchdogExpire fn q => Sys2Proof.Machine.execQueueWatchdogExpire fn q s
  | .taskPlace item task => Sys2Proof.Machine.execTaskPlace item task s
  | .taskFirstDispatch item task => Sys2Proof.Machine.execTaskFirstDispatch item task s
  | .taskComplete item task pbOk => Sys2Proof.Machine.execTaskComplete item task pbOk s
  | .returnedReportWrite => Sys2Proof.Machine.execReturnedReportWrite s
  | .smCtrlWrite inst val => Sys2Proof.Machine.execSmCtrlWrite inst val s
  | .sceneBoundary => Sys2Proof.Machine.execSceneBoundary s
  | .leadPoint lc maint => Sys2Proof.Machine.execLeadPoint lc maint s
  | .roCommit val => Sys2Proof.Machine.execRoCommit val s
  | .roCommitApply => Sys2Proof.Machine.execRoCommitApply s
  | .roBankCopyComplete => Sys2Proof.Machine.execRoBankCopyComplete s
  | .realignStart => Sys2Proof.Machine.execRealignStart s
  | .realignEnd => Sys2Proof.Machine.execRealignEnd s
  | .roTblDataAccess write val => Sys2Proof.Machine.execRoTblDataAccess write val s
  | .roBindDataAccess write val => Sys2Proof.Machine.execRoBindDataAccess write val s
  | .accelJobStart tile cls eng => Sys2Proof.Machine.execAccelJobStart tile cls eng s
  | .curtainPassed item => Sys2Proof.Machine.execCurtainPassed item s
  | .kstepIssue cl u others => Sys2Proof.Machine.execKstepIssue cl u others s
  | .accumulatorUpdate cl u residue ecc => Sys2Proof.Machine.execAccumulatorUpdate cl u residue ecc s
  | .bankRequestAged cl client => Sys2Proof.Machine.execBankRequestAged cl client s
  | .fadeStep cl u => Sys2Proof.Machine.execFadeStep cl u s
  | .beatEnd cl u => Sys2Proof.Machine.execBeatEnd cl u s
  | .tileReadout cl u ecc others => Sys2Proof.Machine.execTileReadout cl u ecc others s
  | .spillComplete cl u ecc others => Sys2Proof.Machine.execSpillComplete cl u ecc others s
  | .restoreComplete cl u => Sys2Proof.Machine.execRestoreComplete cl u s
  | .streamResume cl => Sys2Proof.Machine.execStreamResume cl s
  | .clusCntClrNumeric cl => Sys2Proof.Machine.execClusCntClrNumeric cl s
  | .clusCntClrActivity cl => Sys2Proof.Machine.execClusCntClrActivity cl s
  | .clusCntClrResidue cl => Sys2Proof.Machine.execClusCntClrResidue cl s
  | .dspTaskStart core => Sys2Proof.Machine.execDspTaskStart core s
  | .nop core slot => Sys2Proof.Machine.execNop core slot s
  | .cmac core slot => Sys2Proof.Machine.execCmac core slot s
  | .cmacj core slot => Sys2Proof.Machine.execCmacj core slot s
  | .cmacb core slot => Sys2Proof.Machine.execCmacb core slot s
  | .acclr core slot => Sys2Proof.Machine.execAcclr core slot s
  | .cmul core slot => Sys2Proof.Machine.execCmul core slot s
  | .rnd core slot => Sys2Proof.Machine.execRnd core slot s
  | .vadd core slot => Sys2Proof.Machine.execVadd core slot s
  | .vsub core slot => Sys2Proof.Machine.execVsub core slot s
  | .vand core slot => Sys2Proof.Machine.execVand core slot s
  | .vor core slot => Sys2Proof.Machine.execVor core slot s
  | .vxor core slot => Sys2Proof.Machine.execVxor core slot s
  | .vshr core slot => Sys2Proof.Machine.execVshr core slot s
  | .ld core slot => Sys2Proof.Machine.execLd core slot s
  | .st core slot => Sys2Proof.Machine.execSt core slot s
  | .lda core slot => Sys2Proof.Machine.execLda core slot s
  | .sta core slot => Sys2Proof.Machine.execSta core slot s
  | .adda core slot => Sys2Proof.Machine.execAdda core slot s
  | .moval core slot => Sys2Proof.Machine.execMoval core slot s
  | .movah core slot => Sys2Proof.Machine.execMovah core slot s
  | .dspLoop core => Sys2Proof.Machine.execDspLoop core s
  | .loopi core => Sys2Proof.Machine.execLoopi core s
  | .movl core => Sys2Proof.Machine.execMovl core s
  | .brkl core => Sys2Proof.Machine.execBrkl core s
  | .br core => Sys2Proof.Machine.execBr core s
  | .dspCall core => Sys2Proof.Machine.execDspCall core s
  | .ret core => Sys2Proof.Machine.execRet core s
  | .rti core => Sys2Proof.Machine.execRti core s
  | .tret core => Sys2Proof.Machine.execTret core s
  | .movb core => Sys2Proof.Machine.execMovb core s
  | .signal core => Sys2Proof.Machine.execSignal core s
  | .setim core => Sys2Proof.Machine.execSetim core s
  | .dspResultWrite core => Sys2Proof.Machine.execDspResultWrite core s
  | .hzTrapResume core => Sys2Proof.Machine.execHzTrapResume core s
  | .dspTimerCompare core => Sys2Proof.Machine.execDspTimerCompare core s
  | .dspSoftIrqSet core val => Sys2Proof.Machine.execDspSoftIrqSet core val s
  | .interruptAccept core => Sys2Proof.Machine.execInterruptAccept core s
  | .dspStop core => Sys2Proof.Machine.execDspStop core s
  | .dspMemoryError core mem off flips => Sys2Proof.Machine.execDspMemoryError core mem off flips s
  | .blockMoverStart core => Sys2Proof.Machine.execBlockMoverStart core s
  | .blockMoverComplete core => Sys2Proof.Machine.execBlockMoverComplete core s
  | .pmemDataAccess core write val => Sys2Proof.Machine.execPmemDataAccess core write val s
  | .dspCntClr core val => Sys2Proof.Machine.execDspCntClr core val s
  | .fftJob tile eng => Sys2Proof.Machine.execFftJob tile eng s
  | .ldpcDecodeJob tile eng => Sys2Proof.Machine.execLdpcDecodeJob tile eng s
  | .ldpcEncodeJob tile eng => Sys2Proof.Machine.execLdpcEncodeJob tile eng s
  | .polarEncodeJob tile eng => Sys2Proof.Machine.execPolarEncodeJob tile eng s
  | .polarDecodeJob tile eng => Sys2Proof.Machine.execPolarDecodeJob tile eng s
  | .crcAppend tile eng => Sys2Proof.Machine.execCrcAppend tile eng s
  | .crcCheck tile eng => Sys2Proof.Machine.execCrcCheck tile eng s
  | .scrBits tile eng => Sys2Proof.Machine.execScrBits tile eng s
  | .scrLlr tile eng => Sys2Proof.Machine.execScrLlr tile eng s
  | .seq tile eng => Sys2Proof.Machine.execSeq tile eng s
  | .chirpJob tile bank => Sys2Proof.Machine.execChirpJob tile bank s
  | .accelJobComplete tile cls eng cycles => Sys2Proof.Machine.execAccelJobComplete tile cls eng cycles s
  | .accelEngineError tile cls eng residue flips => Sys2Proof.Machine.execAccelEngineError tile cls eng residue flips s
  | .chirpWindowEnd tile bank ch => Sys2Proof.Machine.execChirpWindowEnd tile bank ch s
  | .chirpSyncTimeout tile bank ch => Sys2Proof.Machine.execChirpSyncTimeout tile bank ch s
  | .chirpCandidateExpire tile bank ch => Sys2Proof.Machine.execChirpCandidateExpire tile bank ch s
  | .chCfgWrite tile bank ch val => Sys2Proof.Machine.execChCfgWrite tile bank ch val s
  | .accelCntClrJobs tile kind => Sys2Proof.Machine.execAccelCntClrJobs tile kind s
  | .accelCntClrBanks tile => Sys2Proof.Machine.execAccelCntClrBanks tile s
  | .frameReceive port sp frame fcsOk fecCorr fecBad => Sys2Proof.Machine.execFrameReceive port sp frame fcsOk fecCorr fecBad s
  | .rxFrameDeliver port => Sys2Proof.Machine.execRxFrameDeliver port s
  | .ptpFrameReceive port sp frame => Sys2Proof.Machine.execPtpFrameReceive port sp frame s
  | .classEntryCommit port entry val => Sys2Proof.Machine.execClassEntryCommit port entry val s
  | .meterConfigWrite port meter reg val => Sys2Proof.Machine.execMeterConfigWrite port meter reg val s
  | .ethModeWrite port val => Sys2Proof.Machine.execEthModeWrite port val s
  | .ethLinkLost port sp => Sys2Proof.Machine.execEthLinkLost port sp s
  | .txqDoorbell port q val => Sys2Proof.Machine.execTxqDoorbell port q val s
  | .txFrameFetch port q => Sys2Proof.Machine.execTxFrameFetch port q s
  | .txFrameStart port sp => Sys2Proof.Machine.execTxFrameStart port sp s
  | .txFrameComplete port sp => Sys2Proof.Machine.execTxFrameComplete port sp s
  | .tbIncCommit req b val => Sys2Proof.Machine.execTbIncCommit req b val s
  | .tbStep b => Sys2Proof.Machine.execTbStep b s
  | .tbSet b alsoStep => Sys2Proof.Machine.execTbSet b alsoStep s
  | .ltcSet val => Sys2Proof.Machine.execLtcSet val s
  | .timeApplyTick => Sys2Proof.Machine.execTimeApplyTick s
  | .tbNsRead b => Sys2Proof.Machine.execTbNsRead b s
  | .ltcNsRead => Sys2Proof.Machine.execLtcNsRead s
  | .timeStateCheck die flips => Sys2Proof.Machine.execTimeStateCheck die flips s
  | .tpoPulseStart n => Sys2Proof.Machine.execTpoPulseStart n s
  | .tpoPulseEnd n => Sys2Proof.Machine.execTpoPulseEnd n s
  | .tciEdge n rising => Sys2Proof.Machine.execTciEdge n rising s
  | .tciNsRead n => Sys2Proof.Machine.execTciNsRead n s
  | .txtsInfoRead => Sys2Proof.Machine.execTxtsInfoRead s
  | .hbmRead line spec retried flips => Sys2Proof.Machine.execHbmRead line spec retried flips s
  | .hbmWrite line data poison => Sys2Proof.Machine.execHbmWrite line data poison s
  | .hbmPartialWrite line first data => Sys2Proof.Machine.execHbmPartialWrite line first data s
  | .correctedWriteBack line => Sys2Proof.Machine.execCorrectedWriteBack line s
  | .hbmScrubRead ch flips => Sys2Proof.Machine.execHbmScrubRead ch flips s
  | .csScrubRead cl flips => Sys2Proof.Machine.execCsScrubRead cl flips s
  | .rowRepairPpr ch => Sys2Proof.Machine.execRowRepairPpr ch s
  | .rowRepairComplete ch ok => Sys2Proof.Machine.execRowRepairComplete ch ok s
  | .wipeStart scope => Sys2Proof.Machine.execWipeStart scope s
  | .wipeComplete scope => Sys2Proof.Machine.execWipeComplete scope s
  | .wipeTimeout => Sys2Proof.Machine.execWipeTimeout s
  | .xlTranslate req val => Sys2Proof.Machine.execXlTranslate req val s
  | .hbmcCntClr ch val => Sys2Proof.Machine.execHbmcCntClr ch val s
  | .hbmTempPoll stack temp => Sys2Proof.Machine.execHbmTempPoll stack temp s
  | .linkEnable l => Sys2Proof.Machine.execLinkEnable l s
  | .linkDisable l => Sys2Proof.Machine.execLinkDisable l s
  | .linkFarEndDetected l lanes => Sys2Proof.Machine.execLinkFarEndDetected l lanes s
  | .linkTrainComplete l lanes => Sys2Proof.Machine.execLinkTrainComplete l lanes s
  | .linkTrainTimeout l => Sys2Proof.Machine.execLinkTrainTimeout l s
  | .linkConfigComplete l peerNode peerLink peerLr peerMap => Sys2Proof.Machine.execLinkConfigComplete l peerNode peerLink peerLr peerMap s
  | .linkRetrainComplete l lanes => Sys2Proof.Machine.execLinkRetrainComplete l lanes s
  | .linkRetrainTimeout l => Sys2Proof.Machine.execLinkRetrainTimeout l s
  | .linkFarEndLost l => Sys2Proof.Machine.execLinkFarEndLost l s
  | .linkDownTimeout l => Sys2Proof.Machine.execLinkDownTimeout l s
  | .linkDampRelease l => Sys2Proof.Machine.execLinkDampRelease l s
  | .glRetrain l => Sys2Proof.Machine.execGlRetrain l s
  | .glUndamp l => Sys2Proof.Machine.execGlUndamp l s
  | .glForce l lane => Sys2Proof.Machine.execGlForce l lane s
  | .glReturn l => Sys2Proof.Machine.execGlReturn l s
  | .glCntClr l val => Sys2Proof.Machine.execGlCntClr l val s
  | .flitReceive l flit => Sys2Proof.Machine.execFlitReceive l flit s
  | .nakReceive l fack => Sys2Proof.Machine.execNakReceive l fack s
  | .laneLockLost l lane => Sys2Proof.Machine.execLaneLockLost l lane s
  | .laneHardFail l lane => Sys2Proof.Machine.execLaneHardFail l lane s
  | .rd r => Sys2Proof.Machine.execRd r s
  | .wr r => Sys2Proof.Machine.execWr r s
  | .atom r => Sys2Proof.Machine.execAtom r s
  | .flush r => Sys2Proof.Machine.execFlush r s
  | .tagrel r => Sys2Proof.Machine.execTagrel r s
  | .mirw r => Sys2Proof.Machine.execMirw r s
  | .mirc r => Sys2Proof.Machine.execMirc r s
  | .rdrsp h rid poison data => Sys2Proof.Machine.execRdrsp h rid poison data s
  | .ack h seqNo epoch => Sys2Proof.Machine.execAck h seqNo epoch s
  | .atrsp h rid old => Sys2Proof.Machine.execAtrsp h rid old s
  | .err h rid seqNo status => Sys2Proof.Machine.execErr h rid seqNo status s
  | .busyRetry dst seqNo => Sys2Proof.Machine.execBusyRetry dst seqNo s
  | .ackTimer src => Sys2Proof.Machine.execAckTimer src s
  | .e2eRetransmit dst seqNo => Sys2Proof.Machine.execE2eRetransmit dst seqNo s
  | .unreachableTimeout dst => Sys2Proof.Machine.execUnreachableTimeout dst s
  | .revive node => Sys2Proof.Machine.execRevive node s
  | .routeEntryCommit req val => Sys2Proof.Machine.execRouteEntryCommit req val s
  | .lostDataRead => Sys2Proof.Machine.execLostDataRead s
  | .groupCommit req g val => Sys2Proof.Machine.execGroupCommit req g val s
  | .fabricCntClr val => Sys2Proof.Machine.execFabricCntClr val s
  | .mirrorHeartbeat h => Sys2Proof.Machine.execMirrorHeartbeat h s
  | .leadSuspect => Sys2Proof.Machine.execLeadSuspect s
  | .witnessQuery asker lead => Sys2Proof.Machine.execWitnessQuery asker lead s
  | .witnessAnswer w heard => Sys2Proof.Machine.execWitnessAnswer w heard s
  | .takeoverNotice l lead und => Sys2Proof.Machine.execTakeoverNotice l lead und s
  | .moduleInsert m ident => Sys2Proof.Machine.execModuleInsert m ident s
  | .moduleRemove m => Sys2Proof.Machine.execModuleRemove m s
  | .modulePoll m obs => Sys2Proof.Machine.execModulePoll m obs s
  | .optIntAssert flags => Sys2Proof.Machine.execOptIntAssert flags s
  | .undStart => Sys2Proof.Machine.execUndStart s
  | .undEnd => Sys2Proof.Machine.execUndEnd s
  | .undGoOn => Sys2Proof.Machine.execUndGoOn s
  | .undSyncComplete => Sys2Proof.Machine.execUndSyncComplete s
  | .undDigestCompare seqNo task => Sys2Proof.Machine.execUndDigestCompare seqNo task s
  | .undLeadLost => Sys2Proof.Machine.execUndLeadLost s
  | .set => Sys2Proof.Machine.execSet s
  | .go => Sys2Proof.Machine.execGo s
  | .strike => Sys2Proof.Machine.execStrike s
  | .freeze => Sys2Proof.Machine.execFreeze s
  | .thaw => Sys2Proof.Machine.execThaw s
  | .save => Sys2Proof.Machine.execSave s
  | .restore => Sys2Proof.Machine.execRestore s
  | .vfFlr v => Sys2Proof.Machine.execVfFlr v s
  | .pfFlr => Sys2Proof.Machine.execPfFlr s
  | .vfEnableClear => Sys2Proof.Machine.execVfEnableClear s
  | .freezeQuiet v => Sys2Proof.Machine.execFreezeQuiet v s
  | .strikeQuiesced v => Sys2Proof.Machine.execStrikeQuiesced v s
  | .strikeComplete v => Sys2Proof.Machine.execStrikeComplete v s
  | .extDataAccess write val => Sys2Proof.Machine.execExtDataAccess write val s
  | .mbTmDoorbell v count => Sys2Proof.Machine.execMbTmDoorbell v count s
  | .mbTtDoorbell count => Sys2Proof.Machine.execMbTtDoorbell count s
  | .mbPendClear v byManager => Sys2Proof.Machine.execMbPendClear v byManager s
  | .pcieLinkDown p => Sys2Proof.Machine.execPcieLinkDown p s
  | .perstRelease p => Sys2Proof.Machine.execPerstRelease p s
  | .atsInvalidation fn page => Sys2Proof.Machine.execAtsInvalidation fn page s
  | .ideKeyProgram p stream => Sys2Proof.Machine.execIdeKeyProgram p stream s
  | .ideIntegrityFail p stream => Sys2Proof.Machine.execIdeIntegrityFail p stream s
  | .severityBucketExpire addr => Sys2Proof.Machine.execSeverityBucketExpire addr s
  | .pgErrRelease addr persists => Sys2Proof.Machine.execPgErrRelease addr persists s
  | .pgErrOvfClear addr => Sys2Proof.Machine.execPgErrOvfClear addr s
  | .faultPinMinEnd => Sys2Proof.Machine.execFaultPinMinEnd s
  | .alertPendClear val => Sys2Proof.Machine.execAlertPendClear val s
  | .pldmEventAck bit => Sys2Proof.Machine.execPldmEventAck bit s
  | .fqSrcRead => Sys2Proof.Machine.execFqSrcRead s
  | .thermalSample sensor temp => Sys2Proof.Machine.execThermalSample sensor temp s
  | .droopDetect det cl => Sys2Proof.Machine.execDroopDetect det cl s
  | .marginSample island ps => Sys2Proof.Machine.execMarginSample island ps s
  | .eventRecordWrite ok left => Sys2Proof.Machine.execEventRecordWrite ok left s
  | .snapshot ageing => Sys2Proof.Machine.execSnapshot ageing s
  | .snapNow val => Sys2Proof.Machine.execSnapNow val s
  | .dailySummary => Sys2Proof.Machine.execDailySummary s
  | .logRdDataRead crcOk => Sys2Proof.Machine.execLogRdDataRead crcOk s
  | .getLogInfo => Sys2Proof.Machine.execGetLogInfo s
  | .readLog off len => Sys2Proof.Machine.execReadLog off len s
  | .pldmSensorRead sel => Sys2Proof.Machine.execPldmSensorRead sel s
  | .powerSample watts deciAmps => Sys2Proof.Machine.execPowerSample watts deciAmps s
  | .ceilingStep lever => Sys2Proof.Machine.execCeilingStep lever s
  | .opStepComplete q ok => Sys2Proof.Machine.execOpStepComplete q ok s
  | .clusterDim cl => Sys2Proof.Machine.execClusterDim cl s
  | .clusterDark unit => Sys2Proof.Machine.execClusterDark unit s
  | .clusterWakeComplete cl us => Sys2Proof.Machine.execClusterWakeComplete cl us s
  | .clPwrForce val => Sys2Proof.Machine.execClPwrForce val s
  | .sysResetAssert => Sys2Proof.Machine.execSysResetAssert s
  | .warmResetAssert => Sys2Proof.Machine.execWarmResetAssert s
  | .pwrRstWarm => Sys2Proof.Machine.execPwrRstWarm s
  | .pwrRstDomain dom => Sys2Proof.Machine.execPwrRstDomain dom s
  | .pwrRstUnit page => Sys2Proof.Machine.execPwrRstUnit page s
  | .softReset addr => Sys2Proof.Machine.execSoftReset addr s
  | .warmResetComplete => Sys2Proof.Machine.execWarmResetComplete s
  | .domainResetComplete dom => Sys2Proof.Machine.execDomainResetComplete dom s
  | .unitResetComplete page => Sys2Proof.Machine.execUnitResetComplete page s
  | .vinLow => Sys2Proof.Machine.execVinLow s
  | .vinRestore => Sys2Proof.Machine.execVinRestore s
  | .aonLoss => Sys2Proof.Machine.execAonLoss s
  | .bootRomComplete => Sys2Proof.Machine.execBootRomComplete s
  | .bootLoadComplete => Sys2Proof.Machine.execBootLoadComplete s
  | .bootFirmwareComplete => Sys2Proof.Machine.execBootFirmwareComplete s
  | .bootMemoryComplete failed => Sys2Proof.Machine.execBootMemoryComplete failed s
  | .bootSerdesComplete refOk => Sys2Proof.Machine.execBootSerdesComplete refOk s
  | .bootMapComplete failed wholeDie => Sys2Proof.Machine.execBootMapComplete failed wholeDie s
  | .bootReady ms => Sys2Proof.Machine.execBootReady ms s
  | .lcReqGo sigOk => Sys2Proof.Machine.execLcReqGo sigOk s
  | .lcRequest token sigOk => Sys2Proof.Machine.execLcRequest token sigOk s
  | .lcTransitionReset => Sys2Proof.Machine.execLcTransitionReset s
  | .fwuStage => Sys2Proof.Machine.execFwuStage s
  | .fwuStageComplete flashOk img => Sys2Proof.Machine.execFwuStageComplete flashOk img s
  | .fwuActivate => Sys2Proof.Machine.execFwuActivate s
  | .fwuCommitSvn => Sys2Proof.Machine.execFwuCommitSvn s
  | .pldmFirmwareUpdate img => Sys2Proof.Machine.execPldmFirmwareUpdate img s
  | .getVersion => Sys2Proof.Machine.execGetVersion s
  | .getCapabilities => Sys2Proof.Machine.execGetCapabilities s
  | .negotiateAlgorithms => Sys2Proof.Machine.execNegotiateAlgorithms s
  | .getDigests => Sys2Proof.Machine.execGetDigests s
  | .getCertificate slot => Sys2Proof.Machine.execGetCertificate slot s
  | .challenge nonce => Sys2Proof.Machine.execChallenge nonce s
  | .getMeasurements idx => Sys2Proof.Machine.execGetMeasurements idx s
  | .keyExchange pub => Sys2Proof.Machine.execKeyExchange pub s
  | .finish sid => Sys2Proof.Machine.execFinish sid s
  | .keyUpdate sid => Sys2Proof.Machine.execKeyUpdate sid s
  | .endSession sid => Sys2Proof.Machine.execEndSession sid s
  | .tapInstruction ins => Sys2Proof.Machine.execTapInstruction ins s
  | .sysResetRelease => Sys2Proof.Machine.execSysResetRelease s
  | .vddAonRestore => Sys2Proof.Machine.execVddAonRestore s
  | .ethLinkUp port sp => Sys2Proof.Machine.execEthLinkUp port sp s
  | .refclkEthLost tile => Sys2Proof.Machine.execRefclkEthLost tile s
  | .refclkEthReturn tile => Sys2Proof.Machine.execRefclkEthReturn tile s
  | .pcieLinkUp p => Sys2Proof.Machine.execPcieLinkUp p s
  | .pcieUncorrectableError p => Sys2Proof.Machine.execPcieUncorrectableError p s
  | .regulatorFault dom => Sys2Proof.Machine.execRegulatorFault dom s
  | .laneLockRegained l lane => Sys2Proof.Machine.execLaneLockRegained l lane s
  | .expulsionBudgetFree => Sys2Proof.Machine.execExpulsionBudgetFree s

end Sys2Proof.Machine
end

