-- ==== Sys2Proof/Machine/Idle.lean ====
section
/-! DEFINITION. What time alone does while no command waits: one tick of the time clock, and a lead that copies its shard
(R291, R363). -/

namespace Sys2Proof.Machine

/-- One idle step (log 1): with the always-on supply up, 1 ns of the time clock passes; on a running device a lead that is
SYNCING copies the next 256 bytes of its shard. Everything else that happens in time is a command. -/
def State.idle (s : State) : State :=
  if s.rst.aonOk then
    let t := s.tick
    let t := if s.awake && !s.rst.warm then t.syncStep else t
    s.finish t
  else s

end Sys2Proof.Machine
end

