-- ==== Sys2Proof/WellFormed.lean ====
section
/-! DEFINITION. Which commands are well formed: the conditions on operands that their types do not carry. A command's meaning
is total; what is not well formed cannot come from outside the device. -/

namespace Sys2Proof

/-- Bytes of an access width (R7). -/
def Width.bytes : Width → Nat
  | .w8 => 1
  | .w16 => 2
  | .w32 => 4
  | .w64 => 8

/-- 64-byte lines of the HBM (R312). -/
def hbmLines : Nat := 0x300000000

/-- Physical units of a class of the disabled-unit map (R20): clusters, chorus units, voices, DSP cores, engines, CRC
engines. -/
def classUnits : Nat → Nat
  | 0 => 144
  | 1 => 1872
  | 2 => 61776
  | 3 => 272
  | 4 => 168
  | _ => 16

/-- Whether a command is well formed: alignment and width (R7), positions that err named once, lengths that the layouts of
flits, requests, identities and tokens fix. -/
def Instr.wf : Instr → Bool
  | .registerWrite _ w a _ => a.toNat % w.bytes == 0
  | .registerPairLoRead _ w a => a.toNat % w.bytes == 0
  | .registerPairHiWrite _ a _ => a.toNat % 4 == 0
  | .holeAccess _ _ a _ => a.toNat % 4 == 0
  | .vmap _ _ others | .vred _ _ others | .vcvt _ _ others | .get _ _ others | .put _ _ others | .atomic _ _ others
  | .kstepIssue _ _ others | .tileReadout _ _ _ others | .spillComplete _ _ _ others => others.Nodup
  | .dspMemoryError _ m o flips => (m.val != 2 || decide (o.toNat < 0x10000)) && flips.Nodup
  | .accelEngineError _ _ _ _ flips => flips.Nodup
  | .timeStateCheck _ flips => flips.Nodup
  | .frameReceive _ _ f _ _ _ => !f.isEmpty
  | .ptpFrameReceive _ _ f => !f.isEmpty
  | .hbmRead l _ _ flips => decide (l.toNat < hbmLines) && flips.Nodup
  | .hbmWrite l _ _ => l.toNat < hbmLines
  | .hbmPartialWrite l first d => decide (l.toNat < hbmLines) && !d.isEmpty && decide (first.val + d.length ≤ 64)
  | .correctedWriteBack l => l.toNat < hbmLines
  | .hbmScrubRead _ flips => flips.Nodup
  | .csScrubRead _ flips => flips.Nodup
  | .flitReceive _ f => f.credit.length == 4
  | .rd r => r.data.isEmpty
  | .wr r => r.data.length == r.bytes.toNat + 1
  | .atom r => r.bytes.toNat + 1 == (if r.w64 then 8 else 4)
  | .mirw r => r.data.length == r.bytes.toNat + 1
  | .mirc r => r.data.length == r.bytes.toNat + 1
  | .rdrsp _ _ _ d => decide (d.length ≤ 256)
  | .moduleInsert _ ident => ident.length == 14
  | .modulePoll _ o => o.lanes.length == 10
  | .optIntAssert flags => (flags.map (·.m)).Nodup
  | .severityBucketExpire a => a.toNat % 256 == 0
  | .pgErrRelease a _ => a.toNat % 256 == 0
  | .pgErrOvfClear a => a.toNat % 256 == 0
  | .snapshot ageing => ageing.isEmpty || ageing.length == 312
  | .softReset a => a.toNat % 4096 == 0
  | .bootMemoryComplete f => f.Nodup
  | .bootMapComplete f _ => f.Nodup && f.all fun u => decide (u.2 < classUnits u.1.val)
  | .lcRequest t _ => t.length == 256
  | .bringInStart .. | .bringInAttemptComplete .. | .bringInResumeAfterReset | .dmapSnapshotLatch .. | .dmapDataRead
  | .hdr .. | .descriptorDispatch .. | .tokenWaitSatisfied .. | .descriptorComplete .. | .loop .. | .setcnt .. | .brk ..
  | .call .. | .token .. | .endStream .. | .mma .. | .mmaQuad .. | .fence .. | .job .. | .callStart .. | .callReturn .. | .fill .. | .copy .. | .gatherRows ..
  | .scatterRows .. | .allreduce .. | .reduceScatter .. | .allgather .. | .broadcast .. | .alltoall .. | .barrier ..
  | .digestRegion .. | .semArrive .. | .timeRead .. | .mboxPost .. | .threadWatchdogExpire .. | .heartbeatRefresh ..
  | .heartbeatMissed .. | .queueDoorbell .. | .queueEnableWrite .. | .entryAccept .. | .completionWrite ..
  | .cqHeadWrite .. | .queueWatchdogExpire .. | .taskPlace .. | .taskFirstDispatch .. | .taskComplete ..
  | .returnedReportWrite | .smCtrlWrite .. | .sceneBoundary | .leadPoint .. | .roCommit .. | .roCommitApply
  | .roBankCopyComplete | .realignStart | .realignEnd | .roTblDataAccess .. | .roBindDataAccess .. | .accelJobStart ..
  | .curtainPassed .. | .accumulatorUpdate .. | .bankRequestAged .. | .fadeStep .. | .beatEnd .. | .restoreComplete .. | .streamResume .. | .clusCntClrNumeric .. | .clusCntClrActivity ..
  | .clusCntClrResidue .. | .dspTaskStart .. | .nop .. | .cmac .. | .cmacj .. | .cmacb .. | .acclr .. | .cmul .. | .rnd ..
  | .vadd .. | .vsub .. | .vand .. | .vor .. | .vxor .. | .vshr .. | .ld .. | .st .. | .lda .. | .sta .. | .adda ..
  | .moval .. | .movah .. | .dspLoop .. | .loopi .. | .movl .. | .brkl .. | .br .. | .dspCall .. | .ret .. | .rti ..
  | .tret .. | .movb .. | .signal .. | .setim .. | .dspResultWrite .. | .hzTrapResume .. | .dspTimerCompare ..
  | .dspSoftIrqSet .. | .interruptAccept .. | .dspStop .. | .blockMoverStart .. | .blockMoverComplete ..
  | .pmemDataAccess .. | .dspCntClr .. | .fftJob .. | .ldpcDecodeJob .. | .ldpcEncodeJob .. | .polarEncodeJob ..
  | .polarDecodeJob .. | .crcAppend .. | .crcCheck .. | .scrBits .. | .scrLlr .. | .seq .. | .chirpJob ..
  | .accelJobComplete .. | .chirpWindowEnd .. | .chirpSyncTimeout .. | .chirpCandidateExpire ..
  | .chCfgWrite .. | .accelCntClrJobs .. | .accelCntClrBanks .. | .rxFrameDeliver .. | .classEntryCommit ..
  | .meterConfigWrite .. | .ethModeWrite .. | .ethLinkLost .. | .txqDoorbell .. | .txFrameFetch .. | .txFrameStart ..
  | .txFrameComplete .. | .tbIncCommit .. | .tbStep .. | .tbSet .. | .ltcSet .. | .timeApplyTick | .tbNsRead ..
  | .ltcNsRead | .tpoPulseStart .. | .tpoPulseEnd .. | .tciEdge .. | .tciNsRead .. | .txtsInfoRead
  | .rowRepairPpr .. | .rowRepairComplete .. | .wipeStart .. | .wipeComplete .. | .wipeTimeout | .xlTranslate ..
  | .hbmcCntClr .. | .hbmTempPoll .. | .linkEnable .. | .linkDisable .. | .linkFarEndDetected .. | .linkTrainComplete ..
  | .linkTrainTimeout .. | .linkConfigComplete .. | .linkRetrainComplete .. | .linkRetrainTimeout .. | .linkFarEndLost ..
  | .linkDownTimeout .. | .linkDampRelease .. | .glRetrain .. | .glUndamp .. | .glForce .. | .glReturn .. | .glCntClr ..
  | .nakReceive .. | .laneLockLost .. | .laneHardFail .. | .flush .. | .tagrel .. | .ack .. | .atrsp .. | .err ..
  | .busyRetry .. | .ackTimer .. | .e2eRetransmit .. | .unreachableTimeout .. | .revive .. | .routeEntryCommit ..
  | .lostDataRead | .groupCommit .. | .fabricCntClr .. | .mirrorHeartbeat .. | .leadSuspect | .witnessQuery ..
  | .witnessAnswer .. | .takeoverNotice .. | .moduleRemove .. | .undStart | .undEnd | .undGoOn | .undSyncComplete
  | .undDigestCompare .. | .undLeadLost | .set | .go | .strike | .freeze | .thaw | .save | .restore | .vfFlr .. | .pfFlr
  | .vfEnableClear | .freezeQuiet .. | .strikeQuiesced .. | .strikeComplete .. | .extDataAccess .. | .mbTmDoorbell ..
  | .mbTtDoorbell .. | .mbPendClear .. | .pcieLinkDown .. | .perstRelease .. | .atsInvalidation .. | .ideKeyProgram ..
  | .ideIntegrityFail .. | .faultPinMinEnd | .alertPendClear .. | .pldmEventAck .. | .fqSrcRead | .thermalSample ..
  | .droopDetect .. | .marginSample .. | .eventRecordWrite .. | .snapNow .. | .dailySummary | .logRdDataRead ..
  | .getLogInfo | .readLog .. | .pldmSensorRead .. | .powerSample .. | .ceilingStep .. | .opStepComplete ..
  | .clusterDim .. | .clusterDark .. | .clusterWakeComplete .. | .clPwrForce .. | .sysResetAssert | .warmResetAssert
  | .pwrRstWarm | .pwrRstDomain .. | .pwrRstUnit .. | .warmResetComplete | .domainResetComplete .. | .unitResetComplete ..
  | .vinLow | .vinRestore | .aonLoss | .bootRomComplete | .bootLoadComplete | .bootFirmwareComplete
  | .bootSerdesComplete .. | .bootReady .. | .lcReqGo .. | .lcTransitionReset | .fwuStage | .fwuStageComplete ..
  | .fwuActivate | .fwuCommitSvn | .pldmFirmwareUpdate .. | .getVersion | .getCapabilities | .negotiateAlgorithms
  | .getDigests | .getCertificate .. | .challenge .. | .getMeasurements .. | .keyExchange .. | .finish .. | .keyUpdate ..
  | .endSession .. | .tapInstruction .. | .sysResetRelease | .vddAonRestore | .ethLinkUp .. | .refclkEthLost ..
  | .refclkEthReturn .. | .pcieLinkUp .. | .pcieUncorrectableError .. | .regulatorFault .. | .laneLockRegained ..
  | .expulsionBudgetFree => true

/-- A well-formed command. -/
abbrev WellFormed (i : Instr) : Prop := i.wf = true

end Sys2Proof
end

