-- ==== Sys2Proof/Safety.lean ====
section
/-! DEFINITION. What counts as a good state and a good step, in the terms the statements use. -/

namespace Sys2Proof.Machine

/-- No automatic action of an earlier event is left to take (R398): every command takes the actions its events call for. -/
def State.Settled (s : State) : Prop := s.flt.due = []

/-- The byte memories are in their canonical form. -/
def State.MemWf (s : State) : Prop :=
  s.hbm.wf = true ∧ s.host.wf = true ∧ s.store.wf = true ∧ s.dspMem.wf = true ∧ s.life.mem.wf = true

/-- Every command that waits is well formed. -/
def State.QueueWf (s : State) : Prop := ∀ c ∈ s.pending, WellFormed c

/-- Sequencer `sq` takes the descriptor `raw` of code `key` and `n` lines next: it is free, its fetch gives it (leaving state
`s'`), and no cause of R116 holds. -/
def State.Takes (s s' : State) (sq key raw n : Nat) : Prop :=
  (s.seqOf sq).free = true ∧ s.fetchDesc sq (s.seqOf sq).pt.line = (s', .got key raw n)
    ∧ lowestCause (descChecks sq (s'.seqOf sq) key raw
        ++ [(0x10, decide ((s'.seqOf sq).lines < (s'.seqOf sq).pt.line + n))]) = none

/-- The next index lies in the window of R117, and the WAIT of `raw` is satisfied or its completion already recorded. -/
def Seq.MayIndex (q : Seq) (raw : Nat) : Prop :=
  q.nextX < q.low + 544 ∧ (q.skip.contains q.nextX = true ∨ q.ready (waitOf raw) = true)

/-- A call of routine `rt`, whose first phase is `f`, runs to its result on thread `th`: its stagehand is in service, no end of
its task waits, it has neither plan nor result yet, it plans and its writes succeed; `t` is the state with its result. -/
def State.Routine (s t : State) (th rt : Nat) (f : State → Who → Call → State × Plan) : Prop :=
  ∃ (c : Call) (u v : State) (ws : List (Nat × List Byte)) (st val : Nat) (b : List Byte),
    (s.thOf th).call = some c ∧ c.routine = rt ∧ (s.thOf th).result = none ∧ (s.thOf th).plan = none
    ∧ s.coreOn (th / 7) = true ∧ (s.work.ends.any fun e => e.1 == c.item && e.2.1 == c.task) = false
    ∧ f s (s.callWho th c) c = (u, .ready ws st val)
    ∧ State.callWrites (u.setTh th { u.thOf th with plan := some (ws, st, val) }) th (s.callWho th c)
        (ws.drop ((u.setTh th { u.thOf th with plan := some (ws, st, val) }).thOf th).pos) = (v, .ok b)
    ∧ t = v.setTh th { v.thOf th with result := some (st, val) }

/-- The syllable of a slot of core `k` has code `op` and issues: the core issues bundles, the slot has not issued, and nothing
keeps the bundle from issuing (R208, R211, R217). -/
def State.Issues (s : State) (k slot op : Nat) : Prop :=
  (s.coreOf k).runs = true ∧ (s.coreOf k).issued.getLsbD slot = false ∧ s.boot.ready = true ∧ (s.bundleStop k).2 = false
    ∧ sOp ((s.bundleStop k).1.bundleSyl k slot) = op

/-- An issue of a slot of core `k` in the state `s` that the fetch of its bundle leaves (R214): results in flight (latency, class, index, value), at most one memory access, the
slot marked, a change `f` of the control state, and the sticky SAT and OVF bits of `DSP_STAT`. -/
def State.issueOf (s : State) (k slot : Nat) (out : List (Nat × RegClass × Nat × Nat))
    (mem : Option (Bool × Nat × Nat × Nat × RegClass × Nat)) (sat ovf : Bool) (f : DspCore → DspCore) : State :=
  let d := s.coreOf k
  let st := s.pr .rdsp k 0x048
  let st := if sat then setFld st 3 1 1 else st
  let st := if ovf then setFld st 4 1 1 else st
  (s.setCore k (f { d with
    flight := d.flight ++ out.map fun r =>
      ({ due := d.cyc + r.1 - 1, born := d.cyc, slot := slot, sh := d.sh, cls := r.2.1, idx := r.2.2.1,
         val := BitVec.ofNat 640 r.2.2.2 } : Flight),
    memq := d.memq ++ mem.toList.map fun m =>
      ({ at_ := d.cyc + 1, slot := slot, store := m.1, addr := m.2.1, bytes := m.2.2.1, val := BitVec.ofNat 256 m.2.2.2.1,
         sh := d.sh, cls := m.2.2.2.2.1, idx := m.2.2.2.2.2 } : MemOp),
    issued := d.issued ||| BitVec.ofNat 4 (2 ^ slot), bundle := [0, 1, 2, 3].map fun i => s.bundleSyl k i })).setPr .rdsp k 0x048 st

/-- The job on engine `eng` of class `k` of tile `e` is of a kind, well formed and without a result; its first phase `f` plans,
its writes succeed, and `t` is the state with its result (R235, R236). -/
def State.JobRuns (s t : State) (e k eng : Nat) (kind : Nat → Bool) (f : State → Who → Job → State × JobPlan) : Prop :=
  ∃ (j i : Job) (u v : State) (ws : List (Nat × List Byte)) (r : JobRes) (b : List Byte),
    s.jobOn e k eng = some j ∧ j.res = none ∧ jobCause j eng = 0 ∧ kind j.raw = true ∧ j.plan = none
    ∧ f s (s.jobWho j eng) j = (u, .ready ws r)
    ∧ ((u.forget (s.jobWho j eng).org).setJob e k eng { j with plan := some (ws, r) }).jobWrites e k eng (s.jobWho j eng)
        (ws.drop j.pos) = (v, .ok b)
    ∧ v.jobOn e k eng = some i
    ∧ t = v.setJob e k eng { i with plan := none, res := some r }

/-- In `t` the registers at `l` have their reset values, and everything else is as in `s`. -/
def State.Cleared (s t : State) (l : List Nat) : Prop :=
  t = { s with regs := t.regs } ∧ (∀ a ∈ l, t.rg a = regReset a) ∧ ∀ a, a ∉ l → t.rg a = s.rg a

/-- The value of a factor is an integer multiple of 2^qmin of its format, a NaN or an infinity (R53). -/
def Factor.Whole (f : Factor) : Prop :=
  match f.v with
  | .fin _ m e => m = 0 ∨ (factorOf f.fmt).1 ≤ e
  | _ => True

end Sys2Proof.Machine
end

