-- ==== Sys2Proof/Certificates/Slice0/Obligations.lean ====
section
/-! DEFINITION. The statements, in the order of the manual's chapters. A completion reads `exec c s = .next (s.finish t)`:
`finish` takes the automatic actions of the events that `t` has raised (R398) and leaves the queue alone; where `t` has raised
none, `s.finish t` is `t` with the queue of `s` (`EveryCommandRuns`). -/

open Sys2Proof Sys2Proof.Machine

/-- The step of the block; that an empty queue lets a nanosecond pass is the model's choice (log 1). -/
def Obligations.StepIsTheFrontCommand : Prop :=
  (∀ (s : State) (c : Instr) (rest : List Instr), s.pending = c :: rest → step s = exec c { s with pending := rest })
  ∧ (∀ (s : State) (c : Instr) (rest : List Instr), step { s with pending := c :: rest } = exec c { s with pending := rest })
  ∧ ∀ s : State, s.pending = [] → step s = .next s.idle

/-- No command of the table is refused or ends in a fault, in any state; and what `finish` does, in which the completion
statements are written. -/
def Obligations.EveryCommandRuns : Prop :=
  (∀ (s : State) (c : Instr), ∃ t, exec c s = .next t ∧ t.pending = s.pending ∧ (s.Settled → t.Settled))
  ∧ (∀ (s : State) (c : Instr) (rest : List Instr), s.pending = c :: rest → ∃ t, step s = .next t ∧ t.pending = rest)
  ∧ (∀ s t : State, t.flt.due = [] → s.finish t = { t with pending := s.pending })
  ∧ (∀ (s t u : State) (a : DueAct), t.flt.due = [a] → u = State.act { t with flt := { t.flt with due := [] } } a →
      u.flt.due = [] → s.finish t = { u with pending := s.pending })
  ∧ ∀ s t : State, (s.finish t).pending = s.pending ∧ (s.finish t).flt.due = []

/-- The invariant of `SettledKept` holds at reset. -/
def Obligations.SettledAtReset : Prop :=
  State.reset.Settled ∧ State.reset.pending = [] ∧ State.reset.QueueWf ∧ State.reset.MemWf ∧ State.reset.rst.cold = true
    ∧ State.reset.awake = false

/-- The automatic actions of an event (R398) are all taken within the command that raised it. -/
def Obligations.SettledKept : Prop :=
  ∀ s t : State, s.Settled → s.QueueWf → step s = .next t → t.Settled ∧ t.QueueWf

/-- Log 1: what the manual does not say of commands that reach a device in cold reset is that nothing happens. -/
def Obligations.AsleepDevice : Prop :=
  ∀ (s : State) (c : Instr), s.awake = false → s.Settled →
    c ≠ .sysResetAssert → c ≠ .sysResetRelease → c ≠ .vinLow → c ≠ .vinRestore → c ≠ .aonLoss → c ≠ .vddAonRestore →
    exec c s = .next s

/-- The register file (R10) and the byte memories: HBM, host memory, cluster stores, DSP memories and the life log's flash. -/
def Obligations.StoresReadBack : Prop :=
  (∀ (s : State) (a b : Nat) (v : Word), (s.setRg a v).rg b = if b = a then v else s.rg b)
  ∧ (∀ (s : State) (a : Nat) (v : Word), s.setRg a v = { s with regs := (s.setRg a v).regs })
  ∧ (∀ (s : State) (a x : Nat), x < 2 ^ 64 → (s.setPair a x).pair a = x)
  ∧ (∀ (s : State) (a : Nat) (v : Word) (r : RegSpec), regAt a = some r → ∀ i : Fin 32,
      (r.rw.getLsbD i.val = true → r.w1c.getLsbD i.val = false → ((s.storeAt a v).rg a).getLsbD i.val = v.getLsbD i.val)
      ∧ (r.w1c.getLsbD i.val = true → r.rw.getLsbD i.val = false →
          ((s.storeAt a v).rg a).getLsbD i.val = ((s.rg a).getLsbD i.val && !v.getLsbD i.val))
      ∧ (r.w1c.getLsbD i.val = false → r.rw.getLsbD i.val = false →
          ((s.storeAt a v).rg a).getLsbD i.val = (s.rg a).getLsbD i.val))
  ∧ (∀ (s : State) (a : Nat) (v : Word), regAt a = none → s.storeAt a v = s)
  ∧ (∀ (s : State) (k : PageKind) (i off n : Nat), n < 2 ^ 32 →
      ((s.bump k i off n).pr k i off).toNat = min ((s.pr k i off).toNat + n) (2 ^ 32 - 1))
  ∧ (∀ (m : Memory) (a b : Nat) (x : Byte), (m.put a x).byte b = if b = a then x else m.byte b)
  ∧ (∀ (m : Memory) (a : Nat) (l : List Byte), (m.write a l).read a l.length = l)
  ∧ (∀ (m : Memory) (a b : Nat) (l : List Byte), (b < a ∨ a + l.length ≤ b) → (m.write a l).byte b = m.byte b)
  ∧ (∀ (m : Memory) (a n b : Nat), (m.zero a n).byte b = if a ≤ b ∧ b < a + n then 0 else m.byte b)
  ∧ (∀ (m : Memory) (a n : Nat) (x : Byte) (l : List Byte), m.wf = true →
      (m.put a x).wf = true ∧ (m.write a l).wf = true ∧ (m.zero a n).wf = true)
  ∧ ∀ (m m' : Memory), m.wf = true → m'.wf = true → (∀ a, m.byte a = m'.byte a) → m = m'

/-- REGISTER_PAIR_LO_READ and REGISTER_WRITE at an undefined offset (R9). -/
def Obligations.UndefinedOffsets : Prop :=
  ∀ (s : State) (req : Requestor) (addr : BitVec 28) (val : BitVec 64) (p : Page) (off : Nat), s.awake = true → s.Settled →
    s.reaches req = true → pageOf (addr.toNat / 4 * 4) = some (p, off) → s.pageShut p = false → regSpec p.kind off = none →
    (∀ w : Width, (w = .w64 → pageOf (addr.toNat / 4 * 4 + 4) = some (p, off + 4) ∧ regSpec p.kind (off + 4) = none) →
      exec (.registerPairLoRead req w addr) s = .next (s.answer 0)
      ∧ exec (.registerWrite req w addr val) s = .next s)

/-- R12, for the pairs of every page: `a` is the address of the `_LO` half. -/
def Obligations.PairsLatch : Prop :=
  (∀ (s : State) (r : Requestor) (a x : Nat), (s.readLo r a x).rdata = BitVec.ofNat 64 (x % 2 ^ 32)
    ∧ ((s.readLo r a x).readHi r a).rdata = BitVec.ofNat 64 (x / 2 ^ 32 % 2 ^ 32)
    ∧ (∀ r' a', a < 2 ^ 28 → a' < 2 ^ 28 → ¬(r' = r ∧ a' = a) → ((s.readLo r a x).readHi r' a').rdata = (s.readHi r' a').rdata))
  ∧ (∀ (r : Requestor) (a : Nat), (State.reset.readHi r a).rdata = 0)
  ∧ (∀ (s : State) (r : Requestor) (a : Nat) (lo hi : Word),
      ((s.stageLo r a lo).takePair r a hi).2 = lo.toNat + 2 ^ 32 * hi.toNat
      ∧ (Tbl.get none s.staged (pairKey r a) = none → (s.takePair r a hi).2 = (s.rg a).toNat + 2 ^ 32 * hi.toNat)
      ∧ Tbl.get none (s.takePair r a hi).1.staged (pairKey r a) = none
      ∧ (s.stageLo r a lo).regs = s.regs)
  ∧ (∀ (s : State) (req : Requestor) (p : Page) (off : Nat) (r : RegSpec), 0x40 ≤ off → s.readActs p off = none →
      regSpec p.kind off = some r →
      (r.pair = .lo → s.pageRead req p off
        = s.readLo req (p.base + off) ((s.regVal p off).toNat + 2 ^ 32 * (s.regVal p (off + 4)).toNat))
      ∧ (r.pair = .hi → s.pageRead req p off = s.readHi req (p.base + off - 4)))
  ∧ (∀ off ∈ [0x108, 0x10C, 0x148, 0x14C, 0x2C8, 0x2CC, 0x608, 0x60C, 0x6E8, 0x6EC, 0x868, 0x86C],
      ∃ r, regSpec .time off = some r ∧ r.pair = .none)

/-- REGISTER_WRITE, REGISTER_PAIR_LO_READ, REGISTER_PAIR_HI_WRITE and HOLE_ACCESS. -/
def Obligations.RegisterCommands : Prop :=
  ∀ (s : State) (req : Requestor) (addr : BitVec 28) (val : BitVec 32) (v64 : BitVec 64), s.awake = true →
    (s.reaches req = true → ∀ (p : Page) (off : Nat), pageOf (addr.toNat / 4 * 4) = some (p, off) →
      (s.pageShut p = false → ∀ r, regSpec p.kind off = some r →
        ((off < 0x40 ∨ s.readActs p off = none) →
          (r.pair = .none → exec (.registerPairLoRead req .w32 addr) s = .next (s.finish (s.answer (s.regVal p off))))
          ∧ (0x40 ≤ off → r.pair = .lo → exec (.registerPairLoRead req .w32 addr) s = .next (s.finish
              (s.readLo req (p.base + off) ((s.regVal p off).toNat + 2 ^ 32 * (s.regVal p (off + 4)).toNat)))))
        ∧ (off < 0x40 → exec (.registerWrite req .w32 addr v64) s = .next (s.finish
            (s.writeHeader p off (v64.truncate 32))))
        ∧ (0x40 ≤ off → s.ringLocked p off = false →
          (r.pair = .none → exec (.registerWrite req .w32 addr v64) s = .next (s.finish
              (s.writePlain p off (v64.truncate 32))))
          ∧ (r.pair = .lo → r.rw ≠ 0 → exec (.registerWrite req .w32 addr v64) s = .next (s.finish
              (s.stageLo req (p.base + off) (v64.truncate 32))))
          ∧ (r.pair = .hi → r.rw ≠ 0 → exec (.registerPairHiWrite req addr val) s = .next (s.finish
              (s.writeHi req p off val))))
        ∧ (∀ w, w = .w8 ∨ w = .w16 → exec (.registerWrite req w addr v64) s = .next (s.finish
            (({ s with free := s.free + 1 } : State).raise p 0 (s.accessInfo req p off (Config.freeWord s.free))))))
      ∧ (s.pageShut p = true → s.Settled →
        exec (.registerPairLoRead req .w32 addr) s = .next (s.answer 0xFFFFFFFF)
        ∧ ∀ w, w ≠ .w64 → exec (.registerWrite req w addr v64) s = .next s)
      ∧ (s.Settled → ∀ b, exec (.holeAccess req b addr val) s = .next s))
    ∧ (s.reaches req = true →
        exec (.registerPairLoRead req .w8 addr) s = .next (s.finish
          { s.regRead req addr.toNat with
            rdata := BitVec.ofNat 64 (bits (s.regRead req addr.toNat).rdata.toNat (8 * (addr.toNat % 4)) 8) })
        ∧ exec (.registerPairLoRead req .w16 addr) s = .next (s.finish
          { s.regRead req addr.toNat with
            rdata := BitVec.ofNat 64 (bits (s.regRead req addr.toNat).rdata.toNat (8 * (addr.toNat % 4)) 16) })
        ∧ exec (.registerPairLoRead req .w64 addr) s = .next (s.finish
          { (s.regRead req addr.toNat).regRead req (addr.toNat / 4 * 4 + 4) with
            rdata := ((s.regRead req addr.toNat).regRead req (addr.toNat / 4 * 4 + 4)).rdata <<< 32
              ||| (s.regRead req addr.toNat).rdata }))
    ∧ exec (.registerWrite req .w64 addr v64) s = .next (s.finish
        ((s.regWrite req addr.toNat (v64.truncate 32)).regWrite req (addr.toNat / 4 * 4 + 4)
          (BitVec.ofNat 32 (v64.toNat / 2 ^ 32))))
    ∧ (s.reaches req = true → s.rst.warm = false → pageOf (addr.toNat / 4 * 4) = none →
        exec (.holeAccess req false addr val) s = .next (s.finish
          (({ s with free := s.free + 1, rdata := 0 } : State).raise (pageAt .chip 0) 1 (Config.freeWord s.free)))
        ∧ exec (.holeAccess req true addr val) s = .next (s.finish
          (({ s with free := s.free + 1 } : State).raise (pageAt .chip 0) 1 (Config.freeWord s.free))))
    ∧ (s.boot.ready = false → req ≠ .fw → s.Settled →
        ∀ w, exec (.registerPairLoRead req w addr) s = .next s ∧ exec (.registerWrite req w addr v64) s = .next s)

/-- The register map, and what reset leaves in it. -/
def Obligations.PagesAndReset : Prop :=
  pageOf 0x191004 = some (⟨.clus, 89, 0x191000⟩, 4)
  ∧ pageOf 0x2B4000 = some (⟨.hbmc, 180, 0x2B4000⟩, 0)
  ∧ pageOf 0x58A000 = some (⟨.rdsp, 146, 0x58A000⟩, 0)
  ∧ pageOf 0x42D000 = some (⟨.glink, 45, 0x42D000⟩, 0)
  ∧ pageOf 0x912F10 = some (⟨.optm, 47, 0x912F00⟩, 0x10)
  ∧ pageOf 0x90F000 = some (⟨.vf, 255, 0x90F000⟩, 0)
  ∧ (∀ a ∈ [0x001000, 0x060000, 0x086000, 0x124000, 0x431000, 0x690000, 0x720000, 0x802000, 0x810000, 0x913000, 0xA01000,
      0xFFFFFFC], pageOf a = none)
  ∧ (∀ (s : State) (i id : Nat) (kind : PageKind),
      (kind, i, id) ∈ [(PageKind.chip, 0, 0x01010000), (.clus, 89, 0x10010059), (.hbmc, 180, 0x180100B4),
        (.rdsp, 266, 0x2801010A), (.optm, 45, 0x4001002D), (.glink, 45, 0x2001002D)] →
      s.regVal (pageAt kind i) 0 = BitVec.ofNat 32 id)
  ∧ (∀ p : Page, p ∈ [pageAt .chip 0, pageAt .clus 143, pageAt .rdsp 271, pageAt .vf 255, pageAt .optm 47, pageAt .dbg 0] →
      State.reset.rg (p.base + 0x008) = 1 ∧ State.reset.rg (p.base + 0x010) = 0 ∧ State.reset.rg (p.base + 0x014) = 0
      ∧ State.reset.rg (p.base + 0x018) = 0 ∧ State.reset.rg (p.base + 0x01C) = 0 ∧ State.reset.rg (p.base + 0x030) = 0xA
      ∧ State.reset.rg (p.base + 0x034) = 0x03938700)
  ∧ State.reset.pr .chip 0 0x044 = 0 ∧ State.reset.pr .chip 0 0x088 = 1
  ∧ (∀ b : Fin 8, State.reset.base b.val = { sec := 0, ns := 0, frac := 0, inc := 0x100000000 })

/-- BRING_IN_START, BRING_IN_ATTEMPT_COMPLETE (R24), BRING_IN_RESUME_AFTER_RESET (R473). The DETAIL words of the two records
are the model's layout (log 31). -/
def Obligations.SparesStandIn : Prop :=
  ∀ (s : State) (die : Fin 6), s.awake = true →
    (s.servesDie die.val = true →
      (∀ (c u p sp : Nat) (t : State), (c, u, p) ∈ s.map.waiting → unitDie c u = die.val →
        (∀ w ∈ s.map.waiting, unitDie w.1 w.2.1 = die.val → w ≠ (c, u, p) → u < w.2.1) →
        Tbl.look s.map.running die.val = none → s.curMap.spareFor s.sec.variant c u = some sp →
        t = { s with map := { s.map with
          waiting := dropFirst (c, u, p) s.map.waiting,
          running := Tbl.put s.map.running die.val { cls := c, unit := u, pos := p, spare := sp } } } →
        exec (.bringInStart die) s = .next (s.finish (t.lightSpare c sp)))
      ∧ (∀ b, Tbl.look s.map.running die.val = some b → s.Settled →
          exec (.bringInStart die) s = .next s)
      ∧ (∀ (b : BringIn) (t : State), Tbl.look s.map.running die.val = some b →
          t = ({ s with map := { s.map with running := Tbl.del s.map.running die.val } } : State).withMap
            ((s.curMap.setSt s.sec.variant b.cls b.spare .active).setLog s.sec.variant b.cls b.pos (spareIdx b)) →
          exec (.bringInAttemptComplete die true) s = .next (s.finish
            ((t.logEvent (unitPage b.cls b.spare) 0 5 0 0 (b.cls + 256 * b.spare + 2 ^ 32 * b.pos)).startBringIn die.val)))
      ∧ (∀ (b : BringIn) (t u : State) (sp : Nat), Tbl.look s.map.running die.val = some b → b.cls = clsCluster →
          t = (s.withMap (s.curMap.setSt s.sec.variant b.cls b.spare .retired)).logEvent (unitPage b.cls b.spare) 0 4 0 0
            (b.cls + 256 * b.spare + 2 ^ 32 * 0xFFFF) →
          u = t.raise (pageAt .clus b.spare) 7 0xFFFF →
          u.curMap.spareFor u.sec.variant b.cls b.unit = some sp →
          exec (.bringInAttemptComplete die false) s = .next (s.finish
            (({ u with map := { u.map with
              running := Tbl.put (Tbl.del u.map.running die.val) die.val { b with spare := sp } } } : State).lightSpare
                b.cls sp))))
    ∧ exec .bringInResumeAfterReset s = .next (s.finish ((List.range 6).foldl State.bringIn s))
    ∧ (s.servesDie die.val = false → s.Settled → exec (.bringInStart die) s = .next s)

/-- DMAP_SNAPSHOT_LATCH and DMAP_DATA_READ (R29, R30). -/
def Obligations.MapSnapshot : Prop :=
  (∀ (s : State) (val : BitVec 32), s.awake = true →
    exec (.dmapSnapshotLatch val) s = .next (s.finish (s.setRg 0x048 val).latchSnap)
    ∧ exec .dmapDataRead s = .next (s.finish ((s.setRg 0x048 (s.rg 0x048 + 4)).answer
        (imageWord s.sec.variant s.map.snap (s.rg 0x048).toNat))))
  ∧ (∀ (v : Nat) (m : DMap) (off : Nat), 0x404C ≤ off → imageWord v m off = 0)
  ∧ (∀ s : State, s.latchSnap.map.snap = s.curMap ∧ s.latchSnap.rg 0x050 = s.rg 0x044)
  ∧ (∀ (s : State) (m : DMap) (off : Nat), off = 0x04C ∨ off = 0x050 ∨ (0x060 ≤ off ∧ off < 0x080) →
      (s.withMap m).regVal (pageAt .chip 0) off = s.regVal (pageAt .chip 0) off
      ∧ (s.withMap m).regVal (pageAt .chip 0) 0x044 = s.regVal (pageAt .chip 0) 0x044 + 1)
  ∧ ∀ (s : State) (ms : BitVec 16), s.awake = true → s.inPhase 7 = true → s.boot.ready = false →
      ∃ u, exec (.bootReady ms) s = .next (s.finish u) ∧ u.map.snap = s.curMap

/-- HDR, TOKEN and END (R95, R97, R98): what each does when it is the sequencer's next descriptor.
LOOP, SETCNT and BRK (R101, R103). -/
def Obligations.SequencerDescriptorsAct : Prop :=
  (∀ (s s' : State) (sq : Fin 146) (key raw n : Nat), s.awake = true → s.Takes s' sq.val key raw n →
    (s'.seqOf sq.val).MayIndex raw →
    (key = 0x00 → exec (.hdr sq) s = .next (s.finish ((s'.control sq.val raw).moveOn sq.val n)))
    ∧ (key = 0x05 → exec (.token sq) s = .next (s.finish ((s'.control sq.val raw).moveOn sq.val n)))
    ∧ (key = 0x06 → exec (.endStream sq) s = .next (s.finish
        (((s'.control sq.val raw).setSeq sq.val { (s'.control sq.val raw).seqOf sq.val with ended := true }).wrapUp sq.val))))
  ∧ (∀ (s s' : State) (sq : Fin 146) (key raw n : Nat), s.awake = true → s.Takes s' sq.val key raw n →
    (key = 0x01 → ∀ (u : State) (k after m : Nat),
      s'.scanBody sq.val (db raw 17 1) ((s'.seqOf sq.val).pt.line + n) = (u, .got k after m) →
      (u.seqOf sq.val).MayIndex raw →
      exec (.loop sq) s = .next (s.finish ((u.control sq.val raw).goTo sq.val ((u.seqOf sq.val).pt.loop raw after))))
    ∧ ((s'.seqOf sq.val).MayIndex raw →
    (key = 0x02 → bit raw 136 = false →
      exec (.setcnt sq) s = .next (s.finish ((s'.control sq.val raw).goTo sq.val
        (StreamPt.past { (s'.seqOf sq.val).pt with
          cnt := (s'.seqOf sq.val).pt.cnt.set (bits (db raw 16 1) 0 3)
            (leNat (leBytes 4 ((s'.seqOf sq.val).pt.operand 2 raw 0 0).1)) } n))))
    ∧ (key = 0x02 → bit raw 136 = true → ∀ (u : State) (b : List Byte),
      s'.storeWord sq.val ((s'.seqOf sq.val).pt.operand 2 raw 0 0).1 = (u, .ok b) →
      exec (.setcnt sq) s = .next (s.finish ((u.control sq.val raw).goTo sq.val
        (StreamPt.past { (s'.seqOf sq.val).pt with
          cnt := (s'.seqOf sq.val).pt.cnt.set (bits (db raw 16 1) 0 3) (leNat b) } n))))
    ∧ (key = 0x03 → ∀ (nest : Nest), (s'.seqOf sq.val).pt.nest = some nest →
      (db raw 17 1 = 0 →
        exec (.brk sq) s = .next (s.finish ((s'.control sq.val raw).goTo sq.val
          ((s'.seqOf sq.val).pt.next nest (bits (db raw 16 1) 0 3)))))
      ∧ (db raw 17 1 = 1 → ∀ (u : State) (b : List Byte),
        s'.storeWord sq.val ((s'.seqOf sq.val).pt.operand 3 raw 0 0).1 = (u, .ok b) →
        exec (.brk sq) s = .next (s.finish ((u.control sq.val raw).goTo sq.val
          (if leNat b ≠ 0 then (s'.seqOf sq.val).pt.next nest (bits (db raw 16 1) 0 3) else (s'.seqOf sq.val).pt.past n))))
      ∧ (db raw 17 1 = 2 → ∀ (u : State) (b : List Byte),
        s'.storeWord sq.val ((s'.seqOf sq.val).pt.operand 3 raw 0 0).1 = (u, .ok b) →
        exec (.brk sq) s = .next (s.finish ((u.control sq.val raw).goTo sq.val
          (if leNat b = 0 then (s'.seqOf sq.val).pt.next nest (bits (db raw 16 1) 0 3) else (s'.seqOf sq.val).pt.past n)))))))

/-- CALL (R110, R113), JOB (R109) and DESCRIPTOR_DISPATCH of an engine's descriptor (R93, R105). -/
def Obligations.HandedOverDescriptors : Prop :=
  ∀ (s s' : State) (key raw n : Nat), s.awake = true →
    (∀ sq : Fin 146, s.Takes s' sq.val key raw n → key = 0x04 → (s'.seqOf sq.val).MayIndex raw →
      (s'.seqOf sq.val).skip.contains (s'.seqOf sq.val).nextX = false →
      (s'.sh.callq.length < 1024 →
        exec (.call sq) s = .next (s.finish
          (((({ s'.setSeq sq.val { (s'.seqOf sq.val).index (waitOf raw) (sigOf raw) 0 with
                tok := applyTok (s'.seqOf sq.val).tok (waitOf raw) none, calls := (s'.seqOf sq.val).calls + 1,
                syncWait := bit raw 144 } with
              sh := { s'.sh with callq := s'.sh.callq ++
                [{ sq := sq.val, item := (s'.seqOf sq.val).item, task := (s'.seqOf sq.val).task,
                   x := (s'.seqOf sq.val).nextX, routine := db raw 16 2, algo := db raw 24 4,
                   args := (List.range 8).map fun i => ((s'.seqOf sq.val).pt.operand 4 raw i 0).1, stat := db raw 20 4,
                   sync := bit raw 144, sig := sigOf raw }] } } : State).countDisp sq.val 1).moveOn sq.val n))))
      ∧ (1024 ≤ s'.sh.callq.length → exec (.call sq) s = .next (s.finish s')))
    ∧ (∀ (tile : Fin 2) (it : Item), s.Takes s' (144 + tile.val) key raw n → key = 0x50 →
      (s'.seqOf (144 + tile.val)).nextX < (s'.seqOf (144 + tile.val)).low + 544 →
      s'.itemOf (s'.seqOf (144 + tile.val)).item = some it →
      (s'.seqOf (144 + tile.val)).skip.contains (s'.seqOf (144 + tile.val)).nextX = false →
      ((s'.accOf (db raw 17 1 % 2)).queue.filter fun j => j.cls == db raw 16 1 - 1).length < 32 →
      exec (.job tile) s = .next (s.finish (
        ({ s'.setSeq (144 + tile.val) ((s'.seqOf (144 + tile.val)).index (waitOf raw) (sigOf raw) 0) with
            acc := Tbl.set {} s'.acc (db raw 17 1 % 2)
              { s'.accOf (db raw 17 1 % 2) with
                queue := (s'.accOf (db raw 17 1 % 2)).queue ++
                  [{ sq := 144 + tile.val, fn := it.fn, owner := it.owner, tile := db raw 17 1 % 2, item := (s'.seqOf (144 + tile.val)).item,
                     task := (s'.seqOf (144 + tile.val)).task, x := (s'.seqOf (144 + tile.val)).nextX,
                     line := (s'.seqOf (144 + tile.val)).pt.line, cls := db raw 16 1 - 1,
                     addr := ((s'.seqOf (144 + tile.val)).pt.operand 0x50 raw 0 0).1, bytes := db raw 20 4, raw := 0,
                     stat := db raw 32 8, wait := waitOf raw, sig := sigOf raw, res := none, tStart := 0 }] } } : State).moveOn (144 + tile.val) n)))
    ∧ (∀ sq : Fin 146, s.Takes s' sq.val key raw n → 0x10 ≤ key → key ≠ 0x50 →
      (∀ c ∈ (s'.seqOf sq.val).copies key raw, (s'.fifoOf sq.val c.1).length < 32) →
      (s'.seqOf sq.val).nextX + ((s'.seqOf sq.val).copies key raw).length - 1 < (s'.seqOf sq.val).low + 544 →
      exec (.descriptorDispatch sq) s = .next (s.finish
        (((((s'.seqOf sq.val).copies key raw).foldl (fun s c => s.place1 sq.val c) s').countDisp sq.val
          (count (fun i => decide ((s'.seqOf sq.val).low ≤ (s'.seqOf sq.val).nextX + i)
            && !(s'.seqOf sq.val).skip.contains ((s'.seqOf sq.val).nextX + i))
            ((s'.seqOf sq.val).copies key raw).length)).moveOn sq.val n)))

/-- TOKEN_WAIT_SATISFIED, DESCRIPTOR_COMPLETE (R97) and STREAM_RESUME (R117). -/
def Obligations.TokensAndCompletion : Prop :=
  (∀ (s : State) (sq : Fin 146) (eng : Engine) (d : XDesc) (rest : List XDesc), s.awake = true → sq.val < 144 →
    s.fifoOf (s.served sq.val eng) eng = d :: rest → d.started = false →
    (s.seqOf (s.served sq.val eng)).ready (waitOf d.raw) = true →
    exec (.tokenWaitSatisfied sq eng) s = .next (s.finish
      ((s.setSeq (s.served sq.val eng) { s.seqOf (s.served sq.val eng) with
          tok := applyTok (s.seqOf (s.served sq.val eng)).tok (waitOf d.raw) none }).setFifo
        (s.served sq.val eng) eng ({ d with started := true } :: rest))))
  ∧ (∀ (s : State) (sq : Fin 146) (m : Fin 4) (d : XDesc) (rest : List XDesc), s.awake = true → sq.val < 144 →
    s.fifoOf (s.served sq.val (.mover m)) (.mover m) = d :: rest → d.ran = true →
    s.acked (s.served sq.val (.mover m) * 8 + m.val) d.x = true →
    exec (.descriptorComplete sq (.mover m)) s = .next (s.finish
      (((s.setFifo (s.served sq.val (.mover m)) (.mover m) rest).forget (s.served sq.val (.mover m) * 8 + m.val)).doneX
        (s.served sq.val (.mover m)) d.x true)))
  ∧ (∀ (s : State) (sq : Fin 146) (u : Fin 12) (d : XDesc) (rest : List XDesc), s.awake = true → sq.val < 144 →
    (s.cuOf (s.served sq.val (.unit u)) u.val).fin = d :: rest →
    exec (.descriptorComplete sq (.unit u)) s = .next (s.finish
      ((s.setCu (s.served sq.val (.unit u)) u.val { s.cuOf (s.served sq.val (.unit u)) u.val with fin := rest }).doneX
        (if d.away then 300 + s.served sq.val (.unit u) else s.served sq.val (.unit u)) d.x true)))
  ∧ (∀ (s : State) (cl : Fin 144) (i t : Nat) (x : Task) (v : StreamSave), s.awake = true →
    (s.clOf cl.val).placed = some (i, t) → s.taskOf i t = some x → x.save = some v →
    exec (.streamResume cl) s = .next (s.finish
      ((s.setTask i t { x with save := none }).setSeq cl.val
        { (s.setTask i t { x with save := none }).seqOf cl.val with
          pt := v.pt, tok := v.tok, lowTok := v.tok, nextX := v.xidx - v.rank, low := v.xidx, hist := [], skip := v.done,
          kdone := v.kdone })))
  ∧ (∀ (l : List Int) (t : Nat), t < l.length →
    nth 0 (applyTok l none (some t)) t = min 65535 (nth 0 l t + 1)
    ∧ nth 0 (applyTok l (some t) none) t = nth 0 l t - 1
    ∧ ∀ u, u ≠ t → nth 0 (applyTok l (some t) none) u = nth 0 l u ∧ nth 0 (applyTok l none (some t)) u = nth 0 l u)

/-- The procedure of R80, and its worked example. -/
def Obligations.FadeProcedure : Prop :=
  (∀ (u : ChorusUnit) (want : Bool), u.level ≤ 8 → u.phase < 6 →
    (u.level = 0 → want = false →
      (u.cycle 8 want).2 = false ∧ (((u.cycle 8 want).1).fadeEnd 8) = { u with want := false, credit := 0, phase := 0 })
    ∧ (¬ (u.level = 0 ∧ want = false) →
      ((u.cycle 8 want).2 = true ↔ 8 ≤ u.credit + max 1 u.level)
      ∧ (((u.cycle 8 want).1).fadeEnd 8) = { u with
          want := want,
          credit := if 8 ≤ u.credit + max 1 u.level then u.credit + max 1 u.level - 8 else u.credit + max 1 u.level,
          phase := if want ≠ u.want then 1 else if u.phase + 1 = 6 then 0 else u.phase + 1,
          level := if want = u.want ∧ u.phase + 1 = 6 then
              (if want = true ∧ max 1 u.level < 8 then max 1 u.level + 1
               else if want = true then max 1 u.level else max 1 u.level - 1)
            else max 1 u.level }))
  ∧ (let run := fun (want : Bool) (n : Nat) (u : ChorusUnit) => (List.range n).foldl
        (fun (p : ChorusUnit × List Bool) _ => ((p.1.cycle 8 want).1.fadeEnd 8, p.2 ++ [(p.1.cycle 8 want).2])) (u, [])
     ((run true 48 {}).2.filter id).length = 27
     ∧ (run true 7 {}).2 = [false, false, false, false, false, false, true]
     ∧ (run true 48 {}).1.level = 8 ∧ (run true 48 {}).1.credit = 0
     ∧ (run true 42 {}).1.level = 8 ∧ (run true 41 {}).1.level = 7
     ∧ (run false 48 { level := 8, want := false }).1.level = 0)

/-- FADE_STEP (R80), KSTEP_ISSUE (R71, R80, R81), BANK_REQUEST_AGED (R85), BEAT_END (R75).
MMA (R104) and MMA_QUAD (R74). -/
def Obligations.ChorusUnitCycles : Prop :=
  (∀ (s : State) (cl : Fin 144) (u : Fin 12), s.awake = true →
    exec (.fadeStep cl u) s = .next (s.finish (s.setCu cl.val u.val ((s.cuOf cl.val u.val).fadeEnd (s.ceiling cl.val))))
    ∧ (∀ (others : List BankReq) (s1 s2 : State) (c : ChorusUnit × Bool),
      s1 = (s.endBeat cl.val u.val).startCmd cl.val u.val →
      c = (s1.cuOf cl.val u.val).cycle (s1.ceiling cl.val) (s1.wants cl.val u.val) →
      s2 = s1.setCu cl.val u.val { c.1 with beatCyc := c.1.beatCyc + bn c.1.cur.isSome } →
      (c.2 = false → exec (.kstepIssue cl u others) s = .next (s.finish s2))
      ∧ (c.2 = true → (s2.cuOf cl.val u.val).sub ≠ 0 → exec (.kstepIssue cl u others) s = .next (s.finish
          (s2.setCu cl.val u.val { s2.cuOf cl.val u.val with sub := (s2.cuOf cl.val u.val).sub - 1 })))
      ∧ (c.2 = true → (s2.cuOf cl.val u.val).sub = 0 → (s2.cuOf cl.val u.val).cur = none → (s2.cuOf cl.val u.val).want = true →
          exec (.kstepIssue cl u others) s = .next (s.finish (s2.bump64 .clus cl.val 0x068 1)))
      ∧ (∀ (d : XDesc) (lines : List Nat) (s3 : State) (ok : Bool), c.2 = true → (s2.cuOf cl.val u.val).sub = 0 →
          (s2.cuOf cl.val u.val).cur = some d → s2.holding cl.val u.val = false →
          lines = (((s2.cuOf cl.val u.val).allReads d).flatMap fun r => linesAt r.1 r.2).eraseDups →
          s2.bankServe cl.val (.chorus u) lines [] others = (s3, ok) →
          (ok = false → exec (.kstepIssue cl u others) s = .next (s.finish (s3.bump .clus cl.val 0x078 1)))
          ∧ (ok = true →
            maxBy (fun b => ((lines.map (· % 48)).filter (· == b)).length) (lines.map (· % 48))
              ≤ (s2.cuOf cl.val u.val).lines + 1 →
            exec (.kstepIssue cl u others) s = .next (s.finish (s3.issueK cl.val u.val d)))))
    ∧ (∀ (client : BankClient) (x : Cluster) (n : Nat) (aged : Bool), x = s.clOf cl.val →
      Tbl.get (0, false) x.waits (clientCode client) = (n, aged) → 16 ≤ n →
      exec (.bankRequestAged cl client) s = .next (s.finish
        (s.setCl cl.val { x with waits := Tbl.set (0, false) x.waits (clientCode client) (n, true) })))
    ∧ (0 < (s.cuOf cl.val u.val).beatCyc → ((s.cuOf cl.val u.val).cur = none ∨ 512 ≤ (s.cuOf cl.val u.val).beatCyc) →
      exec (.beatEnd cl u) s = .next (s.finish
        (((((s.setCu cl.val u.val { s.cuOf cl.val u.val with beatCyc := 0 }).bump .clus cl.val 0x070 1).landUnit
          cl.val u.val).wrapUp cl.val)))))
  ∧ (∀ (s s1 s2 s3 : State) (cl : Fin 144) (u : Fin 12) (d : XDesc), s.awake = true →
    s1 = s.startCmd cl.val u.val → (s1.cuOf cl.val u.val).cur = some d →
    s2 = (((s1.runK cl.val u.val d.ksteps).drainPipe cl.val u.val 1024).readAllOut cl.val u.val 128) →
    s3 = (if (s2.cuOf cl.val u.val).cur = none ∧ (s2.cuOf cl.val u.val).beatCyc = 0 ∧ (s2.cuOf cl.val u.val).fin ≠ []
          then s2.setCu cl.val u.val { s2.cuOf cl.val u.val with beatCyc := 1 } else s2) →
    (d.key = 0x10 → exec (.mma cl u) s = .next (s.finish ((s3.endBeat cl.val u.val).completeHead cl.val (.unit u))))
    ∧ (d.key = 0x11 → exec (.mmaQuad cl u) s = .next (s.finish ((s3.endBeat cl.val u.val).completeHead cl.val (.unit u)))))

/-- ACCUMULATOR_UPDATE (R71, R87), TILE_READOUT (R73), SPILL_COMPLETE and RESTORE_COMPLETE (R77). -/
def Obligations.AccumulatorsAndContexts : Prop :=
  ∀ (s : State) (cl : Fin 144) (u : Fin 12) (un : ChorusUnit), s.awake = true → un = s.cuOf cl.val u.val →
    (∀ (e : KIssue) (rest : List KIssue) (d : XDesc), un.pipe = e :: rest → e.cmd = some d →
      exec (.accumulatorUpdate cl u none none) s = .next (s.finish (s.setCu cl.val u.val { un with
        pipe := rest, acc := Tbl.set [] un.acc e.bank (e.update d s.free (Tbl.get [] un.acc e.bank) none),
        readout := if d.ksteps ≤ e.k + d.perIssue ∧ d.out = true then un.readout ++ [(e.bank, 0, d)] else un.readout,
        fin := if d.ksteps ≤ e.k + d.perIssue ∧ d.out = false then un.fin ++ [d] else un.fin }))
      ∧ (∀ residue ecc : Option (Fin 33), exec (.accumulatorUpdate cl u residue ecc) s = .next (s.finish
          ((s.eccLost cl.val u.val e.bank ecc).accumulateOne cl.val u.val (residue.map (·.val))))))
    ∧ (∀ (b : Nat) (p : Fin 33), ∃ t : State, s.eccLost cl.val u.val b (some p) = t.raise (pageAt .clus cl.val) 4
        (BitVec.ofNat 32 (s.curMap.cu cl.val u.val + 16 * p.val + 1024 * b)))
    ∧ (∀ (b n : Nat) (d : XDesc) (rest : List (Nat × Nat × XDesc)) (others : List BankReq) (s1 t : State),
      un.readout = (b, n, d) :: rest → d.groups = 1 →
      s.bankServe cl.val (.readout u) [] (d.vectorLines 0 n) others = (s1, true) →
      s1.readVector (if d.away then 300 + cl.val else cl.val) d (Tbl.get [] un.acc b) 0 n = (t, 0) →
      exec (.tileReadout cl u none others) s = .next (s.finish (t.setCu cl.val u.val
        (if n = 31 then { t.cuOf cl.val u.val with readout := rest, fin := (t.cuOf cl.val u.val).fin ++ [d] }
         else { t.cuOf cl.val u.val with readout := (b, n + 1, d) :: rest }))))
    ∧ (∀ (b fn : Nat) (others : List BankReq) (ecc : Option (Fin 33)) (s1 t : State), un.spilling = some b →
      (un.pipe.any fun e => e.bank == b) = false →
      s1 = (s.collide cl.val (s.bankBefore cl.val (.spill u) others) (linesAt (ctxBase + u.val * 0x6000) 0x6000)).eccLost
        cl.val u.val b ecc →
      fn = (match un.leaving.bind fun p => s1.itemOf p.1 with
        | some it => it.fn
        | none => 0) →
      t = (s1.csWrite cl.val fn (ctxBase + u.val * 0x6000)
        ((Tbl.get [] (s1.cuOf cl.val u.val).acc b
          ++ List.replicate (1024 - (Tbl.get [] (s1.cuOf cl.val u.val).acc b).length) ({} : Acc)).flatMap Acc.bytes)
        false).1 →
      exec (.spillComplete cl u ecc others) s = .next (s.finish (((t.setCu cl.val u.val { t.cuOf cl.val u.val with
        spilling := none, leaving := none, acc := Tbl.set [] (t.cuOf cl.val u.val).acc b [],
        ctx := (t.cuOf cl.val u.val).leaving }).wrapUp cl.val).wrapUp (300 + cl.val))))
    ∧ (∀ (t : State) (b : List Byte), un.restoring = true → un.ctx = (s.clOf cl.val).placed →
      s.csRead cl.val (ctxBase + u.val * 0x6000) 0x6000 = (t, some b) →
      exec (.restoreComplete cl u) s = .next (s.finish (t.setCu cl.val u.val { t.cuOf cl.val u.val with
        restoring := false, ctx := none, part := true,
        acc := Tbl.set [] (t.cuOf cl.val u.val).acc (t.cuOf cl.val u.val).bank ((pieces 24 1025 b).map accOf) })))
    ∧ (∀ t : State, un.restoring = true → un.ctx = (s.clOf cl.val).placed →
      s.csRead cl.val (ctxBase + u.val * 0x6000) 0x6000 = (t, none) →
      exec (.restoreComplete cl u) s = .next (s.finish
        (((t.setCu cl.val u.val { t.cuOf cl.val u.val with restoring := false, ctx := none }).raise (pageAt .clus cl.val) 9
          (cuInfo (t.curMap.cu cl.val u.val) 0x3F)).failX cl.val stPoisoned (t.seqOf cl.val).pt.line)))

/-- R55: sums in the exact accumulator are independent of their order. -/
def Obligations.ExactSumsCommute : Prop :=
  (∀ (l m : List (Factor × Factor)) (c : Acc), l.Perm m → (∀ p ∈ l, p.1.Whole ∧ p.2.Whole) →
    l.foldl (fun c p => c.addExact p.1 p.2) c = m.foldl (fun c p => c.addExact p.1 p.2) c)
  ∧ (∀ (f code : Nat) (x : Int), isNarrow f = true → code < 2 ^ (fmtOf f).width → Factor.Whole ⟨f, x, decodeFmt (fmtOf f) code⟩)
  ∧ (∀ code : Nat, code < 2 ^ 16 → Factor.Whole ⟨16, 0, decodeFmt (fmtOf 4) code⟩)

/-- VMAP, VRED, VCVT (R106), GET, PUT, ATOMIC (R108) and FENCE (R356). -/
def Obligations.EnginesOfACluster : Prop :=
  ∀ (s s1 s2 s3 s4 : State) (cl : Fin 144) (h d : XDesc) (rest : List XDesc) (others : List BankReq), s.awake = true →
    (∀ (k : Nat) (residue : Option Nat), k = s.served cl.val .vec → s.fifoOf k .vec = h :: rest → s.live k = true →
      s.startHead k .vec = (s1, some d) → d.ran = false →
      s1.bankServe cl.val .vec d.vecLines.1 d.vecLines.2 others = (s2, true) →
      s3 = (if residue.isSome then (s2.bump .clus cl.val 0x09C 1).raise (pageAt .clus cl.val) 5 (cuInfo 0xF 0x3F) else s2) →
      (h.key = 0x20 → State.runVmap residue s3 k d = (s4, 0) →
        exec (.vmap cl residue others) s = .next (s.finish ((s4.ranHead k .vec).completeHead k .vec)))
      ∧ (h.key = 0x21 → State.runVred residue s3 k d = (s4, 0) →
        exec (.vred cl residue others) s = .next (s.finish ((s4.ranHead k .vec).completeHead k .vec)))
      ∧ (h.key = 0x22 → State.runVcvt residue s3 k d = (s4, 0) →
        exec (.vcvt cl residue others) s = .next (s.finish ((s4.ranHead k .vec).completeHead k .vec))))
    ∧ (∀ (mv : Fin 4) (k : Nat) (b : List Byte), k = s.served cl.val (.mover mv) → s.fifoOf k (.mover mv) = h :: rest →
      s.live k = true → s.servesCl k = true → s.startHead k (.mover mv) = (s1, some d) → d.ran = false →
      s1.bankServe cl.val (.mover mv) d.moverLines.1 d.moverLines.2 (if h.key = 0x33 then [] else others) = (s2, true) →
      (h.key = 0x30 → s2.moveSegs k (.mover mv) (s2.clWho k (.mover mv) d.x) d (d.segs - d.k0) d.k0 = (s3, .ok b) →
        exec (.get cl mv others) s = .next (s.finish ((s3.ranHead k (.mover mv)).completeHead k (.mover mv))))
      ∧ (h.key = 0x31 → s2.moveSegs k (.mover mv) (s2.clWho k (.mover mv) d.x) d (d.segs - d.k0) d.k0 = (s3, .ok b) →
        exec (.put cl mv others) s = .next (s.finish ((s3.ranHead k (.mover mv)).completeHead k (.mover mv))))
      ∧ (h.key = 0x32 → s2.moverAtom k (.mover mv) (s2.clWho k (.mover mv) d.x) d = (s3, .ok b) →
        exec (.atomic cl mv others) s = .next (s.finish ((s3.ranHead k (.mover mv)).completeHead k (.mover mv))))
      ∧ (h.key = 0x33 → s2.moverFence k (.mover mv) (s2.clWho k (.mover mv) d.x) d = (s3, .ok b) →
        exec (.fence cl mv) s = .next (s.finish ((s3.ranHead k (.mover mv)).completeHead k (.mover mv)))))

/-- The resident routines (R111): each row with its routine code and what its first phase plans. -/
def Obligations.ResidentRoutinesRun : Prop :=
  ∀ (s t : State) (th : Fin 224) (words : List (List (BitVec 32))) (blocks : List (List (BitVec 8))) (data : List (BitVec 8)),
    s.awake = true →
    (s.Routine t th.val 0x01 planFill → exec (.fill th) s = .next (s.finish t))
    ∧ (s.Routine t th.val 0x02 planCopy → exec (.copy th) s = .next (s.finish t))
    ∧ (s.Routine t th.val 0x03 planGather → exec (.gatherRows th) s = .next (s.finish t))
    ∧ (s.Routine t th.val 0x04 planScatter → exec (.scatterRows th) s = .next (s.finish t))
    ∧ (s.Routine t th.val 0x10 (planReduce words fun s c _ r => (s, writePieces (c.arg 0) (redOut (c.arg 2) r))) →
        exec (.allreduce th words) s = .next (s.finish t))
    ∧ (s.Routine t th.val 0x11 (planReduce words State.share) → exec (.reduceScatter th words) s = .next (s.finish t))
    ∧ (s.Routine t th.val 0x12 (planBlocks 2 blocks (fun _ => 1) blocksOut) →
        exec (.allgather th blocks) s = .next (s.finish t))
    ∧ (s.Routine t th.val 0x13 (planBroadcast data) → exec (.broadcast th data) s = .next (s.finish t))
    ∧ (s.Routine t th.val 0x14 (planBlocks 2 blocks (fun g => g.members.length) blocksOut) →
        exec (.alltoall th blocks) s = .next (s.finish t))
    ∧ (s.Routine t th.val 0x15 planBarrier → exec (.barrier th) s = .next (s.finish t))
    ∧ (s.Routine t th.val 0x20 planDigest → exec (.digestRegion th) s = .next (s.finish t))
    ∧ (s.Routine t th.val 0x21 planSem → exec (.semArrive th) s = .next (s.finish t))
    ∧ (s.Routine t th.val 0x22 planTime → exec (.timeRead th) s = .next (s.finish t))
    ∧ (s.Routine t th.val 0x30 planMbox → exec (.mboxPost th) s = .next (s.finish t))

/-- CALL_START (R113), CALL_RETURN (R110), THREAD_WATCHDOG_EXPIRE (R114), HEARTBEAT_REFRESH and HEARTBEAT_MISSED (R115). -/
def Obligations.StagehandThreads : Prop :=
  ∀ (s : State) (th : Fin 224) (core : Fin 32), s.awake = true →
    (∀ (c : Call) (rest : List Call), (s.thOf th.val).call = none → s.sh.callq = c :: rest → s.coreOn (th.val / 7) = true →
      exec (.callStart th) s = .next (s.finish { s with sh := { s.sh with
        callq := rest, threads := Tbl.set {} s.sh.threads th.val { call := some c } } }))
    ∧ (∀ (c : Call) (st v : Nat) (t1 t2 t3 : State), (s.thOf th.val).call = some c → (s.thOf th.val).result = some (st, v) →
      s.acked (2000 + th.val) c.x = true → c.sq ≠ 144 → c.sq ≠ 145 →
      t1 = (((s.setTh th.val {}).forget (2000 + th.val)).bump64 .stgh 0 0x060 1) →
      t1.storeWrite c.sq c.stat (leBytes 4 st) false = (t2, .ok []) →
      t2.storeWrite c.sq (c.stat + 8) (leBytes 8 v) false = (t3, .ok []) →
      (c.sync = false ∨ st = 0) →
      exec (.callReturn th) s = .next (s.finish ((t3.setSeq c.sq { t3.seqOf c.sq with
        calls := (t3.seqOf c.sq).calls - 1, syncWait := (t3.seqOf c.sq).syncWait && !c.sync }).doneX c.sq c.x true)))
    ∧ ((s.thOf th.val).call ≠ none → ∀ t : State, t = s.bump .stgh 0 0x058 1 →
      exec (.threadWatchdogExpire th) s = .next (s.finish
        ((({ t with free := t.free + 1 } : State).raise (pageAt .stgh 0) 1 (Config.freeWord t.free)).abortCalls [th.val])))
    ∧ (s.coreOn core.val = true →
      exec (.heartbeatRefresh core) s = .next (s.finish
        { s with sh := { s.sh with beats := Tbl.set 0 s.sh.beats core.val s.time.clk } })
      ∧ exec (.heartbeatMissed core) s = .next (s.finish (s.missBeat core.val)))

/-- Plans of the routines that the manual states in one sentence (R111). -/
def Obligations.RoutinePlans : Prop :=
  ∀ (s : State) (w : Who) (c : Call),
    (∃ ws, planFill s w c = (s, .ready ws 0 0)
      ∧ (ws.flatMap (·.2)).length = c.arg 1
      ∧ (∀ i, i < c.arg 1 → nth 0 (ws.flatMap (·.2)) i = BitVec.ofNat 8 (bits (c.arg 2) (8 * ((c.arg 0 + i) % 8)) 8))
      ∧ ∀ k p, ws[k]? = some p → p.1 = (c.arg 0 + 16384 * k) % 2 ^ 64)
    ∧ (8 < c.arg 0 → planTime s w c = (s, .ready [] 1 0))
    ∧ (c.arg 0 < 8 → planTime s w c = (s, .ready [] 0 (s.t64 (c.arg 0))))
    ∧ (c.arg 0 = 8 → planTime s w c = (s, .ready [] 0 s.time.ltcNs))
    ∧ (c.arg 0 % 8 ≠ 0 → planSem s w c = (s, .fail stAccess))
    ∧ planBarrier s w c = (s, .ready [] ((s.groupStatus (c.arg 4)).getD 0) 0)

/-- QUEUE_DOORBELL, QUEUE_ENABLE_WRITE, CQ_HEAD_WRITE, QUEUE_WATCHDOG_EXPIRE, ENTRY_ACCEPT, COMPLETION_WRITE and
RETURNED_REPORT_WRITE.
Completions in ascending sequence number, and only while the ring has room (R121). -/
def Obligations.QueueCommands : Prop :=
  (∀ (s : State) (fn : Fin 256) (q : Fin 16) (val : BitVec 32), s.awake = true →
    ((s.fnOf fn.val).st ≠ .striking → s.shut fn.val = false →
      ((val - s.rg (qreg fn.val q.val 0x18)).toNat ≤ s.ringSize fn.val q.val →
        exec (.queueDoorbell fn q val) s = .next (s.finish (s.setRg (qreg fn.val q.val 0x14) val)))
      ∧ (s.ringSize fn.val q.val < (val - s.rg (qreg fn.val q.val 0x18)).toNat →
        exec (.queueDoorbell fn q val) s = .next (s.finish
          (s.setRg (qreg fn.val q.val 4) (setFld (s.rg (qreg fn.val q.val 4)) 1 1 1)))))
    ∧ (fld (s.rg (qreg fn.val q.val 0)) 8 8 = fld val 8 8 →
      exec (.queueEnableWrite fn q val) s = .next (s.finish (s.storeAt (qreg fn.val q.val 0) val)))
    ∧ (fld (s.rg (qreg fn.val q.val 0)) 8 8 ≠ fld val 8 8 →
      exec (.queueEnableWrite fn q val) s = .next (s.finish ((s.storeAt (qreg fn.val q.val 0) val).newQStretch fn.val q.val)))
    ∧ exec (.cqHeadWrite fn q val) s = .next (s.finish (s.setRg (qreg fn.val q.val 0x30) val))
    ∧ (fld (s.rg (qreg fn.val q.val 0)) 8 8 ≠ 0 → s.qDepth fn.val q.val ≠ 0 →
      Tbl.get false s.work.fired (fn.val * 16 + q.val) = false →
      ∀ t : State, t = { s with work := { s.work with fired := Tbl.set false s.work.fired (fn.val * 16 + q.val) true } } →
      exec (.queueWatchdogExpire fn q) s = .next (s.finish
        ((t.setRg (qreg fn.val q.val 4) (setFld (t.rg (qreg fn.val q.val 4)) 2 1 1)).raise (fnPage fn.val) 1
          (BitVec.ofNat 32 (fn.val + 256 * q.val)))))
    ∧ (∀ (t : State) (b : List Byte), s.mayAccept fn.val q.val = true → s.pbFree ≠ 0 →
      s.gRead (s.smWho fn.val 0 0)
        (s.pair (qreg fn.val q.val 0x08) + 64 * ((s.rg (qreg fn.val q.val 0x18)).toNat % s.ringSize fn.val q.val)) 64 false
          = (t, .ok b) →
      exec (.entryAccept fn q true) s = .next (s.finish (t.takeEntry fn.val q.val (leNat b))))
    ∧ (∀ (c : Compl) (rest : List Compl) (t : State), s.heldOf fn.val q.val = c :: rest → s.smRuns = true →
      (s.fnOf fn.val).st ≠ .striking →
      (s.work.items.any fun p => p.2.fn == fn.val && p.2.queue == q.val && decide (p.2.seqNo < c.seqNo)) = false →
      c.gen = (s.fnOf fn.val).gen.toNat → s.cqFull fn.val q.val = false →
      s.ringWrite fn.val q.val (c.bytes c.gen) = some t →
      exec (.completionWrite fn q) s = .next (s.finish ((t.dropItem fn.val q.val c.seqNo).newQStretch fn.val q.val)))
    ∧ (∀ (x : TailCopy) (t : State), firstReport s.work.reports = some x → s.smRuns = true →
      fld (s.rg (qreg 0 0 0)) 0 1 = 1 → s.cqFull 0 0 = false →
      ∀ c : Compl, c = { seqNo := x.seqNo, tag := x.tag, status := stReturned, cause := 0, fn := x.fn, queue := x.queue,
                         gen := x.gen, task := 0xFFFFFFFF, tDone := s.tsNow 4, flags := 0x10 } →
      s.ringWrite 0 0 (c.bytes x.gen) = some t →
      exec .returnedReportWrite s = .next (s.finish
        { t with work := { t.work with reports := dropFirst x t.work.reports } })))
  ∧ (∀ (s : State) (fn : Fin 256) (q : Fin 16) (c : Compl) (rest : List Compl), s.awake = true → s.Settled →
    s.heldOf fn.val q.val = c :: rest → c.gen = (s.fnOf fn.val).gen.toNat →
    (s.cqSize fn.val q.val ≤ (s.rg (qreg fn.val q.val 0x2C) - s.rg (qreg fn.val q.val 0x30)).toNat
      ∨ ∃ p ∈ s.work.items, p.2.fn = fn.val ∧ p.2.queue = q.val ∧ p.2.seqNo < c.seqNo) →
    exec (.completionWrite fn q) s = .next s)

/-- TASK_PLACE (R134), TASK_FIRST_DISPATCH and TASK_COMPLETE (R138). -/
def Obligations.TasksPlayAndEnd : Prop :=
  ∀ (s : State) (i : Nat) (task : Fin 4096), s.awake = true →
    (∀ (it : Item) (x : Task) (p : Nat × Nat) (t : State) (h : List (Option (Bool × Nat × Nat × Nat × Nat))),
      s.itemOf i = some it → s.taskOf i task.val = some x → s.placeable it x = true → s.pick it i task.val x = some p →
      s.isFirst it x task.val p = true → s.readHdrs it.fn [x] = (t, some h) →
      exec (.taskPlace i task) s = .next (s.finish ((t.forget 7000).placeAt i task.val it x p (nth none h 0))))
    ∧ (∀ (x : Task) (it : Item) (l k : Nat), s.taskOf i task.val = some x → s.itemOf i = some it → x.st = .cued →
      s.smRuns = true → x.place = some (l, k) → x.save = none →
      (∀ t u : State, x.ty = 1 → (s.clOf k).pwr = .lit → s.aheadOn i task.val k aheadFuel = (t, false) →
        u = (((t.setSeq k { t.seqOf k with running := true }).setTask i task.val { x with
            st := .playing, save := none, ahead := 0, aheadAt := 0,
            tStart := (t.setSeq k { t.seqOf k with running := true }).tsNow
              ((((t.setSeq k { t.seqOf k with running := true }).itemOf i).map (·.home)).getD 0) }).dispatch k fun _ => true) →
        exec (.taskFirstDispatch i task) s = .next (s.finish
          (if (List.range 12).any fun n => (u.cuOf k n).preempt.isSome then u.landNow k else u)))
      ∧ (x.ty = 3 →
        exec (.taskFirstDispatch i task) s = .next (s.finish
          (((s.setSeq (144 + l) { s.seqOf (144 + l) with running := true }).setTask i task.val { x with
            st := .playing, save := none, ahead := 0, aheadAt := 0,
            tStart := (s.setSeq (144 + l) { s.seqOf (144 + l) with running := true }).tsNow it.home }).dispatch (144 + l)
              fun _ => true))))
    ∧ (∀ (pbOk : Bool) (st cause line : Nat) (t : State),
      (s.work.ends.find? fun e => e.1 == i && e.2.1 == task.val) = some (i, task.val, st, cause, line) →
      (st = 0 → s.writePlaybill i task.val pbOk = (t, true) →
        exec (.taskComplete i task pbOk) s = .next (s.finish
          (({ t with work := { t.work with ends := t.work.ends.filter fun e => !(e.1 == i && e.2.1 == task.val) } } : State).finishTask
            i task.val 0 cause line)))
      ∧ (st = 0 → s.writePlaybill i task.val pbOk = (t, false) → exec (.taskComplete i task pbOk) s = .next (s.finish t))
      ∧ (st ≠ 0 → exec (.taskComplete i task pbOk) s = .next (s.finish
          (({ s with work := { s.work with ends := s.work.ends.filter fun e => !(e.1 == i && e.2.1 == task.val) } } : State).finishTask
            i task.val st cause line))))

/-- SM_CTRL (R153). -/
def Obligations.StageManagerControl : Prop :=
  (∀ i : Fin 6, State.reset.rg (pageAddr .stage i.val + 0x040) = 0x31)
  ∧ ∀ (s : State) (inst : Fin 6) (val : BitVec 32), s.awake = true →
    ∃ t, exec (.smCtrlWrite inst val) s = .next (s.finish t)
      ∧ (∀ i : Fin 6, t.rg (pageAddr .stage i.val + 0x040) = BitVec.ofNat 32 (fld val 0 1 +
          16 * (if fld val 4 4 = 0 then fld (s.rg (pageAddr .stage 0 + 0x040)) 4 4 else fld val 4 4) + 256 * fld val 8 3))
      ∧ t = { s with regs := t.regs }
      ∧ ∀ a, (∀ i : Fin 6, a ≠ pageAddr .stage i.val + 0x040) → t.rg a = s.rg a

/-- PERIOD (R155). -/
def Obligations.PeriodsOfTheRunningOrder : Prop :=
  (∀ p : Fin 3, scenesOf p.val = nth 0 [625, 1250, 2500] p.val ∧ periodNs p.val = 50 * scenesOf p.val
    ∧ periodNs p.val * nth 0 [32, 16, 8] p.val = 1000000 ∧ periodNs p.val * nth 0 [16, 8, 4] p.val = 500000
    ∧ periodNs p.val * nth 0 [4, 2, 1] p.val = 125000)
  ∧ ∀ (s : State) (val : BitVec 32), s.awake = true → s.Settled → fld val 1 2 = 3 → exec (.roCommit val) s = .next s

/-- SCENE_BOUNDARY, REALIGN_START, REALIGN_END (R156, R157), LEAD_POINT (R162), RO_COMMIT_APPLY and RO_BANK_COPY_COMPLETE
(R161).
RO_TBL_DATA_ACCESS, RO_BIND_DATA_ACCESS (R174), RO_COMMIT (R161, R175), CURTAIN_PASSED (R171). -/
def Obligations.ScenesAndCommits : Prop :=
  (∀ s : State, s.awake = true →
    (∀ r c : State, r = s.retryFallbacks.retryLate → r.roIdle = false → c = r.countScene →
      (c.ro.scene + 1 < scenesOf r.ro.period →
        exec .sceneBoundary s = .next (s.finish (c.enterScene (c.ro.scene + 1)).pumpAll))
      ∧ (scenesOf r.ro.period ≤ c.ro.scene + 1 → ∀ t : State, t = c.bump64 .runord 0 0x04C 1 →
        ((t.ro.realignDue = false ∨ t.aligned = true) →
          exec .sceneBoundary s = .next (s.finish
            (({ t with ro := { t.ro with realignDue := false } } : State).newPeriod).pumpAll))
        ∧ (t.ro.realignDue = true → t.aligned = false →
          exec .sceneBoundary s = .next (s.finish
            (({ t with ro := { t.ro with scene := scenesOf r.ro.period, claims := [] } } : State).pumpAll)))))
    ∧ (s.time.running = true → s.ro.realignDue = true → s.ro.realign = false → scenesOf s.ro.period ≤ s.ro.scene →
      exec .realignStart s = .next (s.finish
        ((({ s with ro := { s.ro with realign := true, claims := [] } } : State).bump .runord 0 0x054 1).raise
          (pageAt .runord 0) 3 0)))
    ∧ (s.ro.realign = true → exec .realignEnd s = .next (s.finish
        ({ s with ro := { s.ro with realign := false, realignDue := false } } : State).newPeriod))
    ∧ (∀ (lc : Fin 128) (maint : Bool) (k at_ o prev : Nat) (own : Nat → Nat), s.roOn = true → s.roIdle = false →
      s.physCl lc.val = some k → at_ = s.ro.scene + fld (s.pr .runord 0 0x040) 12 4 →
      own = (fun a => if s.stretchAhead && decide (scenesOf s.ro.period ≤ a) then 0x1F
        else s.roOwner s.roBank (arbCl lc.val) (a % scenesOf s.ro.period)) →
      o = own at_ → prev = own (at_ - 1) →
      (o = prev → s.Settled → exec (.leadPoint lc maint) s = .next s)
      ∧ (o ≠ prev → ∀ t : State, t = s.leadOut lc.val k o prev →
        (o = 0x10 → exec (.leadPoint lc maint) s = .next (s.finish t))
        ∧ (o ≠ 0x10 → ∀ (c : Option (Nat × Nat)) (claimed : Bool) (u : State),
          c = (if o = 0x1F then none else t.claimant o lc.val) → claimed = (if o = 0x11 then maint else c.isSome) →
          u = (if o = 0x1F then t else { t with ro := { t.ro with
            claims := Tbl.put t.ro.claims (2 * lc.val + 1) { owner := o, claimed := claimed, task := c } } }) →
          (((u.clOf k).placed = none ∨ (o ≠ 0x1F ∧ claimed = false)) →
            exec (.leadPoint lc maint) s = .next (s.finish u))
          ∧ (∀ (i x : Nat) (it : Item), (u.clOf k).placed = some (i, x) → u.itemOf i = some it → it.owner = 0x10 →
            (o = 0x1F ∨ claimed = true) → ∀ (v : State) (n : Nat), u.preemptCl k .handover = (v, n) →
            exec (.leadPoint lc maint) s = .next (s.finish (v.bump .runord 0 0x070 n))))))
    ∧ (s.ro.commitReq = true → s.roIdle = false → s.ro.realignDue = false → s.ro.scene = 0 →
      (∀ c t, s.commitCause = some c → t = ({ s with ro := { s.ro with commitReq := false } } : State) →
        exec .roCommitApply s = .next (s.finish
          ((t.setPr .runord 0 0x044 (BitVec.ofNat 32 (16 * c))).raise (pageAt .runord 0) 1 (BitVec.ofNat 32 (16 * c)))))
      ∧ (∀ per t, s.commitCause = none → per = s.ro.commitPer → s.commitWaits per = false →
        t = State.takeBudgets { s with ro := { s.ro with
          bankB := !s.ro.bankB, period := per, tb := fld (s.pr .runord 0 0x040) 4 3, commitReq := false, copying := true,
          claims := [], align := (s.pr .runord 0 0x048).toNat % periodNs per } } →
        (t.aligned = true → exec .roCommitApply s = .next (s.finish t.turnClaims))
        ∧ (t.aligned = false → exec .roCommitApply s = .next (s.finish { t with ro := { t.ro with
            scene := scenesOf per, realignDue := true, curPeriod := t.ro.curPeriod - 1 } }))))
    ∧ (s.ro.copying = true → exec .roBankCopyComplete s = .next (s.finish { s with ro := { s.ro with
        copying := false, track := copyBank 160000 s.roBank s.ro.track, bind := copyBank 460 s.roBank s.ro.bind } })))
  ∧ (∀ (s : State) (val : BitVec 32), s.awake = true →
    (∀ a k, a = s.pr .runord 0 0x058 → k = fld a 0 12 →
      exec (.roTblDataAccess false val) s = .next (s.finish ((s.setPr .runord 0 0x058 (setFld a 0 12 (k + 4))).answer
        (BitVec.ofNat 32 (sumBy (fun i =>
          if k + i < 2500 then s.roEntry (1 - s.roBank) (fld a 16 6) (k + i) * 256 ^ i else 0) [0, 1, 2, 3]))))
      ∧ ∃ t, exec (.roTblDataAccess true val) s = .next (s.finish t)
          ∧ t.pr .runord 0 0x058 = setFld a 0 12 (k + 4)
          ∧ (∀ i, i < 4 → k + i < 2500 → t.roEntry (1 - s.roBank) (fld a 16 6) (k + i) = fld val (8 * i) 5)
          ∧ (∀ b tr n, b < 2 → n < 2500 → tr < 64 →
              ¬ (b = 1 - s.roBank ∧ tr = fld a 16 6 ∧ k ≤ n ∧ n < k + 4) → t.roEntry b tr n = s.roEntry b tr n)
          ∧ t = { s with regs := t.regs, ro := { s.ro with track := t.ro.track } })
    ∧ (∀ a, a = fld (s.pr .runord 0 0x060) 0 9 →
      exec (.roBindDataAccess false val) s = .next (s.finish
        ((s.setPr .runord 0 0x060 (BitVec.ofNat 32 ((a + 1) % 512))).answer
          (if a < 460 then BitVec.ofNat 32 (s.roTrack (1 - s.roBank) a) else 0)))
      ∧ (a < 460 → exec (.roBindDataAccess true val) s = .next (s.finish
        (({ s with ro := { s.ro with bind := Tbl.set 0 s.ro.bind ((1 - s.roBank) * 460 + a) (fld val 0 6) } } : State).setPr
          .runord 0 0x060 (BitVec.ofNat 32 ((a + 1) % 512))))))
    ∧ (fld val 1 2 ≠ 3 → ∀ t, t = s.storeAt (pageAddr .runord 0 + 0x040) (if fld val 12 4 < 6 then setFld val 12 4 6 else val) →
      (fld val 8 1 = 1 → t.ro.commitReq = false → t.ro.copying = false →
        exec (.roCommit val) s = .next (s.finish { t with ro := { t.ro with commitReq := true, commitPer := fld val 1 2 } }))
      ∧ (fld val 8 1 = 0 → exec (.roCommit val) s = .next (s.finish t)))
    ∧ (∀ (i : Nat) (it : Item) (x : Task), s.itemOf i = some it → it.radio = true → it.released = false → it.returned = false →
      it.tasks = [x] → s.taskOf i 0 = some x → s.pendEnd i 0 = false → it.curtain ≤ s.t64On it.home it.curtainTb →
      ((x.st = .ready ∨ x.st = .cued ∨ (x.st = .playing ∧ x.ty = 3)) →
        exec (.curtainPassed i) s = .next (s.finish ((s.markDone i 0 stCurtain 0 0).afterDone i 0 false)))
      ∧ (x.st = .playing → ∀ l k, x.place = some (l, k) →
        (x.ty = 1 → ∀ u : State, u = s.curtainCl k →
          ((u.clOf k).unitsLanded = true →
            exec (.curtainPassed i) s = .next (s.finish ((u.markDone i 0 stCurtain 0 0).afterDone i 0 false)))
          ∧ ((u.clOf k).unitsLanded = false → exec (.curtainPassed i) s = .next (s.finish u)))
        ∧ (x.ty = 2 → exec (.curtainPassed i) s = .next (s.finish { s with dsp := (Tbl.upd {} s.dsp k fun d =>
          { d with stopping := true, tret := false, ending := some (stCurtain, 0, 0) }) }))))
    ∧ (∀ (i : Nat) (it : Item), s.itemOf i = some it → s.t64On it.home it.curtainTb < it.curtain → s.Settled →
      exec (.curtainPassed i) s = .next s))

/-- The vector format of the DSP (R210, R218, R219). -/
def Obligations.DspVectorSyllables : Prop :=
  ∀ (s s' : State) (core : Fin 272) (slot : Fin 4) (w : Nat) (d : DspCore) (a b : List Int), s.awake = true →
    s' = (s.bundleStop core.val).1 → d = s.coreOf core.val → w = s'.bundleSyl core.val slot.val →
    a = partsOf 16 16 (d.dv (sA w)) → b = partsOf 16 16 (d.dv (sB w)) →
    (s.Issues core.val slot.val 0x01 → ∀ p, p = accumulate40 (d.av (sD w)) ((List.range 8).map fun i =>
          cmulParts (laneOf (d.dv (sA w)) i) (laneOf (d.dv (sB w)) i)) →
        exec (.cmac core slot) s = .next (s.finish (s'.issueOf core.val slot.val [(1, .ac, sD w, p.1)] none false p.2 id)))
      ∧ (s.Issues core.val slot.val 0x02 → ∀ p, p = accumulate40 (d.av (sD w)) ((List.range 8).map fun i =>
          cmulParts (laneOf (d.dv (sA w)) i) ((laneOf (d.dv (sB w)) i).1, -(laneOf (d.dv (sB w)) i).2)) →
        exec (.cmacj core slot) s = .next (s.finish (s'.issueOf core.val slot.val [(1, .ac, sD w, p.1)] none false p.2 id)))
      ∧ (s.Issues core.val slot.val 0x03 → ∀ p, p = accumulate40 (d.av (sD w)) ((List.range 8).map fun i =>
          cmulParts (laneOf (d.dv (sA w)) i) (laneOf (d.dv (sB w)) (bits w 6 3))) →
        exec (.cmacb core slot) s = .next (s.finish (s'.issueOf core.val slot.val [(1, .ac, sD w, p.1)] none false p.2 id)))
    ∧ (s.Issues core.val slot.val 0x00 → exec (.nop core slot) s = .next (s.finish
        (s'.issueOf core.val slot.val [] none false false id)))
    ∧ (s.Issues core.val slot.val 0x04 → exec (.acclr core slot) s = .next (s.finish
        (s'.issueOf core.val slot.val [(1, .ac, sD w, 0)] none false false id)))
    ∧ (s.Issues core.val slot.val 0x05 → ∀ r, r = satParts ((List.range 8).flatMap fun i =>
          [cround (cmulParts (laneOf (d.dv (sA w)) i) (laneOf (d.dv (sB w)) i)).1 15,
           cround (cmulParts (laneOf (d.dv (sA w)) i) (laneOf (d.dv (sB w)) i)).2 15]) →
        exec (.cmul core slot) s = .next (s.finish
          (s'.issueOf core.val slot.val [(2, .d, sD w, packParts 16 r.1)] none r.2 false id)))
    ∧ (s.Issues core.val slot.val 0x06 → ∀ r, r = satParts ((partsOf 40 16 (d.av (sA w))).map fun x => cround x (sSh w)) →
        exec (.rnd core slot) s = .next (s.finish
          (s'.issueOf core.val slot.val [(2, .d, sD w, packParts 16 r.1)] none r.2 false id)))
    ∧ (s.Issues core.val slot.val 0x08 → ∀ r, r = satParts ((a.zip b).map fun p => p.1 + p.2) →
        exec (.vadd core slot) s = .next (s.finish
          (s'.issueOf core.val slot.val [(1, .d, sD w, packParts 16 r.1)] none r.2 false id)))
    ∧ (s.Issues core.val slot.val 0x09 → ∀ r, r = satParts ((a.zip b).map fun p => p.1 - p.2) →
        exec (.vsub core slot) s = .next (s.finish
          (s'.issueOf core.val slot.val [(1, .d, sD w, packParts 16 r.1)] none r.2 false id)))
    ∧ (s.Issues core.val slot.val 0x0A → exec (.vand core slot) s = .next (s.finish
        (s'.issueOf core.val slot.val [(1, .d, sD w, d.dv (sA w) &&& d.dv (sB w))] none false false id)))
    ∧ (s.Issues core.val slot.val 0x0B → exec (.vor core slot) s = .next (s.finish
        (s'.issueOf core.val slot.val [(1, .d, sD w, d.dv (sA w) ||| d.dv (sB w))] none false false id)))
    ∧ (s.Issues core.val slot.val 0x0C → exec (.vxor core slot) s = .next (s.finish
        (s'.issueOf core.val slot.val [(1, .d, sD w, d.dv (sA w) ^^^ d.dv (sB w))] none false false id)))
    ∧ (s.Issues core.val slot.val 0x0D → exec (.vshr core slot) s = .next (s.finish
        (s'.issueOf core.val slot.val [(1, .d, sD w, packParts 16 (a.map fun x => x / (2 ^ sSh w : Nat)))] none false false id)))

/-- Convergent rounding and the sticky bit SAT (R218). -/
def Obligations.ConvergentRounding : Prop :=
  (∀ x : Int, cround x 0 = x)
  ∧ (∀ (x : Int) (n : Nat), 0 < n →
      2 * (cround x n * 2 ^ n - x).natAbs ≤ 2 ^ n
      ∧ (2 * (cround x n * 2 ^ n - x).natAbs = 2 ^ n → cround x n % 2 = 0))
  ∧ (∀ x : Int, sat16 x = (max (-32768) (min 32767 x), decide (x < -32768 ∨ 32767 < x)))
  ∧ (∀ (s s' : State) (core : Fin 272) (slot : Fin 2) (c : Instr) (op w : Nat) (d : DspCore) (parts : List Int), s.awake = true →
      s' = (s.bundleStop core.val).1 → d = s.coreOf core.val → w = s'.bundleSyl core.val slot.val → s.Issues core.val slot.val op →
      ((c, op, parts) = (.rnd core (slot.castLE (by decide)), 6, (partsOf 40 16 (d.av (sA w))).map fun x => cround x (sSh w))
        ∨ (c, op, parts) = (.cmul core (slot.castLE (by decide)), 5, (d.prods w).flatMap fun p => [cround p.1 15, cround p.2 15])
        ∨ (c, op, parts) = (.vadd core (slot.castLE (by decide)), 8,
            ((partsOf 16 16 (d.dv (sA w))).zip (partsOf 16 16 (d.dv (sB w)))).map fun p => p.1 + p.2)
        ∨ (c, op, parts) = (.vsub core (slot.castLE (by decide)), 9,
            ((partsOf 16 16 (d.dv (sA w))).zip (partsOf 16 16 (d.dv (sB w)))).map fun p => p.1 - p.2)) →
      ∃ t, exec c s = .next (s.finish t)
        ∧ (∃ f, (t.coreOf core.val).flight = d.flight ++ [f] ∧ f.cls = .d ∧ f.idx = sD w
            ∧ f.val = BitVec.ofNat 640 (packParts 16 (parts.map fun x => max (-32768) (min 32767 x))))
        ∧ fld (t.pr .rdsp core.val 0x048) 3 1 =
            (if parts.any (fun x => decide (x < -32768 ∨ 32767 < x)) then 1 else fld (s'.pr .rdsp core.val 0x048) 3 1))

/-- The modifier update (R213). -/
def Obligations.AddressModifiers : Prop :=
  (∀ pn m : Nat, bits m 30 2 = 0 → (modUpdate pn m : Int) = ((pn : Int) + signed 16 (bits m 0 16)) % 2 ^ 32)
  ∧ (∀ pn m l k b : Nat, bits m 30 2 = 1 → l = 8 * bits m 16 14 → 0 < l → l ≤ 2 ^ k → 2 ^ (k - 1) < l → 1 ≤ k →
      b = pn - pn % 2 ^ k → pn < 2 ^ 32 →
      (modUpdate pn m : Int) = (b + ((pn : Int) - b + signed 16 (bits m 0 16)) % l) % 2 ^ 32)
  ∧ (∀ pn m k : Nat, bits m 30 2 = 2 → k = bits m 16 5 →
      modUpdate pn m = pn - pn % 2 ^ k
        + revBits k (revBits k (pn % 2 ^ k) + revBits k ((signed 16 (bits m 0 16) % 2 ^ k).toNat)) % 2 ^ k)
  ∧ (∀ k x i : Nat, i < k → (revBits k x).testBit i = x.testBit (k - 1 - i))
  ∧ (∀ k x : Nat, revBits k x < 2 ^ k)
  ∧ (let m := 16 + 5 * 2 ^ 16 + 2 * 2 ^ 30
     modUpdate 0 m = 16 ∧ modUpdate 16 m = 8 ∧ modUpdate 8 m = 24 ∧ modUpdate 24 m = 4)
  ∧ (∀ (s : State) (k : Nat) (slot : Fin 4) (w m : Nat), w = s.bundleSyl k slot.val →
      0x10 ≤ sOp w → sOp w ≤ 0x13 → sForm w = 2 → m = (s.coreOf k).mv (sMm w) →
      (bits m 30 2 = 3 ∨ (bits m 30 2 = 1 ∧ bits m 16 14 = 0) ∨ (bits m 30 2 = 2 ∧ (bits m 16 5 = 0 ∨ 17 < bits m 16 5))) →
      s.illegal k = true)

/-- LD, ST, LDA, STA, ADDA, MOVAL and MOVAH (R210, R212, R216). -/
def Obligations.DspMemoryAndAddressSyllables : Prop :=
  ∀ (s s' : State) (core : Fin 272) (slot : Fin 4) (w base p : Nat) (d : DspCore) (up : List (Nat × RegClass × Nat × Nat)),
    s.awake = true → 2 ≤ slot.val → s' = (s.bundleStop core.val).1 → d = s.coreOf core.val →
    w = s'.bundleSyl core.val slot.val →
    base = core.val * 0x80000 + (if slot.val = 3 then 0x20000 else 0) → p = d.pv (sPn w) →
    up = (if sForm w = 2 then [(1, .p, sPn w, modUpdate p (d.mv (sMm w)))]
          else if sForm w = 3 then [(1, .p, sPn w, (((p : Int) + 32 * sImm11 w) % (2 ^ 32 : Nat)).toNat)] else []) →
    (s.Issues core.val slot.val 0x10 → exec (.ld core slot) s = .next (s.finish (s'.issueOf core.val slot.val up
        (some (false, base + d.ea w / 32 * 32, 32, 0, .d, sD w)) false false id)))
    ∧ (s.Issues core.val slot.val 0x11 → exec (.st core slot) s = .next (s.finish (s'.issueOf core.val slot.val up
        (some (true, base + d.ea w / 32 * 32, 32, d.dv (sD w), .d, 0)) false false id)))
    ∧ (s.Issues core.val slot.val 0x12 → exec (.lda core slot) s = .next (s.finish (s'.issueOf core.val slot.val up
        (some (false, base + d.ea w / 4 * 4, 4, 0, pmClass w, sPmIdx w)) false false id)))
    ∧ (s.Issues core.val slot.val 0x13 → exec (.sta core slot) s = .next (s.finish (s'.issueOf core.val slot.val up
        (some (true, base + d.ea w / 4 * 4, 4, d.pmVal w, .p, 0)) false false id)))
    ∧ (s.Issues core.val slot.val 0x14 → exec (.adda core slot) s = .next (s.finish (s'.issueOf core.val slot.val
        [(1, pmClass w, sPmIdx w, (((p : Int) + sImm17 w) % (2 ^ 32 : Nat)).toNat)] none false false id)))
    ∧ (s.Issues core.val slot.val 0x15 → exec (.moval core slot) s = .next (s.finish (s'.issueOf core.val slot.val
        [(1, pmClass w, sPmIdx w, d.pmVal w / 65536 * 65536 + bits w 0 16)] none false false id)))
    ∧ (s.Issues core.val slot.val 0x16 → exec (.movah core slot) s = .next (s.finish (s'.issueOf core.val slot.val
        [(1, pmClass w, sPmIdx w, d.pmVal w % 65536 + bits w 0 16 * 65536)] none false false id)))

/-- The control syllables of slot 3 (R220, R221, R224, R226, R228). -/
def Obligations.DspControlSyllables : Prop :=
  ∀ (s s' : State) (core : Fin 272) (w p : Nat) (d : DspCore), s.awake = true →
    s' = (s.bundleStop core.val).1 → d = s.coreOf core.val → w = s'.bundleSyl core.val 3 → p = d.pv (sPn w) →
    ∀ branch, branch = (((d.pc : Int) + 16 + 16 * sImm17 w) % (0x10000 : Nat)).toNat →
    (s.Issues core.val 3 0x20 → exec (.dspLoop core) s = .next (s.finish (s'.issueOf core.val 3 [] none false false
        fun x => x.enterLoop w (x.lcv (sLevel w)))))
    ∧ (s.Issues core.val 3 0x21 → exec (.loopi core) s = .next (s.finish (s'.issueOf core.val 3 [] none false false
        fun x => ({ x with lc := Tbl.set 0 x.lc (x.key (sLevel w)) (BitVec.ofNat 32 (bits w 8 9)) } : DspCore).enterLoop w
          (bits w 8 9))))
    ∧ (s.Issues core.val 3 0x22 → exec (.movl core) s = .next (s.finish (s'.issueOf core.val 3
        [(1, .lc, sLevel w, (((p : Int) + sImm17 w) % (2 ^ 32 : Nat)).toNat)] none false false id)))
    ∧ (s.Issues core.val 3 0x23 → (d.cond w = true → exec (.brkl core) s = .next (s.finish
        (s'.issueOf core.val 3 [] none false false fun x =>
          { x.setLoop { x.loop with active := x.loop.active.take (sLevel w) } with
            target := some ((x.lev (sLevel w) + 16) % 0x10000) })))
      ∧ (d.cond w = false → exec (.brkl core) s = .next (s.finish (s'.issueOf core.val 3 [] none false false id))))
    ∧ (s.Issues core.val 3 0x24 → (d.cond w = true → exec (.br core) s = .next (s.finish
        (s'.issueOf core.val 3 [] none false false fun x => { x with target := some branch })))
      ∧ (d.cond w = false → exec (.br core) s = .next (s.finish (s'.issueOf core.val 3 [] none false false id))))
    ∧ (s.Issues core.val 3 0x25 → exec (.dspCall core) s = .next (s.finish
        (s'.issueOf core.val 3 [(1, .p, 15, d.pc + 16)] none false false fun x => { x with target := some branch })))
    ∧ (s.Issues core.val 3 0x26 → exec (.ret core) s = .next (s.finish (s'.issueOf core.val 3 [] none false false
        fun x => { x with target := some (d.pv 15 % 0x10000 / 16 * 16) })))
    ∧ (s.Issues core.val 3 0x27 → exec (.rti core) s = .next (s.finish (s'.issueOf core.val 3 [] none false false
        fun x => { x with target := some d.ira })))
    ∧ (s.Issues core.val 3 0x28 → exec (.tret core) s = .next (s.finish (s'.issueOf core.val 3 [] none false false
        fun x => { x with tret := true, ending := some (0, 0, 0) })))
    ∧ (s.Issues core.val 3 0x29 → ∀ u : State, s'.dspCheck core.val (core.val * 0x80000 + p) 32 = (u, true) →
        exec (.movb core) s = .next (s.finish (u.issueOf core.val 3 [] none false false
          fun x => { x with mover := x.mover ++ [u.dspMem.num (core.val * 0x80000 + p) 32 + 2 ^ 256 * d.pc] })))
    ∧ (s.Issues core.val 3 0x2A → exec (.signal core) s = .next (s.finish
        ((s'.issueOf core.val 3 [] none false false id).signal core.val (bits w 0 7))))
    ∧ (s.Issues core.val 3 0x2B → exec (.setim core) s = .next (s.finish
        (s'.issueOf core.val 3 [(1, .imask, 0, bits w 0 8)] none false false id)))

/-- DSP_RESULT_WRITE, HZ_TRAP_RESUME, DSP_TIMER_COMPARE, DSP_SOFT_IRQ_SET, INTERRUPT_ACCEPT, DSP_TASK_START, DSP_STOP,
DSP_MEMORY_ERROR, BLOCK_MOVER_START, BLOCK_MOVER_COMPLETE and PMEM_DATA_ACCESS. -/
def Obligations.DspCoreEvents : Prop :=
  ∀ (s : State) (core : Fin 272) (d : DspCore), s.awake = true → d = s.coreOf core.val →
    (d.playing = true → d.issued = 15 → ∀ (t : State) (e l : DspCore) (next : Nat), s.retireCycle core.val = (t, true) →
      e = t.coreOf core.val → e.target = none → (l, next) = e.loopBack e.depth → sOp (s.bundleSyl core.val 3) ≠ 0x27 →
      ∀ u, u = (((t.setCore core.val
          { l with pc := next, lastPc := e.pc, issued := 0, bundle := [], target := none, sh := e.sh, released := false,
                   relIra := e.relIra }).bump .rdsp core.val 0x078 1).bump64 .rdsp core.val 0x070 1) →
      fld (u.pr .rdsp core.val 0x044) 0 1 = 0 →
      exec (.dspResultWrite core) s = .next (s.finish (u.endCore core.val)))
    ∧ (d.halted = true → exec (.hzTrapResume core) s = .next (s.finish
        ((s.setPr .rdsp core.val 0x048 (setFld (s.pr .rdsp core.val 0x048) 5 1 0)).setCore core.val
          { d with halted := false, released := true })))
    ∧ (∀ t, t = s.setCore core.val { d with timer := s.tcmpMet core.val } →
        exec (.dspTimerCompare core) s = .next (s.finish
          (if s.tcmpMet core.val = true ∧ d.timer = false then
            t.setPr .rdsp core.val 0x054 (t.pr .rdsp core.val 0x054 ||| 1) else t)))
    ∧ (∀ val : BitVec 32, exec (.dspSoftIrqSet core val) s = .next (s.finish
        (s.setPr .rdsp core.val 0x054 (s.pr .rdsp core.val 0x054 ||| (val &&& 0xE0)))))
    ∧ (∀ n, d.playing = true → d.halted = false → d.ending = none → d.issued = 0 → d.sh = false →
        s.irqLine core.val = some n → exec (.interruptAccept core) s = .next (s.finish
          ((((s.setPr .rdsp core.val 0x054 (setFld (s.pr .rdsp core.val 0x054) n 1 0)).setCore core.val
            { d with ira := d.pc, sh := true, pc := 0x40 * n, released := false, relIra := d.released }).bump .rdsp core.val 0x084 1).stall core.val 1)))
    ∧ (∀ (i t : Nat) (it : Item) (x : Task), s.cuedOn core.val = some (i, t) → s.itemOf i = some it →
        s.taskOf i t = some x → s.smRuns = true → x.entry % 16 = 0 → x.entry < 0x10000 →
        ∀ u, u = s.setTask i t { x with st := .playing, tStart := s.tsNow it.home } →
        exec (.dspTaskStart core) s = .next (s.finish
          ((u.setPr .rdsp core.val 0x048 (u.pr .rdsp core.val 0x048 &&& ~~~0x3C)).setCore core.val
            { playing := true, fn := it.fn, item := i, task := t, pc := x.entry, lastPc := d.lastPc, timer := d.timer,
              d := Tbl.set 0 [] 0 (BitVec.ofNat 256 (x.seed + 2 ^ 64 * it.seqNo + 2 ^ 128 * t)) })))
    ∧ (d.stopping = true → exec (.dspStop core) s = .next (s.finish (s.endCore core.val)))
    ∧ (∀ (mem : Fin 3) (off : BitVec 17) (flips : List (Fin 72)) (a : Nat) (t u : State) (ok : Bool),
        a = core.val * 0x80000 + (0x20000 * mem.val + (if mem.val = 2 then off.toNat % 0x10000 else off.toNat)) →
        t = { s with dspEcc := flipBits s.dspEcc (a / 8) (flips.map (Fin.castLE (by decide))) } →
        t.dspCheck core.val a 1 = (u, ok) →
        exec (.dspMemoryError core mem off flips) s = .next (s.finish
          (if (u.coreOf core.val).playing && !ok then
            u.rerunTask (u.coreOf core.val).item (u.coreOf core.val).task true (some core.val) else u)))
    ∧ (∀ (x : Nat) (rest : List Nat), d.moverRun = none → d.mover = x :: rest →
        exec (.blockMoverStart core) s = .next (s.finish
          (s.setCore core.val { d with mover := rest, moverRun := some x, moverWrote := false })))
    ∧ (∀ (raw : Nat) (t u v w : State) (b : List Byte), d.moverRun = some raw → d.moverWrote = false →
        s.moverCopy core.val { v := d.fn, org := 6000 + core.val, x := 0, item := d.item, task := d.task } raw = (t, .ok b) →
        u = (t.forget (6000 + core.val)).setCore core.val { t.coreOf core.val with moverWrote := true } →
        u.acked (6000 + core.val) 0 = true →
        u.dspPut core.val (core.val * 0x80000 + db raw 20 4 % 0x20000) (leBytes 4 (db raw 24 4)) = (v, true) →
        w = v.setCore core.val { v.coreOf core.val with moverRun := none, moverWrote := false } →
        ((w.coreOf core.val).playing = true → exec (.blockMoverComplete core) s = .next (s.finish
          ((if bit raw 129 then w.raiseIrq core.val 1 else w).endCore core.val)))
        ∧ ((w.coreOf core.val).playing = false → exec (.blockMoverComplete core) s = .next (s.finish w)))
    ∧ (∀ (val : BitVec 32) (a : Nat) (t : State) (ok : Bool), a = (s.pr .rdsp core.val 0x060).toNat % 0x10000 →
        (s.dspCheck core.val (core.val * 0x80000 + (0x40000 + a)) 4 = (t, ok) →
          exec (.pmemDataAccess core false val) s = .next (s.finish
            ((t.answer (BitVec.ofNat 32 (t.dspMem.num (core.val * 0x80000 + (0x40000 + a)) 4))).setPr .rdsp core.val 0x060
              (BitVec.ofNat 32 ((a + 4) % 0x10000)))))
        ∧ (d.playing = false → s.dspPut core.val (core.val * 0x80000 + (0x40000 + a)) (leBytes 4 val.toNat) = (t, ok) →
          exec (.pmemDataAccess core true val) s = .next (s.finish
            (t.setPr .rdsp core.val 0x060 (BitVec.ofNat 32 ((a + 4) % 0x10000)))))
        ∧ (d.playing = true → exec (.pmemDataAccess core true val) s = .next (s.finish
          (s.setPr .rdsp core.val 0x060 (BitVec.ofNat 32 ((a + 4) % 0x10000))))))

/-- FFT_JOB, LDPC_DECODE_JOB, LDPC_ENCODE_JOB, POLAR_ENCODE_JOB, POLAR_DECODE_JOB, CRC_APPEND, CRC_CHECK, SCR_BITS, SCR_LLR,
SEQ and CHIRP_JOB. -/
def Obligations.AcceleratorJobsRun : Prop :=
  ∀ (s t : State) (tile : Fin 2), s.awake = true →
    (∀ eng : Fin 24, s.JobRuns t tile.val 0 eng.val (fun _ => true) planFft → exec (.fftJob tile eng) s = .next (s.finish t))
    ∧ (∀ eng : Fin 32, s.JobRuns t tile.val 1 eng.val (fun _ => true) planLdpcDecode →
        exec (.ldpcDecodeJob tile eng) s = .next (s.finish t))
    ∧ (∀ eng : Fin 16, s.JobRuns t tile.val 2 eng.val (fun _ => true) planLdpcEncode →
        exec (.ldpcEncodeJob tile eng) s = .next (s.finish t))
    ∧ (∀ eng : Fin 8,
        (s.JobRuns t tile.val 3 eng.val (fun raw => poDir raw == 0) planPolarEncode →
          exec (.polarEncodeJob tile eng) s = .next (s.finish t))
        ∧ (s.JobRuns t tile.val 3 eng.val (fun raw => poDir raw == 1) planPolarDecode →
          exec (.polarDecodeJob tile eng) s = .next (s.finish t))
        ∧ (s.JobRuns t tile.val 4 eng.val (fun raw => crMode raw == 1) planCrc →
          exec (.crcAppend tile eng) s = .next (s.finish t))
        ∧ (s.JobRuns t tile.val 4 eng.val (fun raw => crMode raw == 2) planCrc →
          exec (.crcCheck tile eng) s = .next (s.finish t))
        ∧ (s.JobRuns t tile.val 4 eng.val (fun raw => crMode raw == 3) planCrc →
          exec (.scrBits tile eng) s = .next (s.finish t))
        ∧ (s.JobRuns t tile.val 4 eng.val (fun raw => crMode raw == 4) planCrc →
          exec (.scrLlr tile eng) s = .next (s.finish t))
        ∧ (s.JobRuns t tile.val 4 eng.val (fun raw => crMode raw == 5) planCrc →
          exec (.seq tile eng) s = .next (s.finish t)))
    ∧ (∀ bank : Fin 4, s.JobRuns t tile.val 5 bank.val (fun _ => true) planChirp →
        exec (.chirpJob tile bank) s = .next (s.finish t))

/-- R247 and R248. -/
def Obligations.CrcAndScrambling : Prop :=
  (∀ (p w poly : Nat) (l : List Bool), crcPoly p = some (w, poly) → crcBits w poly (l ++ natBits w (crcBits w poly l)) = 0)
  ∧ (∀ (p w poly : Nat) (l : List Bool), crcPoly p = some (w, poly) → crcBits w poly l < 2 ^ w)
  ∧ (∀ (raw i : Nat) (b : List Byte) (l c : List Bool) (w poly : Nat), l = (bitsOfBytes b).take (crLen raw) →
      crcPoly (db raw 33 1) = some (w, poly) → c = gold (bits (db raw 40 4) 0 31) (db raw 44 4 + i * crLen raw) (crLen raw) →
      (crMode raw = 1 → crcItem raw i b = (bytesOfBits (l ++ natBits w (crcBits w poly l)), false))
      ∧ (crMode raw = 2 → crcItem raw i b = ([if crcBits w poly l = 0 then 1 else 0], decide (crcBits w poly l ≠ 0)))
      ∧ (crMode raw = 3 → crcItem raw i b = (bytesOfBits (l.zipIdx.map fun p => p.1 != nth false c p.2), false))
      ∧ (crMode raw = 5 → crcItem raw i b = (bytesOfBits c, false)))
  ∧ (∀ (l c : List Bool), ((l.zipIdx.map fun p => p.1 != nth false c p.2).zipIdx.map fun p => p.1 != nth false c p.2) = l)
  ∧ (∀ (cinit first n : Nat) (x1 x2 : Nat → Bool),
      x1 0 = true → (∀ i, 1 ≤ i → i < 31 → x1 i = false) → (∀ i, i < 31 → x2 i = cinit.testBit i) →
      (∀ i, x1 (i + 31) = (x1 (i + 3) != x1 i)) →
      (∀ i, x2 (i + 31) = (((x2 (i + 3) != x2 (i + 2)) != x2 (i + 1)) != x2 i)) →
      gold cinit first n = (List.range n).map fun k => x1 (first + k + 1600) != x2 (first + k + 1600))

/-- ACCEL_JOB_START (R170), ACCEL_JOB_COMPLETE (R236), ACCEL_ENGINE_ERROR (R238), CHIRP_WINDOW_END (R255), CHIRP_SYNC_TIMEOUT
(R256), CHIRP_CANDIDATE_EXPIRE (R257, R258) and CH_CFG_WRITE (R265).
CLUS_CNT_CLR_NUMERIC, _ACTIVITY, _RESIDUE (R89), DSP_CNT_CLR (R229), ACCEL_CNT_CLR_JOBS and _BANKS (R264). -/
def Obligations.AcceleratorControl : Prop :=
  (∀ (s : State) (tile : Fin 2), s.awake = true →
    (∀ (cls : Fin 6) (eng : Fin 32) (j k : Job) (t u : State) (g : Got),
      firstJob (s.jobMay tile.val cls.val) [] ((s.accOf tile.val).queue.filter fun j => j.cls == cls.val) = some j →
      s.jobOn tile.val cls.val eng.val = none → s.engineOn tile.val cls.val eng.val = true → s.smRuns = true →
      s.domOk (4 + tile.val) = true →
      s.gRead (s.jobWho j eng.val) j.addr (min j.bytes (jobLen cls.val)) false = (t, g) →
      ((∃ b, g = .ok b ∧ k = { j with raw := leNat b, tStart := s.tsNow (4 + tile.val) }
          ∧ ¬ (cls.val = 5 ∧ jobCause k eng.val = 2 ∧ db k.raw 32 1 ≠ eng.val ∧ db k.raw 32 1 < 4)
          ∧ 5 * engineTime k eng.val ≤ 6 * t.runLeft (400 + 6 * tile.val + cls.val) j.owner)
        ∨ ∃ st, g = .fail st ∧ k = { j with
            tStart := s.tsNow (4 + tile.val), res := some (endRes (if st = stAccess then 3 else st) 0) }) →
      u = t.setSeq j.sq { t.seqOf j.sq with tok := applyTok (t.seqOf j.sq).tok j.wait none } →
      exec (.accelJobStart tile cls eng) s = .next (s.finish ((u.forget (s.jobWho j eng.val).org).setAcc tile.val
        { u.accOf tile.val with
          queue := dropFirst j (u.accOf tile.val).queue,
          run := Tbl.put (u.accOf tile.val).run (cls.val * 64 + eng.val) k,
          lastOn := Tbl.put (u.accOf tile.val).lastOn (cls.val * 64 + eng.val) j.owner })))
    ∧ (∀ (cls : Fin 6) (eng : Fin 32) (cycles : BitVec 32) (j : Job) (r : JobRes) (s' t u v : State) (b : List Byte) (p : Page),
      (cls.val = 5 → s.chirpAll tile.val eng.val = (s', true)) → (cls.val ≠ 5 → s' = s) →
      s'.jobOn tile.val cls.val eng.val = some j → j.res = some r → s'.acked (s'.jobWho j eng.val).org j.x = true →
      cycles.toNat ≤ engineTime j eng.val →
      (r.early = true ∨ 2 ≤ r.status ∨ cycles.toNat = engineTime j eng.val) → j.task ≠ 5000 → r.status < 4 →
      s'.gWrite (s'.jobWho j eng.val) j.stat (jobRecord tile.val eng.val r cycles.toNat j.tStart (s'.tsNow (4 + tile.val))
        (s'.jobSummary tile.val cls.val eng.val r)) false false = (t, .ok b) →
      p = enginePage tile.val cls.val →
      u = t.setAcc tile.val { t.accOf tile.val with run := Tbl.del (t.accOf tile.val).run (cls.val * 64 + eng.val) } →
      v = ((u.bump64 p.kind p.inst 0x048 1).bump64 p.kind p.inst 0x050 cycles.toNat).bump p.kind p.inst 0x058 r.failed →
      (r.status < 2 → exec (.accelJobComplete tile cls eng cycles) s = .next (s.finish
        ((v.accelIrq j.item).doneX j.sq j.x true)))
      ∧ (r.status = 2 → exec (.accelJobComplete tile cls eng cycles) s = .next (s.finish
        (((v.bump p.kind p.inst 0x05C 1).accelIrq j.item).jobEnds j stMalformed 0x14)))
      ∧ (r.status = 3 → exec (.accelJobComplete tile cls eng cycles) s = .next (s.finish
        ((v.accelIrq j.item).jobEnds j stAccess 0))))
    ∧ (∀ (cls : Fin 6) (eng : Fin 32) (residue : Bool) (flips : List (Fin 72)),
      s.engineOn tile.val cls.val eng.val = true →
      (residue = false → bufferEcc flips = .good → s.Settled → exec (.accelEngineError tile cls eng residue flips) s = .next s)
      ∧ (residue = false → (bufferEcc flips).fixed = true → exec (.accelEngineError tile cls eng residue flips) s = .next
          (s.finish (s.raise (enginePage tile.val cls.val) 1 (engineInfo cls.val eng.val 0))))
      ∧ ((residue = true ∨ (bufferEcc flips ≠ .good ∧ (bufferEcc flips).fixed = false)) →
          ∀ a t, a = (enginePage tile.val cls.val).base →
          t = (s.setRg (a + 0x060) (satAdd (s.rg (a + 0x060)) 1)).raise (enginePage tile.val cls.val)
            (if residue then 3 else 2) (engineInfo cls.val eng.val 0) →
          (t.jobOn tile.val cls.val eng.val = none →
            exec (.accelEngineError tile cls eng residue flips) s = .next (s.finish t))
          ∧ (∀ j, t.jobOn tile.val cls.val eng.val = some j → ∀ u, u = t.forget (t.jobWho j eng.val).org →
            exec (.accelEngineError tile cls eng residue flips) s = .next (s.finish
              ((u.setAcc tile.val { t.accOf tile.val with run := Tbl.del (t.accOf tile.val).run (cls.val * 64 + eng.val) }).rerunTask
                j.item j.task true none)))))
    ∧ (∀ (bank : Fin 4) (ch : Fin 128),
      (∀ (j : Job) (s' t : State) (cfg : Word) (k : ChirpBank) (x : ChirpCh) (at_ : Nat),
        s.bankJob tile.val bank.val = some j →
        s' = (s.chirpTimeout tile.val bank.val ch.val).chirpExpire tile.val bank.val ch.val →
        cfg = s'.chCfg tile.val bank.val ch.val → k = s'.bankOf tile.val bank.val → x = s'.chanOf tile.val bank.val ch.val →
        at_ = x.next k cfg → fld cfg 0 1 = 1 → at_ ≤ k.taken →
        s'.chirpWindow j tile.val bank.val ch.val at_
          (windowOf (chips cfg) (k.window ch.val x.gain (chips cfg) (at_ - chipSamples * chips cfg))) = some t →
        exec (.chirpWindowEnd tile bank ch) s = .next (s.finish t))
      ∧ (∀ (ctl cfg : Word) (x : ChirpCh), ctl = (s.bankOf tile.val bank.val).ctl → cfg = s.chCfg tile.val bank.val ch.val →
        x = s.chanOf tile.val bank.val ch.val →
        (x.overdue ctl cfg = true →
          exec (.chirpSyncTimeout tile bank ch) s = .next (s.finish (s.falseDetection tile.val bank.val ch.val true)))
        ∧ (x.overdue ctl cfg = false → s.Settled → exec (.chirpSyncTimeout tile bank ch) s = .next s)
        ∧ (x.expires ctl cfg = true →
          exec (.chirpCandidateExpire tile bank ch) s = .next (s.finish
            ((if x.headerOk then s.bankCount tile.val bank.val 0x28 1 else s).setChan tile.val bank.val ch.val
              { x with cand := none, expired := if x.headerOk then x.expired else x.expired + 1 })))
        ∧ (x.expires ctl cfg = false → s.Settled → exec (.chirpCandidateExpire tile bank ch) s = .next s))
      ∧ (∀ (val v1 v2 : BitVec 32) (a : Nat) (t : State),
        a = pageAddr .chirp tile.val + 0x800 + 4 * (128 * bank.val + ch.val) →
        v1 = (if 4 < fld val 1 3 then setFld val 1 3 (fld (s.rg a) 1 3) else val) →
        v2 = (if 5 < fld v1 4 3 then setFld v1 4 3 (fld (s.rg a) 4 3) else v1) →
        t = (s.storeAt a v2).setChan tile.val bank.val ch.val { origin := (s.chanOf tile.val bank.val ch.val).last } →
        ((s.bankOn tile.val bank.val = true ∨ t.bankOn tile.val bank.val = false) →
          exec (.chCfgWrite tile bank ch val) s = .next (s.finish t))
        ∧ (s.bankOn tile.val bank.val = false → t.bankOn tile.val bank.val = true →
          exec (.chCfgWrite tile bank ch val) s = .next (s.finish
            (t.setBank tile.val bank.val { t.bankOf tile.val bank.val with armed := false }))))))
  ∧ (∀ (s : State), s.awake = true → s.Settled →
    (∀ cl : Fin 144,
      (∃ t, exec (.clusCntClrNumeric cl) s = .next t ∧ s.Cleared t ((offsets 0x080 0x094).map (pageAddr .clus cl.val + ·)))
      ∧ (∃ t, exec (.clusCntClrActivity cl) s = .next t ∧ s.Cleared t ((offsets 0x060 0x07C).map (pageAddr .clus cl.val + ·)))
      ∧ (∃ t, exec (.clusCntClrResidue cl) s = .next t ∧ s.Cleared t [pageAddr .clus cl.val + 0x09C]))
    ∧ (∀ (core : Fin 272) (val : BitVec 32),
      (fld val 0 1 = 1 → (∃ t, exec (.dspCntClr core val) s = .next t ∧ s.Cleared t ((offsets 0x070 0x088).map (pageAddr .rdsp core.val + ·))))
      ∧ (fld val 0 1 = 0 → exec (.dspCntClr core val) s = .next s))
    ∧ (∀ (tile : Fin 2) (k : Fin 4),
      (∃ t, exec (.accelCntClrJobs tile k) s = .next t ∧ s.Cleared t ((offsets 0x048 0x060).map (pageAddr (accelKind k.val) tile.val + ·))))
    ∧ (∀ tile : Fin 2, (∃ t, exec (.accelCntClrBanks tile) s = .next t ∧ s.Cleared t ((List.range 4).flatMap fun b => (offsets (0x114 + 0x40 * b) (0x13C + 0x40 * b)).map (pageAddr .chirp tile.val + ·)))))

/-- FRAME_RECEIVE (R270), PTP_FRAME_RECEIVE (R304), RX_FRAME_DELIVER (R279). -/
def Obligations.EthernetReceive : Prop :=
  ∀ (s : State) (port : Fin 16) (sp : Fin 4) (frame : List (BitVec 8)), s.awake = true →
    (s.spUp port.val sp.val = true →
      (∀ (corr bad : BitVec 8) (r : State), r = s.fecCount port.val sp.val corr.toNat bad.toNat →
        ((frame.length < 64 ∨ 9216 < frame.length) → ∀ ok, exec (.frameReceive port sp frame ok corr bad) s = .next (s.finish
          (r.bump .eth port.val (0x100 + 0x40 * sp.val + 0x20) 1)))
        ∧ exec (.frameReceive port sp frame false corr bad) s = .next (s.finish
          (r.bump .eth port.val (0x100 + 0x40 * sp.val + 0x20) 1))
        ∧ (64 ≤ frame.length → frame.length ≤ 9216 →
          (etherType frame = 0x8808 → exec (.frameReceive port sp frame true corr bad) s = .next (s.finish
            (r.bump .eth port.val (0x100 + 0x40 * sp.val + 0x24) 1)))
          ∧ (∀ t f, etherType frame ≠ 0x8808 → f = frame.take (frame.length - 4) →
            t = ((r.bump64 .eth port.val (0x100 + 0x40 * sp.val) 1).bump64 .eth port.val (0x100 + 0x40 * sp.val + 0x08)
              frame.length) →
            (ptpAt f = none → exec (.frameReceive port sp frame true corr bad) s = .next (s.finish
              (t.classify port.val sp.val f)))
            ∧ (ptpAt f ≠ none → exec (.frameReceive port sp frame true corr bad) s = .next (s.finish
              (t.ptpIn port.val sp.val f))))))
      ∧ (64 ≤ frame.length → frame.length ≤ 9216 → ptpAt frame ≠ none → exec (.ptpFrameReceive port sp frame) s =
        .next (s.finish (((s.bump64 .eth port.val (0x100 + 0x40 * sp.val) 1).bump64 .eth port.val
          (0x100 + 0x40 * sp.val + 0x08) frame.length).ptpIn port.val sp.val (frame.take (frame.length - 4))))))
    ∧ (∀ (i : Nat) (f : RxFrame) (c tail : Word) (m : State), m = s.meterFrames port.val →
      findFrom (fun f => m.rxMay port.val f) (m.ethOf port.val).buf 0 = some i → (m.ethOf port.val).buf[i]? = some f →
      c = m.rg (rxqReg port.val f.queue 0) → fld c 0 1 = 1 → tail = m.rg (rxqReg port.val f.queue 0x10) →
      ((tail - m.rg (rxqReg port.val f.queue 0x14)).toNat = 2 ^ fld (m.rg (rxqReg port.val f.queue 0x0C)) 0 5 →
        exec (.rxFrameDeliver port) s = .next (s.finish
          ((m.setEth port.val { m.ethOf port.val with buf := (m.ethOf port.val).buf.eraseIdx i }).bump .eth port.val
            (0x100 + 0x40 * f.sp + 0x38) 1)))
      ∧ (∀ (t u : State) (r : List Byte) (gap : Bool) (g : Got),
        (tail - m.rg (rxqReg port.val f.queue 0x14)).toNat ≠ 2 ^ fld (m.rg (rxqReg port.val f.queue 0x0C)) 0 5 →
        m.rxRecord port.val f = (r, gap) →
        m.gWrite { v := fld c 8 8, org := 8000 + port.val, x := 0, item := 0, task := 0 } (m.rxSlot port.val f.queue) r false
          false = (t, g) →
        u = t.setEth port.val { t.ethOf port.val with buf := (m.ethOf port.val).buf.eraseIdx i } →
        (∀ b v w, g = .ok b → v = u.setRg (rxqReg port.val f.queue 0x10) (tail + 1) →
          w = (if gap then v.setRg (rxqReg port.val f.queue 0x1C) (satAdd (v.rg (rxqReg port.val f.queue 0x1C)) 1) else v) →
          exec (.rxFrameDeliver port) s = .next (s.finish (State.rxIrq (if isEcpri f.bytes = true then
            w.setEth port.val { w.ethOf port.val with
              lastSeq := Tbl.set none (w.ethOf port.val).lastSeq f.queue (some (ecSeq f.bytes)) } else w) c)))
        ∧ (∀ st, g = .fail st → exec (.rxFrameDeliver port) s = .next (s.finish
          (u.raise (pageAt .eth port.val) 3 (BitVec.ofNat 32 (f.sp + 16 * f.queue)))))
        ∧ (g = .wait → exec (.rxFrameDeliver port) s = .next (s.finish m))))

/-- ETH_MODE_WRITE, ETH_LINK_UP (R269), ETH_LINK_LOST (R289), REFCLK_ETH_LOST, REFCLK_ETH_RETURN (R456), CLASS_ENTRY_COMMIT
(R276), METER_CONFIG_WRITE (R278). -/
def Obligations.EthernetControl : Prop :=
  ∀ (s : State) (port : Fin 16) (sp : Fin 4) (val : BitVec 32), s.awake = true →
    (fld (s.rg (pageAddr .eth port.val + 0x040)) 4 4 = 0 → fld val 0 2 ≠ 3 →
      exec (.ethModeWrite port val) s = .next (s.finish
        ((s.storeAt (pageAddr .eth port.val + 0x040) val).setPr .eth port.val 0x044 0x100)))
    ∧ (fld (s.rg (pageAddr .eth port.val + 0x040)) 4 4 ≠ 0 ∨ fld val 0 2 = 3 →
      exec (.ethModeWrite port val) s = .next (s.finish ((List.range 4).foldl (fun t sp =>
        if fld val (4 + sp) 1 = 0 then t.spLink port.val sp false else t) (s.storeAt (pageAddr .eth port.val + 0x040)
          (setFld val 0 2 (fld (s.rg (pageAddr .eth port.val + 0x040)) 0 2))))))
    ∧ (s.spOn port.val sp.val = true → (s.ethOf port.val).refLost = false → ∀ t, t = s.spLink port.val sp.val true →
      exec (.ethLinkUp port sp) s = .next (s.finish
        (t.setPr .eth port.val 0x044 (setFld (t.pr .eth port.val 0x044) 8 1 0))))
    ∧ (s.spUp port.val sp.val = true → exec (.ethLinkLost port sp) s = .next (s.finish
        ((s.spLink port.val sp.val false).raise (pageAt .eth port.val) 1 (BitVec.ofNat 32 sp.val))))
    ∧ (∀ tile : Fin 2,
      (s.boot.ready = true → ∃ t, exec (.refclkEthLost tile) s = .next (s.finish t)
        ∧ ∀ i, i < 8 → (t.ethOf (8 * tile.val + i)).refLost = true)
      ∧ (∃ t, exec (.refclkEthReturn tile) s = .next (s.finish t)
        ∧ (∀ i, i < 8 → (t.ethOf (8 * tile.val + i)).refLost = false)
        ∧ (∀ i, i < 8 → (s.ethOf (8 * tile.val + i)).refLost = true → t.pr .eth (8 * tile.val + i) 0x044 = 0x100)
        ∧ (∀ p, p / 8 ≠ tile.val → t.ethOf p = s.ethOf p)))
    ∧ (∀ (entry : Fin 128) (a b c : Word), (∀ w v, (w, v) ∈ [(1, a), (2, b), (3, c)] →
        Tbl.look (s.ethOf port.val).staged (4 * entry.val + w) = some v) →
      ∀ t, t = (((s.storeAt (classReg port.val entry.val 0) val).storeAt (classReg port.val entry.val 1) a).storeAt
        (classReg port.val entry.val 2) b).storeAt (classReg port.val entry.val 3) c →
      exec (.classEntryCommit port entry val) s = .next (s.finish (t.setEth port.val { t.ethOf port.val with
        staged := (s.ethOf port.val).staged.filter fun e => e.1 / 4 != entry.val })))
    ∧ (∀ (meter : Fin 64) (reg : Fin 5) (t u : State), t = s.storeAt (meterReg port.val meter.val (4 * reg.val)) val →
      u = t.setEth port.val { t.ethOf port.val with
        meterOld := Tbl.set none (t.ethOf port.val).meterOld meter.val (some ((s.meterBefore port.val meter.val).getD
          { clk := s.time.clk, regs := s.meterRegs port.val meter.val, buckets := s.meterOf port.val meter.val })) } →
      exec (.meterConfigWrite port meter reg val) s = .next (s.finish (u.setMeter port.val meter.val
        { c := (u.rg (meterReg port.val meter.val 8)).toNat * 8000, e := (u.rg (meterReg port.val meter.val 0x10)).toNat * 8000,
          last := u.time.clk })))

/-- TXQ_DOORBELL (R281), TX_FRAME_FETCH (R285), TX_FRAME_START (R284), TX_FRAME_COMPLETE (R281, R283). -/
def Obligations.EthernetTransmit : Prop :=
  ∀ (s : State) (port : Fin 16) (q : Fin 32) (sp : Fin 4) (val : BitVec 32), s.awake = true →
    (∀ t, t = s.setRg (txqReg port.val q.val 0x10) val →
      (s.rg (txqReg port.val q.val 0x10) = s.rg (txqReg port.val q.val 0x14) → val ≠ t.rg (txqReg port.val q.val 0x14) →
        exec (.txqDoorbell port q val) s = .next (s.finish (t.setEth port.val { t.ethOf port.val with
          e := Tbl.upd 0 (t.ethOf port.val).e q.val fun e => max e (256 * t.time.clk) })))
      ∧ (s.rg (txqReg port.val q.val 0x10) ≠ s.rg (txqReg port.val q.val 0x14) →
        exec (.txqDoorbell port q val) s = .next (s.finish t)))
    ∧ (∀ (n : Nat) (t : State), s.txOn port.val q.val = true → n < 65536 →
      n < (s.rg (txqReg port.val q.val 0x10) - s.rg (txqReg port.val q.val 0x14)).toNat →
      (∀ i, i < n → (s.ethOf port.val).has q.val (s.rg (txqReg port.val q.val 0x14) + BitVec.ofNat 32 i).toNat = true) →
      (s.ethOf port.val).has q.val (s.rg (txqReg port.val q.val 0x14) + BitVec.ofNat 32 n).toNat = false →
      s.txFetchOne port.val q.val (s.rg (txqReg port.val q.val 0x14) + BitVec.ofNat 32 n).toNat = (t, true) →
      exec (.txFrameFetch port q) s = .next (s.finish t))
    ∧ (∀ (idx len ga : Nat) (t u : State) (d b : List Byte) (win comp radio : Bool) (f : TxFrame),
      radio = (fld (s.txCtl port.val q.val) 6 1 == 1) →
      s.mayCross port.val (s.txDesc port.val q.val idx) 32 false radio (fld (s.txCtl port.val q.val) 12 4) = true →
      s.gRead (s.txWho port.val q.val) (s.txDesc port.val q.val idx) 32 false = (t, .ok d) →
      win = bit (nb d 10 1) 0 → comp = bit (nb d 10 1) 1 → len = leNat ((d.drop 8).take 2) → ga = leNat (d.take 8) →
      f = { queue := q.val, idx := idx, bytes := [], win := win, winStart := leNat ((d.drop 12).take 4),
            winEnd := leNat ((d.drop 16).take 4), tsReq := bit (nb d 10 1) 2, status := 0 } →
      ((win = true ∧ (1000 * fld (s.pr .tmgr port.val 0x040) 24 8 : Nat) < s.ahead port.val q.val f.winStart
          ∨ win = false ∧ idx ≠ (s.rg (txqReg port.val q.val 0x14)).toNat) →
        s.txFetchOne port.val q.val idx = (t, false))
      ∧ ((win = true → s.ahead port.val q.val f.winStart ≤ (1000 * fld (s.pr .tmgr port.val 0x040) 24 8 : Nat)) →
        (win = false → idx = (s.rg (txqReg port.val q.val 0x14)).toNat) →
        ((len < 60 ∨ (comp = true ∧ 16384 < len) ∨ (comp = false ∧ 9212 < len)) →
          s.txFetchOne port.val q.val idx = (t.txKeep port.val { f with status := 3 }, true))
        ∧ (60 ≤ len → len ≤ (if comp then 16384 else 9212) →
          t.mayCross port.val ga len false radio (fld (s.txCtl port.val q.val) 12 4) = true →
          (t.gRead (s.txWho port.val q.val) ga len false = (u, .fail stAccess) →
            s.txFetchOne port.val q.val idx = ((u.raise (pageAt .tmgr port.val) 2 (BitVec.ofNat 32 q.val)).txKeep port.val
              { f with status := 4 }, true))
          ∧ (t.gRead (s.txWho port.val q.val) ga len false = (u, .ok b) →
            (∀ c sat, (if comp then compressFrame b else some (b, 0)) = some (c, sat) →
              (c.length + 4 ≤ 9216 → (win = false ∨ (u.serial port.val c.length : Int) ≤
                  signed 32 (f.winEnd + 2 ^ 32 - f.winStart)) →
                s.txFetchOne port.val q.val idx = (u.txKeep port.val { f with bytes := c, sat := sat, status := 0 }, true))
              ∧ (9216 < c.length + 4 → s.txFetchOne port.val q.val idx = (u.txKeep port.val
                { f with bytes := c, sat := sat, status := 3 }, true)))
            ∧ ((if comp then compressFrame b else some (b, 0)) = none →
              s.txFetchOne port.val q.val idx = (u.txKeep port.val { f with status := 3 }, true))))))
    ∧ (∀ (f : TxFrame) (t u v : State) (st : List (Nat × Nat × Nat)), s.spUp port.val sp.val = true →
      Tbl.get none (s.ethOf port.val).onWire sp.val = none →
      t = (List.range 32).foldl (fun s q => s.txSettle port.val q 4) s → t.txPick port.val sp.val = some f →
      ((f.win = false ∨ (t.serial port.val f.bytes.length : Int) ≤ t.ahead port.val f.queue f.winEnd) →
        st = (List.range 8).map (fun b => (t.baseOn (4 + port.val / 8) b).shifted
          (signed 16 (t.pr .eth port.val 0x04C).toNat)) →
        u = t.bump .tmgr port.val 0x048 f.sat →
        v = u.setEth port.val { u.ethOf port.val with
          fetched := (u.ethOf port.val).fetched.filter fun y => !(y.queue == f.queue && y.idx == f.idx),
          onWire := Tbl.set none (u.ethOf port.val).onWire sp.val (some { f with clk := u.time.clk, stamp := st }),
          rr := Tbl.set 31 (u.ethOf port.val).rr sp.val f.queue } →
        exec (.txFrameStart port sp) s = .next (s.finish { v with
          out := .frame port.val sp.val (t.oneStep port.val f.bytes st
            ++ leBytes 4 (fcsOf (t.oneStep port.val f.bytes st)).toNat) :: v.out }))
      ∧ (f.win = true → t.ahead port.val f.queue f.winEnd < t.serial port.val f.bytes.length →
        ({ t with free := t.free + 1 } : State).txEnd port.val f 2 (Config.freeWord t.free).toNat = some u →
        exec (.txFrameStart port sp) s = .next (s.finish (u.txStart port.val sp.val 63))))
    ∧ (∀ (f : TxFrame) (t u : State) (rate cost : Nat), Tbl.get none (s.ethOf port.val).onWire sp.val = some f →
      s.txEnd port.val f 1 (stampNs (nth (0, 0, 0) f.stamp (fld (s.txCtl port.val f.queue) 8 3))) = some t →
      rate = (t.rg (txqReg port.val f.queue 0x18)).toNat →
      cost = ((f.bytes.length + 4 + fld (t.pr .tmgr port.val 0x040) 8 8) * 8000 * 256 + rate - 1) / rate →
      u = t.setEth port.val { t.ethOf port.val with
        onWire := Tbl.set none (t.ethOf port.val).onWire sp.val none,
        e := if rate = 0 then (t.ethOf port.val).e else Tbl.upd 0 (t.ethOf port.val).e f.queue fun e =>
          max e (256 * (f.clk - (t.rg (txqReg port.val f.queue 0x1C)).toNat)) + cost } →
      exec (.txFrameComplete port sp) s = .next (s.finish
        (((u.bump64 .eth port.val (0x100 + 0x40 * sp.val + 0x10) 1).bump64 .eth port.val (0x100 + 0x40 * sp.val + 0x18)
          (f.bytes.length + 4)).txStamp port.val f)))

/-- R291. -/
def Obligations.TickOfABase : Prop :=
  (∀ (x : TBase), x.ns < 1000000000 → x.frac < 2 ^ 32 → x.sec < 2 ^ 48 → x.inc.toNat < 2 ^ 33 →
    x.tick.ns < 1000000000 ∧ x.tick.frac < 2 ^ 32 ∧ x.tick.sec < 2 ^ 48 ∧ x.tick.inc = x.inc
    ∧ ((x.tick.sec * 1000000000 + x.tick.ns) * 2 ^ 32 + x.tick.frac)
      = ((x.sec * 1000000000 + x.ns) * 2 ^ 32 + x.frac + x.inc.toNat) % (2 ^ 48 * 1000000000 * 2 ^ 32))
  ∧ (∀ (s : State) (b : Fin 8), s.time.running = true → s.time.pend = [] → s.time.bases.length = 8 →
      s.tick.base b.val = (s.base b.val).tick)
  ∧ (∀ b : Fin 8, (State.reset.base b.val).inc = 0x100000000)

/-- TB_INC_COMMIT (R292). -/
def Obligations.IncrementCommit : Prop :=
  ∀ (s : State) (req : Requestor) (b : Fin 8) (val : BitVec 32) (w : Nat) (t : State), s.awake = true →
    t = { s with staged := Tbl.set none s.staged (pairKey req (tbReg b.val 0x10)) none } →
    w = ((Tbl.get none s.staged (pairKey req (tbReg b.val 0x10))).getD (s.rg (tbReg b.val 0x10))).toNat
      + 2 ^ 32 * (val.toNat % 256) →
    (0xF0000000 ≤ w → w ≤ 0x110000000 → exec (.tbIncCommit req b val) s = .next (s.finish
        ({ t.setPair (tbReg b.val 0x10) w with
          time := { t.time with pend := t.time.pend ++ [(b.val, .inc (BitVec.ofNat 40 w), 64)] } } : State)))
    ∧ (w < 0xF0000000 ∨ 0x110000000 < w → exec (.tbIncCommit req b val) s = .next (s.finish
        (t.raise (pageAt .time 0) 3 (BitVec.ofNat 32 b.val))))

/-- Apply ticks (R293 to R295).
TB_STEP, TB_SET (R294), LTC_SET (R298), TIME_APPLY_TICK (R295), TB_NS_READ (R296), LTC_NS_READ (R298), TIME_STATE_CHECK
(R299), TPO_PULSE_START, TPO_PULSE_END (R301), TCI_EDGE, TCI_NS_READ (R303), TXTS_INFO_READ (R306). -/
def Obligations.TimeCommands : Prop :=
  ((∀ (s : State) (b : Fin 8) (sec ns : Nat), s.time.running = true → s.time.bases.length = 8 →
    s.time.pend = [(b.val, .setTo sec ns, 64)] →
    (s.ticks 63).time.pend = [(b.val, .setTo sec ns, 1)]
    ∧ (s.ticks 64).time.pend = []
    ∧ (s.ticks 64).base b.val = { (s.base b.val) with sec := sec, ns := ns, frac := 0 })
  ∧ (∀ (s : State) (b : Fin 8) (adj : BitVec 64) (x : TBase), s.time.running = true → s.time.bases.length = 8 →
    s.time.pend = [(b.val, .step adj, 1)] → x = (s.base b.val).tick →
    s.tick.time.pend = [] ∧ (s.tick.base b.val).frac = x.frac
    ∧ (((s.tick.base b.val).sec * 1000000000 + (s.tick.base b.val).ns : Nat) : Int)
      = ((x.sec * 1000000000 + x.ns : Nat) + adj.toInt) % (2 ^ 48 * 1000000000 : Nat))
  ∧ (∀ (s : State) (b : Fin 8) (also : Bool) (c : TCmd) (n : Nat), s.awake = true → s.Settled → (b.val, c, n) ∈ s.time.pend →
    ((∃ adj, c = .step adj) ∨ ∃ sec ns, c = .setTo sec ns) →
    exec (.tbStep b) s = .next s ∧ exec (.tbSet b also) s = .next s))
  ∧ (∀ (s : State) (b : Fin 8), s.awake = true →
    (s.cmdPending b.val = false →
      exec (.tbStep b) s = .next (s.finish (s.defer b.val (.step (BitVec.ofNat 64 (s.pair (tbReg b.val 0x18))))))
      ∧ (∀ also : Bool,
        ((s.rg (tbReg b.val 0x20)).toNat < 1000000000 → exec (.tbSet b also) s = .next (s.finish
          (s.defer b.val (.setTo (s.pair (tbReg b.val 0x24) % 2 ^ 48) (s.rg (tbReg b.val 0x20)).toNat))))
        ∧ (1000000000 ≤ (s.rg (tbReg b.val 0x20)).toNat → exec (.tbSet b also) s = .next (s.finish
          (s.raise (pageAt .time 0) 3 (BitVec.ofNat 32 b.val))))))
    ∧ (∀ val : BitVec 32, exec (.ltcSet val) s = .next (s.finish (s.defer 8 (.ltc val.toNat))))
    ∧ (∀ (c : TCmd) (n k : Nat), s.time.running = true → s.time.pend = [(k, c, n)] → n ≤ 64 →
      exec .timeApplyTick s = .next (s.finish (s.ticks n)))
    ∧ exec (.tbNsRead b) s = .next (s.finish ((((s.setPair (tbReg b.val 0x08) (s.base b.val).sec).setRg (tbReg b.val 0)
        (BitVec.ofNat 32 (s.base b.val).frac)).answer (BitVec.ofNat 32 (s.base b.val).ns))))
    ∧ exec .ltcNsRead s = .next (s.finish ((s.setPr .time 0 0x308 (BitVec.ofNat 32 s.time.ltcFrac)).answer
        (BitVec.ofNat 32 s.time.ltcNs)))
    ∧ (∀ (die : Fin 6) (flips : List (Fin 1216)) (l : List TBase) (n : Nat), s.time.running = true →
      (l, n) = ((Tbl.get none s.time.copies die.val).getD (s.time.bases, 0)) →
      (flipTime l flips = s.time.bases → exec (.timeStateCheck die flips) s = .next (s.finish
        { s with time := { s.time with copies := Tbl.set none s.time.copies die.val none } }))
      ∧ (flipTime l flips ≠ s.time.bases → n = 0 →
        crc32c ((flipTime l flips).flatMap TBase.bytes) ≠ crc32c (s.time.bases.flatMap TBase.bytes) →
        exec (.timeStateCheck die flips) s = .next (s.finish
          (({ s with time := { s.time with
            copies := Tbl.set none s.time.copies die.val (some (flipTime l flips, 2000)) } } : State).raise (pageAt .time 0) 2
              (BitVec.ofNat 32 (die.val * 256)))))
      ∧ (flipTime l flips ≠ s.time.bases → (n ≠ 0 ∨
          crc32c ((flipTime l flips).flatMap TBase.bytes) = crc32c (s.time.bases.flatMap TBase.bytes)) →
        exec (.timeStateCheck die flips) s = .next (s.finish { s with time := { s.time with
          copies := Tbl.set none s.time.copies die.val (some (flipTime l flips, n)) } })))
    ∧ (∀ (n : Fin 16) (x : Tpo), x = s.tpoOf n.val → s.time.running = true →
      (x.armed = true → x.high = false → x.next ≤ (s.base (fld (s.rg (tpoReg n.val 0)) 4 3)).total →
        exec (.tpoPulseStart n) s = .next (s.finish ((s.setTpo n.val
          (if x.period = 0 then { x with armed := false, fired := true, high := true, off := x.next + x.width }
           else { x with next := x.next + x.period, high := true, off := x.next + x.width })).tpoPin n.val true)))
      ∧ (∀ t, x.high = true → x.off ≤ (s.base (fld (s.rg (tpoReg n.val 0)) 4 3)).total →
        t = (s.setTpo n.val { x with high := false }).tpoPin n.val false →
        (fld (s.rg (tpoReg n.val 0)) 0 1 = 0 → exec (.tpoPulseEnd n) s = .next (s.finish t))
        ∧ (fld (s.rg (tpoReg n.val 0)) 0 1 = 1 → exec (.tpoPulseEnd n) s = .next (s.finish (t.tpoLoad n.val)))))
    ∧ (∀ (n : Fin 8) (rising : Bool) (c st : Word), c = s.rg (tciReg n.val 0) → st = s.rg (tciReg n.val 0x14) →
      s.time.running = true → fld c 0 1 = 1 → (fld c 1 2 = 0 ∧ rising = true ∨ fld c 1 2 = 1 ∧ rising = false ∨ fld c 1 2 = 2) →
      ((∃ t, Tbl.get none s.time.lastEdge n.val = some t ∧ s.time.clk ≤ t + 16) →
        exec (.tciEdge n rising) s = .next (s.finish
          (s.setRg (tciReg n.val 0x14) (setFld st 16 16 (min 0xFFFF (fld st 16 16 + 1))))))
      ∧ ((∀ t, Tbl.get none s.time.lastEdge n.val = some t → t + 16 < s.time.clk) →
        ((s.tciOf n.val).length < 16 → exec (.tciEdge n rising) s = .next (s.finish { s with time := { s.time with
          tci := Tbl.upd [] s.time.tci n.val fun l => l ++ [{ ns := (s.base (fld c 4 3)).ns, sec := (s.base (fld c 4 3)).sec,
                                                              ltc := s.time.ltcNs, rising := rising }],
          lastEdge := Tbl.set none s.time.lastEdge n.val (some s.time.clk) } }))
        ∧ (16 ≤ (s.tciOf n.val).length → exec (.tciEdge n rising) s = .next (s.finish
          ((s.setRg (tciReg n.val 0x14) (st ||| 0x20)).raise (pageAt .time 0) 4
            (BitVec.ofNat 32 (fld c 4 3 + 16 * n.val)))))))
    ∧ (∀ (n : Fin 8) (c : Capture) (l : List Capture) (t : State), s.tciOf n.val = c :: l →
      t = { s with time := { s.time with tci := Tbl.set [] s.time.tci n.val l } } →
      exec (.tciNsRead n) s = .next (s.finish (((t.setPair (tciReg n.val 0x08) c.sec).setRg (tciReg n.val 0x10)
        (BitVec.ofNat 32 c.ltc)).answer (BitVec.ofNat 32 (c.ns + 2 ^ 31 * bn c.rising)))))
    ∧ (∀ (e : TxStamp) (l : List TxStamp) (t : State), s.time.txts = e :: l → t = { s with time := { s.time with txts := l } } →
      exec .txtsInfoRead s = .next (s.finish
        ((((t.setPr .time 0 0x864 (BitVec.ofNat 32 e.ns)).setPair (pageAddr .time 0 + 0x868) e.sec).setPr .time 0 0x870
          (BitVec.ofNat 32 e.frac)).answer
            (BitVec.ofNat 32 (2 ^ 31 + e.port * 2 ^ 16 + e.queue * 2 ^ 11 + e.base * 2 ^ 8 + e.idx % 256))))))

/-- R314, with the formulas of its listing. -/
def Obligations.ChannelMap : Prop :=
  (∀ a, a < hbmSize →
    hbmChan a = ((a / 256) % 256 ^^^ ((a / 65536 ^^^ a / 16777216 ^^^ a / 4294967296) % 256))
    ∧ hbmLa a = a / 256 / 256 * 256 + a % 256
    ∧ hbmInst a = hbmChan a % 8 * 32 + hbmChan a / 8
    ∧ hbmInst a < 256 ∧ hbmLa a < 0xC0000000 ∧ hbmOffset (hbmInst a) (hbmLa a) = a)
  ∧ (∀ inst la, inst < 256 → la < 0xC0000000 →
    hbmOffset inst la < hbmSize ∧ hbmInst (hbmOffset inst la) = inst ∧ hbmLa (hbmOffset inst la) = la)
  ∧ (∀ g i j, g < 0xC00000 → i < 256 → j < 256 → hbmChan (65536 * g + 256 * i) = hbmChan (65536 * g + 256 * j) → i = j)
  ∧ ∀ g c, g < 0xC00000 → c < 256 → ∃ i, i < 256 ∧ hbmChan (65536 * g + 256 * i) = c

/-- R317 and R319 for the words of a line, and the commands HBM_READ, HBM_WRITE, HBM_PARTIAL_WRITE and
CORRECTED_WRITE_BACK. -/
def Obligations.LineOutcomes : Prop :=
  ∀ (s : State) (line : BitVec 34) (spec : Bool) (inst : Nat), s.awake = true → s.lineUp line.toNat = true →
    inst = hbmInst (64 * line.toNat) →
    (∀ (retried : Bool) (flips : List (Fin 576)) (r u c : State),
      r = (if retried then s.raise (pageAt .hbmc inst) 6 (hbmInfo (hbmLa (64 * line.toNat))) else s) →
      u = { r with ecc := flipBits r.ecc (8 * line.toNat) flips } →
      c = u.bump64 .hbmc inst (if spec then 0x054 else 0x044) 1 →
      (u.stackFault inst = false → u.poison.contains line.toNat = false →
        ((∀ i, i < 8 → Tbl.get [] u.ecc (8 * line.toNat + i) = []) →
          exec (.hbmRead line spec retried flips) s = .next (s.finish { c with mdata := some (u.hbm.read (64 * line.toNat) 64) }))
        ∧ (∀ (k p : Nat), k < 8 → (∀ i, i < 8 → i ≠ k → Tbl.get [] u.ecc (8 * line.toNat + i) = []) →
          (Tbl.get [] u.ecc (8 * line.toNat + k) = [p] → ∀ t, t = c.hbmWord (8 * line.toNat + k, .single p) →
            exec (.hbmRead line spec retried flips) s = .next (s.finish
              { t with wb := addSorted line.toNat t.wb, mdata := some (u.hbm.read (64 * line.toNat) 64) }))
          ∧ (Tbl.get [] u.ecc (8 * line.toNat + k) = [p, p + 1] → ∀ t, t = c.hbmWord (8 * line.toNat + k, .pair p) →
            exec (.hbmRead line spec retried flips) s = .next (s.finish
              { t with wb := addSorted line.toNat t.wb, mdata := some (u.hbm.read (64 * line.toNat) 64) }))
          ∧ (∀ q, q ≠ p + 1 → Tbl.get [] u.ecc (8 * line.toNat + k) = [p, q] →
            ∀ t, t = (c.eccLast (hbmInst (8 * (8 * line.toNat + k))) p 0x7F 3).hbmPoison line.toNat →
            t.poison.contains line.toNat = true
            ∧ exec (.hbmRead line spec retried flips) s = .next (s.finish { t with mdata := none })))
        ∧ (∀ t ok, c.hbmCheck (8 * line.toNat) 8 = (t, ok) → exec (.hbmRead line spec retried flips) s = .next (s.finish
            { t with mdata := if ok then some (t.hbm.read (64 * line.toNat) 64) else none })))
      ∧ (u.stackFault inst = false → u.poison.contains line.toNat = true →
        exec (.hbmRead line spec retried flips) s = .next (s.finish { c.bump .hbmc inst 0x070 1 with mdata := none }))
      ∧ (u.stackFault inst = true → exec (.hbmRead line spec retried flips) s = .next (s.finish { u with mdata := none })))
    ∧ (∀ (data : BitVec 512) (poison : Bool) (t u : State), s.stackFault inst = false →
      t = s.bump64 .hbmc inst 0x04C 1 →
      u = { t with
            hbm := t.hbm.write (64 * line.toNat) (leBytes 64 data.toNat), ecc := clearEcc t.ecc (8 * line.toNat) 8,
            poison := if poison then addSorted line.toNat t.poison else t.poison.erase line.toNat,
            wb := t.wb.erase line.toNat } →
      exec (.hbmWrite line data poison) s = .next (s.finish
        { u.mirrorOwner (64 * line.toNat) (leBytes 64 data.toNat) with mdata := some [] }))
    ∧ (∀ (data : BitVec 512) (poison : Bool), s.stackFault inst = true →
      exec (.hbmWrite line data poison) s = .next (s.finish { s with mdata := none }))
    ∧ (∀ (first : Fin 64) (data : List (BitVec 8)) (t : State), first.val + data.length ≤ 64 → s.stackFault inst = false →
      t = s.bump64 .hbmc inst 0x04C 1 →
      (t.poison.contains line.toNat = true →
        exec (.hbmPartialWrite line first data) s = .next (s.finish { t with mdata := none }))
      ∧ (∀ v ok u, t.poison.contains line.toNat = false →
        (partWords first.val data.length).foldl (fun (p : State × Bool) i =>
          if p.2 then p.1.hbmCheck (8 * line.toNat + i) 1 else p) (t, true) = (v, ok) →
        u = { v with
              hbm := v.hbm.write (64 * line.toNat + first.val) data,
              ecc := (touchedWords first.val data.length).foldl (fun e i => Tbl.set [] e (8 * line.toNat + i) []) v.ecc,
              wb := v.wb.erase line.toNat } →
        (partWords first.val data.length = [] → v = t ∧ ok = true)
        ∧ (ok = true → exec (.hbmPartialWrite line first data) s = .next (s.finish
          { u.mirrorOwner (64 * line.toNat + first.val) data with mdata := some [] }))
        ∧ (ok = false → exec (.hbmPartialWrite line first data) s = .next (s.finish { v with mdata := none }))))
    ∧ (s.wb.contains line.toNat = true → s.poison.contains line.toNat = false →
      exec (.correctedWriteBack line) s = .next (s.finish
        { s with wb := s.wb.erase line.toNat, ecc := clearEcc s.ecc (8 * line.toNat) 8 }))
    ∧ (s.wb.contains line.toNat = false → s.Settled → exec (.correctedWriteBack line) s = .next s)

/-- HBM_SCRUB_READ, CS_SCRUB_READ, ROW_REPAIR_PPR, ROW_REPAIR_COMPLETE, WIPE_START, WIPE_COMPLETE, WIPE_TIMEOUT, XL_TRANSLATE,
HBMC_CNT_CLR, HBM_TEMP_POLL. -/
def Obligations.MemoryMaintenance : Prop :=
  ∀ (s : State) (ch : Fin 256) (cl : Fin 144), s.awake = true →
    (∀ (h : HbmCh) (line : Nat) (t : State), h = s.hcOf ch.val → line = hbmOffset ch.val (64 * (h.scrub % chanLines)) / 64 →
      s.hbmUp ch.val = true → s.fullWipe = false → s.maintOff = false → s.mayServe (16 + ch.val) 0x11 = true →
      t = (s.setHc ch.val { h with scrub := h.scrub + 1 }).bump64 .hbmc ch.val 0x05C 1 →
      ∀ (flips : List (Fin 576)) (v : State), v = { t with ecc := flipBits t.ecc (8 * line) flips } →
      ((v.poison.contains line = true ∨ v.stackFault ch.val = true) → exec (.hbmScrubRead ch flips) s = .next (s.finish
        (v.setPr .hash 0 0x068 (BitVec.ofNat 32 v.passes))))
      ∧ (v.poison.contains line = false → v.stackFault ch.val = false → ∀ u, u = (v.hbmCheck (8 * line) 8).1 →
        exec (.hbmScrubRead ch flips) s = .next (s.finish (u.setPr .hash 0 0x068 (BitVec.ofNat 32 u.passes)))))
    ∧ (∀ (line : Nat), line = cl.val * 49152 + (s.clOf cl.val).scrub % 49152 → (s.clOf cl.val).pwr ≠ .dark →
      s.maintOff = false → s.rst.warm = false → s.rst.doms.contains (cl.val / 36) = false →
      ∀ (t v : State) (flips : List (Fin 576)), t = s.setCl cl.val { s.clOf cl.val with
        scrub := ((s.clOf cl.val).scrub + 1) % 49152 } → v = { t with csEcc := flipBits t.csEcc (8 * line) flips } →
      (v.csPoison.contains line = true → exec (.csScrubRead cl flips) s = .next (s.finish v))
      ∧ (v.csPoison.contains line = false →
        exec (.csScrubRead cl flips) s = .next (s.finish (v.csCheck cl.val (8 * line) 8).1)))
    ∧ (∀ (r : Repair), (s.hcOf ch.val).repair = some r → s.hbmUp ch.val = true →
      (r.issued = false → s.ownerNow (16 + ch.val) = 0x11 ∨ s.ownerNow (16 + ch.val) = 0x1F →
        ∀ t, t = (rowLines ch.val r.row).foldl State.copyLine s → exec (.rowRepairPpr ch) s = .next (s.finish
          (t.setHc ch.val { t.hcOf ch.val with repair := some { r with issued := true } })))
      ∧ (r.issued = true →
        (∀ ok, ok = false ∨ spareRows ≤ Tbl.get 0 (s.hcOf ch.val).used (bankOf r.row) →
          exec (.rowRepairComplete ch ok) s = .next (s.finish ((s.setHc ch.val { s.hcOf ch.val with
            repair := (s.hcOf ch.val).due (fld (s.pr .hbmc ch.val 0x080) 0 8) r.row }).raise
            (pageAt .hbmc ch.val) 5 (hbmInfo (rowLa r.row)))))
        ∧ (∀ (u : State) (x : Tbl Nat), Tbl.get 0 (s.hcOf ch.val).used (bankOf r.row) < spareRows →
          x = Tbl.upd 0 (s.hcOf ch.val).used (bankOf r.row) (· + 1) →
          u = s.setHc ch.val { s.hcOf ch.val with
            repair := (s.hcOf ch.val).due (fld (s.pr .hbmc ch.val 0x080) 0 8) r.row, used := x, rows := (s.hcOf ch.val).rows.filter (fun p => p.1 != r.row) } →
          exec (.rowRepairComplete ch true) s = .next (s.finish
            ((((u.bump .hbmc ch.val 0x078 1).setPr .hbmc ch.val 0x07C
              (BitVec.ofNat 32 (spareRows - maxBy (·.2) x))).raise (pageAt .hbmc ch.val) 4 (hbmInfo (rowLa r.row))).logEvent
                (pageAt .hbmc ch.val) 0x1804 6 0 (hbmInfo (rowLa r.row)) (rowLa r.row))))))
    ∧ (s.boot.phase = 4 → s.fullWipe = false → exec (.wipeStart .full) s = .next (s.finish
        { s with wipes := [.full], wipeAt := s.time.clk }))
    ∧ (∀ v : Fin 256, s.wipeDue v.val = true → s.wipes = [] →
        exec (.wipeStart (.strike v)) s = .next (s.finish { s with wipes := [.strike v] }))
    ∧ (s.fullWipe = true → (∃ t, exec (.wipeComplete .full) s = .next (s.finish t) ∧ t.hbm = [] ∧ t.store = [] ∧ t.dspMem = []
        ∧ t.poison = [] ∧ t.csPoison = [] ∧ t.ecc = [] ∧ t.csEcc = [] ∧ t.dspEcc = [] ∧ t.wb = [] ∧ t.wipes = s.wipes.erase .full
        ∧ t.pr .hash 0 0x05C = BitVec.ofNat 32 ((s.time.clk - s.wipeAt) / 1000))
      ∧ exec .wipeTimeout s = .next (s.finish
          (({ s with free := s.free + 1 } : State).raise (pageAt .hash 0) 1 (Config.freeWord s.free))))
    ∧ (∀ (v : Fin 256) (t : State), s.wipes.contains (.strike v) = true →
      t = ({ s with wipes := s.wipes.erase (.strike v) } : State).wipeFn v.val →
      exec (.wipeComplete (.strike v)) s = .next (s.finish (t.setFn v.val { t.fnOf v.val with wiped := true })))
    ∧ (∀ (req : Requestor) (val : BitVec 32) (t : State) (x : Nat), s.takePair req 0x300040 val = (t, x) → x < hbmSize →
      exec (.xlTranslate req val) s = .next (s.finish
        ((((t.setRg 0x300040 (BitVec.ofNat 32 x)).setRg 0x300044 val).setRg 0x300048
          (BitVec.ofNat 32 (hbmChan x + 256 * (hbmChan x % 8) + 2048 * (hbmChan x / 8) + 2 ^ 31))).setRg 0x30004C
            (BitVec.ofNat 32 (hbmLa x)))))
    ∧ (∀ val : BitVec 32, s.Settled → (fld val 0 1 = 1 → ∃ t, exec (.hbmcCntClr ch val) s = .next t
        ∧ s.Cleared t ((offsets 0x044 0x070).map (pageAddr .hbmc ch.val + ·)))
      ∧ (fld val 0 1 = 0 → exec (.hbmcCntClr ch val) s = .next s))
    ∧ (∀ (stack : Fin 8) (temp : BitVec 8), ∃ t, exec (.hbmTempPoll stack temp) s = .next (s.finish t)
        ∧ ∀ i, i < 32 → s.hbmUp (stack.val * 32 + i) = true →
          fld (t.pr .hbmc (stack.val * 32 + i) 0x040) 8 8 = temp.toNat)

/-- LINK_ENABLE, LINK_DISABLE, LINK_FAR_END_DETECTED, LINK_TRAIN_COMPLETE, LINK_TRAIN_TIMEOUT, LINK_CONFIG_COMPLETE,
LINK_RETRAIN_COMPLETE, LINK_RETRAIN_TIMEOUT, LINK_FAR_END_LOST, LINK_DOWN_TIMEOUT, LINK_DAMP_RELEASE, GL_RETRAIN, GL_UNDAMP,
GL_CNT_CLR. -/
def Obligations.LinkStates : Prop :=
  ∀ (s : State) (l : Fin 48) (x : Link), s.awake = true → x = s.linkOf l.val →
    (∀ st : LinkState,
      (x.st ≠ .active ∨ st = .active → s.linkTo l.val st = s.setLink l.val { x with
        st := st, since := s.time.clk, left := if x.st = .active then s.time.clk else x.left })
      ∧ (x.st = .active → st ≠ .active → s.linkTo l.val st =
        (s.setLink l.val { x with st := st, since := s.time.clk, left := s.time.clk }).reroute l.val))
    ∧ (∀ t, t = s.setPr .glink l.val 0x040 (setFld (s.glCtrl l.val) 0 1 1) →
      (x.st = .disabled → t.linkOk l.val = true → fld (t.glCtrl l.val) 0 1 = 1 →
        exec (.linkEnable l) s = .next (s.finish (t.linkTo l.val .detect)))
      ∧ (x.st ≠ .disabled ∨ t.linkOk l.val = false → exec (.linkEnable l) s = .next (s.finish t)))
    ∧ (∀ t, t = s.setPr .glink l.val 0x040 (setFld (s.glCtrl l.val) 0 1 0) →
      exec (.linkDisable l) s = .next (s.finish
        (((t.setLink l.val x.drained).linkTo l.val .disabled).setPr .glink l.val 0x050 0)))
    ∧ (∀ lanes : BitVec 10, 5 ≤ lanesIn (s.inService l.val lanes.toNat) →
      (x.st = .detect → exec (.linkFarEndDetected l lanes) s = .next (s.finish (s.linkTo l.val .train)))
      ∧ (x.st = .train → s.time.clk - x.since ≤ 50000000 → exec (.linkTrainComplete l lanes) s = .next (s.finish
          ((s.setDataLanes l.val (s.inService l.val lanes.toNat)).linkTo l.val .config))))
    ∧ (x.st = .train → 50000000 ≤ s.time.clk - x.since →
      exec (.linkTrainTimeout l) s = .next (s.finish (s.linkTo l.val .detect)))
    ∧ (∀ (node : Fin 16384) (pl : Fin 48) (lr : Bool) (map : BitVec 32) (t : State), x.st = .config →
      t = (s.setPr .glink l.val 0x050 (BitVec.ofNat 32 (node.val + 65536 * pl.val + 2 ^ 31))).setPr .glink l.val 0x04C
        (mapBits map) →
      exec (.linkConfigComplete l node pl lr map) s = .next (s.finish
        ((t.setLink l.val { x.drained with lr := lr || fld (t.glCtrl l.val) 1 1 == 1, credit := fullCredit }).linkUp l.val)))
    ∧ (∀ t, t = (s.setLink l.val { x with width := s.dataLanes l.val }).linkTo l.val .active →
      s.linkUp l.val = t.sendHeld.pump l.val 64)
    ∧ (∀ mask, s.resumeLanes l.val mask true = s.setDataLanes l.val mask
      ∧ s.resumeLanes l.val mask false = s.setDataLanes l.val (sumBy (fun k => 2 ^ k) (lowLanes mask 5)))
    ∧ (∀ (lanes : BitVec 10) (t : State), x.st = .retrain → s.time.clk - x.since ≤ 100000 →
      t = (s.setLaneMap l.val (setFld (s.laneMap l.val) 16 10
        (fld (s.laneMap l.val) 16 10 - s.returning l.val lanes.toNat))).setLink l.val { x with returnReq := false } →
      (5 ≤ lanesIn (t.inService l.val lanes.toNat) → exec (.linkRetrainComplete l lanes) s = .next (s.finish
        ((t.resumeLanes l.val (t.inService l.val lanes.toNat) (x.returnReq || x.width != 5)).linkUp l.val)))
      ∧ (lanesIn (t.inService l.val lanes.toNat) < 5 → exec (.linkRetrainComplete l lanes) s = .next (s.finish
        (t.linkDown l.val))))
    ∧ (x.st = .retrain → 100000 ≤ s.time.clk - x.since →
      exec (.linkRetrainTimeout l) s = .next (s.finish (s.linkDown l.val)))
    ∧ (x.st = .active ∨ x.st = .retrain → exec (.linkFarEndLost l) s = .next (s.finish (s.linkDown l.val)))
    ∧ (x.st ≠ .active → x.st ≠ .retrain → s.Settled → exec (.linkFarEndLost l) s = .next s)
    ∧ (x.st = .down → 1000000 ≤ s.time.clk - x.since →
      exec (.linkDownTimeout l) s = .next (s.finish (s.linkTo l.val .detect)))
    ∧ (x.st = .damped → penNow s.time.clk x.pen < 750 →
      exec (.linkDampRelease l) s = .next (s.finish (s.linkTo l.val .detect)))
    ∧ (x.st = .damped → 750 ≤ penNow s.time.clk x.pen → s.Settled → exec (.linkDampRelease l) s = .next s)
    ∧ (∀ t, t = s.setLink l.val { x with pen := addPen s.time.clk x.pen 500 } →
      (x.st = .active → exec (.glRetrain l) s = .next (s.finish
        (((t.bump .glink l.val 0x078 1).scoreEvent 6 l.val).linkTo l.val .retrain)))
      ∧ (x.st = .damped ∨ x.st = .down → exec (.glRetrain l) s = .next (s.finish t)))
    ∧ (x.st ≠ .active → x.st ≠ .damped → x.st ≠ .down → s.Settled → exec (.glRetrain l) s = .next s)
    ∧ (∀ t, t = s.setLink l.val { x with pen := (0, 0), lanePen := [] } →
      (x.st = .damped → exec (.glUndamp l) s = .next (s.finish (t.linkTo l.val .detect)))
      ∧ (x.st ≠ .damped → exec (.glUndamp l) s = .next (s.finish t)))
    ∧ (∀ val : BitVec 32, s.Settled →
      (fld val 0 1 = 1 → ∃ t, exec (.glCntClr l val) s = .next t
        ∧ s.Cleared t ((offsets 0x058 0x080 ++ offsets 0x0C0 0x0E4).map (pageAddr .glink l.val + ·)))
      ∧ (fld val 0 1 = 0 → exec (.glCntClr l val) s = .next s))

/-- FLIT_RECEIVE, NAK_RECEIVE, LANE_LOCK_LOST, LANE_LOCK_REGAINED, LANE_HARD_FAIL, GL_FORCE, GL_RETURN. -/
def Obligations.FlitsAndLanes : Prop :=
  ∀ (s : State) (l : Fin 48) (x : Link), s.awake = true → x = s.linkOf l.val →
    (s.linkActive l.val = true → ∀ (f : Flit) (c t : State), c = s.countSymbols l.val f.corrected →
      t = (if f.uncorrectable then (c.bump .glink l.val 0x06C 1).raise (pageAt .glink l.val) 1 (c.linkInfo l.val 0xF) else c) →
      (f.corrected = [] → c = s.bump .glink l.val 0x068 0)
      ∧ (f.crcOk = true → (f.ty = .data ∨ f.ty = .ctrl) → f.fseq.toNat = ((t.linkOf l.val).rxSeq + 1) % 4096 →
        ∀ u, u = (t.setLink l.val { ((t.linkOf l.val).ackTo f.fack.toNat).addCredit f.credit with
            rxSeq := f.fseq.toNat, nakSent := false }).bump64 .glink l.val 0x060 1 →
        (f.ty = .data ∨ f.map = none → exec (.flitReceive l f) s = .next (s.finish (u.pump l.val 64)))
        ∧ (∀ m, f.ty = .ctrl → f.map = some m → exec (.flitReceive l f) s = .next (s.finish
            ((u.setLaneMap l.val (mapBits m)).pump l.val 64))))
      ∧ (f.crcOk = true → (f.ty = .data ∨ f.ty = .ctrl) → f.fseq.toNat ≠ ((t.linkOf l.val).rxSeq + 1) % 4096 →
        exec (.flitReceive l f) s = .next (s.finish (t.askReplay l.val)))
      ∧ (f.crcOk = true → f.ty = .nak → exec (.flitReceive l f) s = .next (s.finish
          ((t.nak l.val f.fack.toNat).pump l.val 64)))
      ∧ (f.crcOk = true → f.ty = .idle →
        ((t.linkOf l.val).nakSent = true → exec (.flitReceive l f) s = .next (s.finish t))
        ∧ ((t.linkOf l.val).nakSent = false → exec (.flitReceive l f) s = .next (s.finish
          ((t.setLink l.val (((t.linkOf l.val).ackTo f.fack.toNat).addCredit f.credit)).pump l.val 64))))
      ∧ (f.crcOk = false → exec (.flitReceive l f) s = .next (s.finish
          (((t.bump .glink l.val 0x070 1).raise (pageAt .glink l.val) 2 (t.linkInfo l.val 0xF)).askReplay l.val))))
    ∧ (x.nakSent = true → s.askReplay l.val = s)
    ∧ (x.nakSent = false → s.askReplay l.val =
      { s.setLink l.val { x with nakSent := true } with out := .linkNak l.val x.rxSeq :: s.out })
    ∧ (s.linkActive l.val = true → ∀ fack : BitVec 12,
      exec (.nakReceive l fack) s = .next (s.finish ((s.nak l.val fack.toNat).pump l.val 64))
      ∧ (0 < x.unacked → x.txAcked = fack.toNat → x.replays = [] → ∀ t,
        t = (s.setLink l.val { x with replays := [(s.time.clk, x.txNext)] }).bump .glink l.val 0x074 1 →
        s.nak l.val fack.toNat = { t with out := .linkReplay l.val ((fack.toNat + 1) % 4096) :: t.out }))
    ∧ (∀ (k : Fin 10) (p : Nat × Nat) (t : State), p = addPen s.time.clk (Tbl.get (0, 0) x.lanePen k.val) 1000 →
      t = (((s.setPr .glink l.val (laneErr k.val) (setFld (s.pr .glink l.val (laneErr k.val)) 16 8
          (min 255 (fld (s.pr .glink l.val (laneErr k.val)) 16 8 + 1)))).setLink l.val { x with
            lanePen := Tbl.set (0, 0) x.lanePen k.val p,
            noLock := Tbl.set 0 x.noLock k.val (s.time.clk + 1) }).scoreEvent 5 (l.val * 10 + k.val)) →
      (p.1 < 3000 → exec (.laneLockLost l k) s = .next (s.finish t))
      ∧ (3000 ≤ p.1 → exec (.laneLockLost l k) s = .next (s.finish (t.spareLane l.val k.val))))
    ∧ (∀ k : Fin 10,
      exec (.laneLockRegained l k) s = .next (s.finish
        (s.setLink l.val { x with noLock := Tbl.set 0 x.noLock k.val 0 }))
      ∧ ((∃ t, Tbl.get 0 x.noLock k.val = t + 1 ∧ t + 10000 ≤ s.time.clk) ∨ s.laneFaulty l.val k.val = true →
        exec (.laneHardFail l k) s = .next (s.finish (s.spareLane l.val k.val)))
      ∧ (fld (s.laneMap l.val) k.val 1 = 0 → s.spareLane l.val k.val = s)
      ∧ (fld (s.laneMap l.val) k.val 1 = 1 →
        (∀ sp, sp = fld (s.laneMap l.val) 10 4 → sp < 10 → s.spareLane l.val k.val =
          ((s.setLaneMap l.val (setFld (setFld (setFld (setFld (s.laneMap l.val) k.val 1 0) sp 1 1) 10 4 0xF) (16 + k.val) 1 1)).bump
            .glink l.val 0x080 1).raise (pageAt .glink l.val) 3 (s.linkInfo l.val k.val))
        ∧ (10 ≤ fld (s.laneMap l.val) 10 4 → ∀ t,
          t = s.setLaneMap l.val (setFld (setFld (s.laneMap l.val) k.val 1 0) (16 + k.val) 1 1) →
          s.spareLane l.val k.val = (t.raise (pageAt .glink l.val) 4 (t.linkInfo l.val k.val)).linkRetrain l.val)))
    ∧ (∀ (k : Fin 16) (t : State), t = s.setPr .glink l.val 0x040 (setFld (s.glCtrl l.val) 4 4 k.val) →
      (k.val < 10 → exec (.glForce l k) s = .next (s.finish (t.spareLane l.val k.val)))
      ∧ (10 ≤ k.val → exec (.glForce l k) s = .next (s.finish t)))
    ∧ exec (.glReturn l) s = .next (s.finish (s.setLink l.val { x with returnReq := true }))

/-- RD, WR, ATOM, TAGREL, MIRW, MIRC and FLUSH. -/
def Obligations.RequestsArrive : Prop :=
  ∀ (s : State) (r : FabReq), s.awake = true →
    (exec (.rd r) s = .next (s.finish (s.arrive tyRd r)) ∧ exec (.wr r) s = .next (s.finish (s.arrive tyWr r))
      ∧ exec (.atom r) s = .next (s.finish (s.arrive tyAtom r)) ∧ exec (.tagrel r) s = .next (s.finish (s.arrive tyTagrel r))
      ∧ exec (.mirw r) s = .next (s.finish (s.arrive tyMirw r)) ∧ exec (.mirc r) s = .next (s.finish (s.arrive tyMirc r)))
    ∧ (fld (s.pr .fabric 0 0x044) 0 1 = 0 → s.Settled → ∀ kind, s.arrive kind r = s ∧ exec (.flush r) s = .next s)
    ∧ (∀ (h : State) (p : PairDst) (key kind : Nat), h = s.hear r.src.val → key = s.pairOf r.src.val r.dst.val →
      p = h.dstPair key → fld (s.pr .fabric 0 0x044) 0 1 = 1 →
      (s.isMine r.dst.val = true → s.rst.warm = true →
        s.arrive kind r = h.respErr r 4 ∧ exec (.flush r) s = .next (s.finish (h.respErr r 4)))
      ∧ (s.isMine r.dst.val = true → s.rst.warm = false →
        (p.epoch = r.epoch →
          (∀ (t v : State) (q : PairDst), r.seqNo.toNat = p.expect → p.held = [] → t = h.setDstPair key { p with held := [(kind, r)] } →
            t.applyReq kind r = (v, .done) → q = v.dstPair key → q.held = [(kind, r)] → q.flushes = [] → q.sinceAck + 1 < 64 →
            s.arrive kind r = v.setDstPair key { q with
              held := [], expect := (q.expect + 1) % 2 ^ 32, sinceAck := q.sinceAck + 1,
              firstAt := if q.sinceAck = 0 then v.time.clk else q.firstAt })
          ∧ (seqLe p.expect r.seqNo.toNat = false → s.arrive kind r = h.bump .fabric 0 0x084 1)
          ∧ (seqLe p.expect r.seqNo.toNat = true → r.seqNo.toNat ≠ p.expect → p.held = [] → h.reorder < 16384 →
            s.arrive kind r = h.setDstPair key { p with held := [(kind, r)] })
          ∧ exec (.flush r) s = .next (s.finish
            ((h.setDstPair key { p with flushes := p.flushes ++ [r.seqNo.toNat] }).answerFlushes key)))
        ∧ (128 ≤ (r.epoch - p.epoch).toNat →
          s.arrive kind r = h.bump .fabric 0 0x084 1 ∧ exec (.flush r) s = .next (s.finish (h.bump .fabric 0 0x084 1)))
        ∧ (0 < (r.epoch - p.epoch).toNat → (r.epoch - p.epoch).toNat ≤ 127 → s.arrive kind r = (h.setDstPair key { p with
            epoch := r.epoch, expect := 0, held := [], sinceAck := 0, flushes := [] }).takeReq kind r))
      ∧ (s.isMine r.dst.val = false → ∀ l, s.linkFor r.dst.val r.off.toNat r.fpid.toNat r.attempt.toNat = some l →
        fld (s.pr .fabric 0 0x044) 2 1 = 1 →
        s.arrive kind r = ((s.linkSend l { vc := vcOf kind, slots := slotsOf r.tag.isSome r.data.length, msg := reqMsg kind r }).bump64
          .fabric 0 0x0A8 1)
        ∧ exec (.flush r) s = .next (s.finish
          ((s.linkSend l { vc := vcOf tyFlush, slots := slotsOf r.tag.isSome r.data.length, msg := reqMsg tyFlush r }).bump64
            .fabric 0 0x0A8 1))))
    ∧ (∀ (u v : State) (b : List Byte), s.fpOk r.fpid r.off.toNat (r.bytes.toNat + 1) false = true →
      (r.spec = false ∨ s.specOk r.off.toNat = true) → s.hbmWaits r.off.toNat (r.bytes.toNat + 1) = false →
      u = s.bump64 .fabric 0 (if r.spec then 0x098 else 0x0A0) 1 →
      (u.hbmRead r.off.toNat (r.bytes.toNat + 1) r.spec = (v, some b) → s.applyRd r = (v.respond r tyRdrsp r.rid.toNat 0 b, .done))
      ∧ (u.hbmRead r.off.toNat (r.bytes.toNat + 1) r.spec = (v, none) →
          s.applyRd r = (v.respond r tyRdrsp r.rid.toNat 2 [], .done)))
    ∧ (s.fpOk r.fpid r.off.toNat (r.bytes.toNat + 1) false = false → s.applyRd r = (s.respErr r 1, .done))
    ∧ (∀ (d : List Byte), d = r.data.take (r.bytes.toNat + 1) → r.off.toNat < 0xC010000000 →
      (s.fpOk r.fpid r.off.toNat d.length true = false → s.applyWr r = (s.respErr r 1, .done))
      ∧ (∀ (v : State) (f : Nat), s.fpOk r.fpid r.off.toNat d.length true = true → s.hbmWaits r.off.toNat d.length = false → r.tag = none →
        s.hbmWrite r.off.toNat d r.poison = (v, true) → f = (v.ownerOf r.off.toNat).getD 0 →
        s.applyWr r = (v.mirrorW f r.off.toNat d (some (mirrorOrg (s.pairOf r.src.val r.dst.val), r.seqNo.toNat)), .done)))
    ∧ (∀ (n : Nat) (v : State) (st old : Nat), n = (if r.w64 then 8 else 4) → r.off.toNat % n = 0 →
      s.fpOk r.fpid r.off.toNat n true = true → r.aopc.toNat ≤ 10 → s.hbmWaits r.off.toNat n = false → r.tag = none →
      s.hbmAtom ((s.ownerOf r.off.toNat).getD 0) r.off.toNat r.aopc.toNat n (fb r.data 0 8) (fb r.data 8 8) f32add
        (some (mirrorOrg (s.pairOf r.src.val r.dst.val), r.seqNo.toNat)) = (v, st, old) →
      (st = 0 → s.applyAtom r = (v.respond r tyAtrsp r.rid.toNat 0 (leBytes 8 old), .done))
      ∧ (st ≠ 0 → s.applyAtom r = (v.respErr r (respCode st), .done)))
    ∧ (∀ t, r.tag = some t → s.applyTagrel r =
      ((s.freeTags r.src.val t).mirrorC s.undFn (effTagBytes t ++ leBytes 4 r.src.val), .done))
    ∧ (∀ (d : List Byte) (v : State), d = r.data.take (r.bytes.toNat + 1) → s.compareOnly s.undFn = true → r.src.val = s.undPeer →
      s.ownsHbm s.undFn r.off.toNat d.length = true → s.hbmWaits r.off.toNat d.length = false →
      s.hbmWrite r.off.toNat d r.poison = (v, true) → s.applyMirw r = (v, .done))
    ∧ (∀ (t : EffTag) (rc : TagRec) (f : State → State × Nat × Nat) (ans : State → Nat → Nat → State), r.tag = some t →
      s.tagRec r.src.val r.off.toNat t = some rc → s.applyTagged r f ans = (ans s rc.status rc.old.toNat, .done))

/-- RDRSP, ATRSP, ACK, ERR, BUSY_RETRY, ACK_TIMER, E2E_RETRANSMIT, UNREACHABLE_TIMEOUT, REVIVE, ROUTE_ENTRY_COMMIT,
LOST_DATA_READ, GROUP_COMMIT, FABRIC_CNT_CLR. -/
def Obligations.FabricResponses : Prop :=
  ∀ (s : State), s.awake = true →
    (∀ (g : FabHdr) (h : State) (n : Nat), fld (s.pr .fabric 0 0x044) 0 1 = 1 → h = s.hear g.src.val → n = g.src.val →
      (s.isMine g.dst.val = true →
        (∀ (rid : BitVec 16) (o : Outstanding),
          (h.readOf n rid.toNat false = some o → ∀ (d : List (BitVec 8)),
            exec (.rdrsp g rid false d) s = .next (s.finish (h.land o 0 d))
            ∧ exec (.rdrsp g rid true d) s = .next (s.finish (h.land o stPoisoned d)))
          ∧ (h.readOf n rid.toNat true = some o → ∀ old : BitVec 64,
            exec (.atrsp g rid old) s = .next (s.finish (h.land o 0 (leBytes 8 old.toNat)))))
        ∧ (∀ rid : BitVec 16, (h.readOf n rid.toNat false = none → ∀ p d, exec (.rdrsp g rid p d) s = .next (s.finish h))
          ∧ (h.readOf n rid.toNat true = none → ∀ old, exec (.atrsp g rid old) s = .next (s.finish h)))
        ∧ (∀ (q : BitVec 32) (e : BitVec 8) (t : State),
          ((h.srcPair n).epoch = e →
            t = (h.setSrcPair n { h.srcPair n with
              unacked := (h.srcPair n).unacked.filter (fun u => !seqLe u.seqNo q.toNat) }).mirrorFlush 65536 →
            exec (.ack g q e) s = .next (s.finish (t.fab.dst.foldl (fun s d => s.answerFlushes d.1) t)))
          ∧ ((h.srcPair n).epoch ≠ e → exec (.ack g q e) s = .next (s.finish h)))
        ∧ (∀ (q : BitVec 32) (rid : BitVec 16) (u : Unacked), (h.srcPair n).unacked.find? (fun u => u.seqNo == q.toNat) = some u →
          (∀ st, st ≠ .busy → u.kind ≠ tyRd → u.kind ≠ tyAtom → exec (.err g rid q st) s = .next (s.finish
            ((h.setSrcPair n { h.srcPair n with
              unacked := (h.srcPair n).unacked.filter (fun x => x.seqNo != u.seqNo) }).endUnacked u (errTask st))))
          ∧ (∀ st o, st ≠ .busy → u.kind = tyRd ∨ u.kind = tyAtom →
            h.fab.reads.find? (fun o => o.rid == u.req.rid.toNat && o.dst == n) = some o →
            exec (.err g rid q st) s = .next (s.finish (h.land o (errTask st) []))))
        ∧ (∀ (q : BitVec 32) (rid : BitVec 16), exec (.err g rid q .busy) s = .next (s.finish (h.setSrcPair n { h.srcPair n with
              unacked := (h.srcPair n).unacked.map (fun u =>
                if u.seqNo = q.toNat then { u with busy := true, busyAt := h.time.clk, sends := 1 } else u) }))))
      ∧ (s.isMine g.dst.val = false → fld (s.pr .fabric 0 0x044) 2 1 = 1 →
        ∀ l, s.linkFor g.dst.val g.off.toNat g.fpid.toNat g.attempt.toNat = some l → ∀ rid : BitVec 16,
        (∀ p d, exec (.rdrsp g rid p d) s = .next (s.finish ((s.linkSend l {
            vc := 1, slots := slotsOf false d.length, msg := .fabric tyRdrsp g.dst.val rid.toNat (2 * bn p) d }).bump64 .fabric 0 0x0A8 1)))
        ∧ (∀ old, exec (.atrsp g rid old) s = .next (s.finish ((s.linkSend l {
            vc := 1, slots := 3, msg := .fabric tyAtrsp g.dst.val rid.toNat 0 (leBytes 8 old.toNat) }).bump64 .fabric 0 0x0A8 1)))
        ∧ (∀ q e, exec (.ack g q e) s = .next (s.finish ((s.linkSend l {
            vc := 1, slots := 2, msg := .fabric tyAck g.dst.val q.toNat 0 [e] }).bump64 .fabric 0 0x0A8 1)))
        ∧ (∀ q st, exec (.err g rid q st) s = .next (s.finish ((s.linkSend l {
            vc := 1, slots := 2, msg := .fabric tyErr g.dst.val rid.toNat (errCode st) (leBytes 4 q.toNat) }).bump64 .fabric 0 0x0A8 1)))))
    ∧ (∀ (n : Fin 16384) (q : BitVec 32) (u : Unacked), s.unackedOf n.val q.toNat = some u →
      (u.busy = true → u.busyAt + 1000 ≤ s.time.clk → exec (.busyRetry n q) s = .next (s.finish (s.resendOne n.val q.toNat)))
      ∧ (u.link ≠ 63 → u.sentAt + 1000 * fld (s.pr .fabric 0 0x048) 0 8 ≤ s.time.clk →
        (u.sends ≤ fld (s.pr .fabric 0 0x04C) 0 4 → exec (.e2eRetransmit n q) s = .next (s.finish (s.resendOne n.val q.toNat)))
        ∧ (fld (s.pr .fabric 0 0x04C) 0 4 < u.sends → exec (.e2eRetransmit n q) s = .next (s.finish (s.nodeLost n.val)))))
    ∧ (∀ (n : Fin 16384) (t : State), s.heldBack n.val < (s.dstPair n.val).sinceAck →
      (s.dstPair n.val).firstAt + 200 ≤ s.time.clk → t = s.sendAck n.val →
      (t.dstPair (n.val + 16384)).sinceAck = 0 → exec (.ackTimer n) s = .next (s.finish t))
    ∧ (∀ n : Fin 16384, s.unreachable n.val = true → s.unreachSince n.val + 100000 ≤ s.time.clk →
      (s.srcPair n.val).unacked ≠ [] → exec (.unreachableTimeout n) s = .next (s.finish (s.nodeLost n.val)))
    ∧ (∀ (n : Fin 16384) (t u : State) (p : PairSrc), p = s.srcPair n.val →
      (s.fab.lost.contains n.val = true → s.nodeLost n.val = s)
      ∧ (s.fab.lost.contains n.val = false →
        t = ((({ s with fab := { s.fab with
          lost := addSorted n.val s.fab.lost, tags := s.fab.tags.filter fun r => r.src != n.val } } : State).setSrcPair n.val { p with unacked := [] }).bump
            .fabric 0 0x08C 1).raise (pageAt .fabric 0) 2 (fabInfo n.val 63) →
        u = p.unacked.foldl (fun s u => s.endUnacked u stNodeLost)
          ((t.fab.reads.filter fun o => o.dst == n.val).foldl (fun s o => s.land o stNodeLost []) t) →
        s.nodeLost n.val = (if u.undRole = 1 ∧ u.undPeer = n.val ∧ u.und.st ≠ .none then u.mirrorLost else u)))
    ∧ (∀ n : Fin 16384, (s.fab.lost.contains n.val = true →
        ∀ t, t = ({ s with fab := { s.fab with lost := s.fab.lost.erase n.val } } : State) →
        exec (.revive n) s = .next (s.finish (t.setSrcPair n.val
          { t.srcPair n.val with epoch := (t.srcPair n.val).epoch + 1, seqNo := 0, unacked := [] })))
      ∧ (s.fab.lost.contains n.val = false → s.Settled → exec (.revive n) s = .next s))
    ∧ (∀ (req : Requestor) (val : BitVec 32) (lo i : Nat) (t u : State),
      i = fld (s.pr .fabric 0 0x05C) 0 14 →
      lo = ((Tbl.get none s.staged (pairKey req 0x430060)).map (·.toNat)).getD (s.routeEntry % 2 ^ 30) →
      t = { s with staged := Tbl.set none s.staged (pairKey req 0x430060) none } →
      u = { t with fab := { t.fab with
        route := Tbl.set (2 ^ 48 - 1) t.fab.route i (lo % 2 ^ 30 + 2 ^ 30 * fld val 0 18),
        routeAt := if t.unreachable i then t.fab.routeAt else Tbl.set 0 t.fab.routeAt i t.time.clk } } →
      exec (.routeEntryCommit req val) s = .next (s.finish
        (u.setPr .fabric 0 0x05C (BitVec.ofNat 32 ((i + 1) % 16384))).sendHeld))
    ∧ (∀ i w, i = fld (s.pr .fabric 0 0x068) 0 9 → w.toNat = sumBy (fun b => if s.fab.lost.contains (32 * i + b) then 2 ^ b else 0)
        (List.range 32) → exec .lostDataRead s = .next (s.finish
          ((s.setPr .fabric 0 0x068 (BitVec.ofNat 32 ((i + 1) % 512))).answer w)))
    ∧ (∀ (req : Requestor) (g : Fin 64) (val : BitVec 32) (t u : State) (x k : Nat),
      s.takePair req (0x430404 + 0x10 * g.val) val = (t, x) →
      u = (t.setRg (0x430404 + 0x10 * g.val) (BitVec.ofNat 32 x)).setRg (0x430408 + 0x10 * g.val) val →
      k = fld (u.rg (0x430400 + 0x10 * g.val)) 0 15 →
      ((k = 0 ∨ 16384 < k) → exec (.groupCommit req g val) s = .next (s.finish { u with fab := { u.fab with
        groups := Tbl.set {} u.fab.groups g.val { err := true } } }))
      ∧ (∀ (v : State) (l : List Byte) (m : List Nat), 0 < k → k ≤ 16384 → x / 2 ^ 50 = u.node →
        x % 2 ^ 50 + 2 * k ≤ hbmSize → u.hbmRead (x % 2 ^ 50) (2 * k) false = (v, some l) →
        m = (List.range k).map (fun i => fb l (2 * i) 2) →
        (∀ rank, m.Nodup → findFrom (· == v.node) m 0 = some rank →
          exec (.groupCommit req g val) s = .next (s.finish { v with fab := { v.fab with
            groups := Tbl.set {} v.fab.groups g.val { members := m, valid := true, rank := rank } } }))
        ∧ (¬ m.Nodup ∨ v.node ∉ m → exec (.groupCommit req g val) s = .next (s.finish { v with fab := { v.fab with
            groups := Tbl.set {} v.fab.groups g.val { err := true } } }))))
    ∧ (∀ val : BitVec 32, s.Settled →
      (fld val 0 1 = 1 → ∃ t, exec (.fabricCntClr val) s = .next t
        ∧ s.Cleared t ((offsets 0x080 0x0AC).map (pageAddr .fabric 0 + ·)))
      ∧ (fld val 0 1 = 0 → exec (.fabricCntClr val) s = .next s))

/-- UND_START, UND_END, UND_GO_ON, UND_SYNC_COMPLETE, UND_DIGEST_COMPARE, MIRROR_HEARTBEAT, LEAD_SUSPECT, WITNESS_QUERY,
WITNESS_ANSWER, UND_LEAD_LOST, TAKEOVER_NOTICE. -/
def Obligations.UnderstudyPairing : Prop :=
  ∀ s : State, s.awake = true →
    (s.und.st = .none → s.undRole = 2 → (s.setPr .chip 0 0x0A4 0).undRole = 2 → exec .undStart s = .next (s.finish
      (({ s with und := { st := .syncing, current := true } } : State).setPr .chip 0 0x0A4 0)))
    ∧ (∀ (t u v : State), s.und.st = .none → s.undRole = 1 →
      t = ({ s with und := { st := .syncing, current := true } } : State).setPr .chip 0 0x0A4 0 →
      u = t.mirrorC t.undFn (genBytes (t.fnOf t.undFn).gen) →
      v = (u.work.items.filter fun (p : Nat × Item) => p.2.fn == t.undFn && p.2.kind == 2).foldl (fun s p =>
        s.mirrorC t.undFn (p.2.seedRec).bytes) u →
      t.undRole = 1 → exec .undStart s = .next (s.finish
        ((v.work.book.filter fun r => r.fn == t.undFn).foldl (fun s r => s.mirrorC t.undFn r.bytes) v)))
    ∧ (s.und.st ≠ .none ∨ (s.undRole ≠ 1 ∧ s.undRole ≠ 2) → s.Settled → exec .undStart s = .next s)
    ∧ (s.compareOnly s.undFn = false → exec .undEnd s = .next (s.finish { s with und := {} }))
    ∧ (s.compareOnly s.undFn = true → exec .undEnd s = .next (s.finish { s.dropItems s.undFn with und := {} }))
    ∧ (s.und.st = .syncing → s.undRole = 2 ∨ s.synced = true →
      exec .undSyncComplete s = .next (s.finish { s with und := { s.und with st := .mirroring } }))
    ∧ (∀ (q : BitVec 64) (k : Fin 4096) (x y : BitVec 256) (t u : State), s.compareOnly s.undFn = true →
      s.und.lead = [(q.toNat, k.val, x)] → s.und.own = [(q.toNat, k.val, y)] →
      t = { s with und := { s.und with lead := [], own := [] } } →
      (x = y → u = (t.bump .chip 0 0x0A4 1).bump .chip 0 0x0AC 1 →
        ((u.pr .chip 0 0x0A4).toNat < (u.pr .chip 0 0x0A0).toNat ∨ u.und.promoted = true →
          exec (.undDigestCompare q k) s = .next (s.finish u))
        ∧ ((u.pr .chip 0 0x0A0).toNat ≤ (u.pr .chip 0 0x0A4).toNat → u.und.promoted = false →
          exec (.undDigestCompare q k) s = .next (s.finish
            (({ u with und := { u.und with promoted := true } } : State).raise (pageAt .chip 0) 0x15 s.undInfo))))
      ∧ (x ≠ y → ∀ w : State, u = (t.setPr .chip 0 0x0A4 0).bump .chip 0 0x0A8 1 → w = u.break →
        w.und.current = false ∧ (s.und.st = .syncing ∨ s.und.st = .mirroring → w.und.st = .broken)
        ∧ exec (.undDigestCompare q k) s = .next (s.finish (w.raise (pageAt .chip 0) 0x11 t.undInfo))))
    ∧ (s.undRole = 2 →
      (s.und.st = .mirroring → s.und.current = true → exec .undGoOn s = .next (s.finish s.goOn))
      ∧ (s.und.st = .mirroring ∨ s.und.st = .syncing ∨ s.und.st = .broken → s.und.current = false →
        exec .undGoOn s = .next (s.finish s.undAbandon)))
    ∧ (s.undRole ≠ 2 → s.Settled → exec .undGoOn s = .next s)
    ∧ (s.und.st ≠ .none → s.und.st ≠ .abandoned →
      exec (.mirrorHeartbeat none) s = .next (s.finish (s.note 0 s.undPeer s.node s.undFn)))
    ∧ (∀ h : FabHdr, fld (s.pr .fabric 0 0x044) 0 1 = 1 →
      (s.isMine h.dst.val = true → exec (.mirrorHeartbeat (some h)) s = .next (s.finish (s.hear h.src.val)))
      ∧ (s.isMine h.dst.val = false → fld (s.pr .fabric 0 0x044) 2 1 = 1 →
        ∀ l, s.linkFor h.dst.val h.off.toNat h.fpid.toNat h.attempt.toNat = some l →
        exec (.mirrorHeartbeat (some h)) s = .next (s.finish ((s.linkSend l
          { vc := 3, slots := 3, msg := .note 0 h.dst.val h.src.val 0 }).bump64 .fabric 0 0x0A8 1))))
    ∧ (∀ t u, t = ({ s with und := { s.und with suspect := true, answers := [] } } : State) → s.compareOnly s.undFn = true →
      s.heardFrom s.undPeer = false →
      (∀ w, t.witness 0 = some w → u = t.note 1 w t.node t.undPeer →
        (∀ x, u.witness 1 = some x → exec .leadSuspect s = .next (s.finish (u.note 1 x u.node u.undPeer)))
        ∧ (u.witness 1 = none → exec .leadSuspect s = .next (s.finish u)))
      ∧ (t.witness 0 = none →
        (∀ x, t.witness 1 = some x → exec .leadSuspect s = .next (s.finish (t.note 1 x t.node t.undPeer)))
        ∧ (t.witness 1 = none → exec .leadSuspect s = .next (s.finish t))))
    ∧ (∀ asker lead : Fin 16384, exec (.witnessQuery asker lead) s = .next (s.finish
        ((s.hear asker.val).note 2 asker.val lead.val (bn (s.heardFrom lead.val)))))
    ∧ (∀ (w : Fin 2) (t : State), s.und.suspect = true → (s.witness w.val).isSome = true →
      (t = { s with und := { s.und with answers := Tbl.put s.und.answers w.val false } } →
        exec (.witnessAnswer w false) s = .next (s.finish t))
      ∧ (t = { s with und := { s.und with answers := Tbl.put s.und.answers w.val true, suspect := false } } →
        exec (.witnessAnswer w true) s = .next (s.finish t.break)))
    ∧ (∀ t, s.allSilent = true → t = ({ s with und := { s.und with suspect := false } } : State) →
      s.undRole = 2 → s.und.st = .mirroring → s.und.current = true → exec .undLeadLost s = .next (s.finish t.goOn))
    ∧ (∀ (l : Option (Fin 48)) (lead und : Fin 16384) (t u : State), fld (s.pr .fabric 0 0x044) 1 1 = 1 →
      (s.fab.takeovers.contains (lead.val, und.val) = true → s.Settled → exec (.takeoverNotice l lead und) s = .next s)
      ∧ (s.fab.takeovers.contains (lead.val, und.val) = false →
        t = { s with fab := { s.fab with
          takeovers := (lead.val, und.val) :: s.fab.takeovers, moved := Tbl.put s.fab.moved lead.val und.val } } →
        u = (List.range 48).foldl (fun s k =>
          if s.linkActive k ∧ l.map (·.val) ≠ some k then
            s.linkSend k { vc := 3, slots := 3, msg := .note 3 lead.val lead.val und.val } else s) t →
        exec (.takeoverNotice l lead und) s = .next (s.finish
          (((u.renumber lead.val).bump .fabric 0 0x094 1).raise (pageAt .fabric 0) 4
            (BitVec.ofNat 32 (lead.val + 65536 * 63))))))

/-- MODULE_INSERT, MODULE_REMOVE, MODULE_POLL, OPT_INT_ASSERT. -/
def Obligations.OpticalModules : Prop :=
  ∀ (s : State) (m : Fin 48), s.awake = true → s.modOn m.val = true →
    ((s.modOf m.val).present = false → ∀ (ident : List (BitVec 32)) (t u : State),
      t = (s.setMod m.val { present := true }).setPr .optm m.val 0x044 1 → t.modOn m.val = true →
      u = (List.range 14).foldl (fun s k => s.setPr .optm m.val (0x060 + 4 * k) (nth 0 ident k)) t →
      exec (.moduleInsert m ident) s = .next (s.finish
        ((u.setMod m.val { present := true, laser := u.laserOf (u.modIdent m.val) }).modEvent m.val)))
    ∧ ((s.modOf m.val).present = true →
      (s.Settled → ∀ ident, exec (.moduleInsert m ident) s = .next s)
      ∧ (∀ t u, t = s.keepLaser (s.modIdent m.val) (s.modOf m.val).laser →
        u = (t.setMod m.val {}).setPr .optm m.val 0x044 0 → u.modOn m.val = true →
        exec (.moduleRemove m) s = .next (s.finish ((u.modEvent m.val).farLost m.val)))
      ∧ (∀ o : ModuleObs,
        (o.busOk = false → exec (.modulePoll m o) s = .next (s.finish
          ((s.setPr .optm m.val 0x044 (setFld (s.pr .optm m.val 0x044) 4 1 1)).raise (pageAt .optm m.val) 3 0xF)))
        ∧ (o.busOk = true → ∀ t u v w : State,
          t = (s.setPr .optm m.val 0x044 (BitVec.ofNat 32
            (1 + 2 * o.state.toNat + 64 * o.txFault.toNat + 65536 * o.rxLos.toNat))).setPr .optm m.val 0x048
              (BitVec.ofNat 32 (o.temp.toNat + 65536 * o.vcc.toNat)) →
          u = (List.range 10).foldl (fun s k => s.setPr .optm m.val (0x0A0 + 4 * k) (nth 0 o.lanes k)) t →
          v = u.setMod m.val { u.modOf m.val with
            laser := (u.modOf m.val).laser.poll (max 1 (fld (u.pr .optm m.val 0x040) 8 8)) o.state.toNat
              ((List.range 10).map fun k => fld (nth 0 o.lanes k) 0 16) } →
          w = (if o.alarm then v.raise (pageAt .optm m.val) 2 0xF else v) →
          exec (.modulePoll m o) s = .next (s.finish ((List.range 10).foldl (fun s k =>
            if s.laneFaulty m.val k then s.spareLane m.val k else s) w)))))
    ∧ (∀ t : State, t = { s with
        out := ((List.range 48).filter fun m => (s.modOf m).present && s.modOn m).map .moduleFlags ++ s.out } →
      exec (.optIntAssert []) s = .next (s.finish t)
      ∧ (∀ (f : ModuleFlags) (u v : State), f.m = m → (s.modOf m.val).present = true →
        u = t.setPr .optm m.val 0x044
          (setFld (setFld (t.pr .optm m.val 0x044) 6 10 f.txFault.toNat) 16 10 f.rxLos.toNat) →
        v = (if f.alarm then u.raise (pageAt .optm m.val) 2 0xF else u) →
        exec (.optIntAssert [f]) s = .next (s.finish ((List.range 10).foldl (fun s k =>
          if s.laneFaulty m.val k then s.spareLane m.val k else s) v))))

/-- SET, GO, STRIKE, FREEZE, THAW, SAVE, RESTORE, VF_FLR, PF_FLR, VF_ENABLE_CLEAR, FREEZE_QUIET, STRIKE_QUIESCED,
STRIKE_COMPLETE. What R390 does not lay out of an image is the model's (log 40). -/
def Obligations.FunctionStates : Prop :=
  ∀ (s : State) (v : Fin 256) (f : Fn), s.awake = true → f = s.fnOf v.val →
    (s.vfSel = v.val →
      (v.val ≠ 0 →
        (f.st = .dark → exec .set s = .next (s.finish ((s.setFnState v.val .setting).vfResult 0)))
        ∧ (f.st = .striking → exec .set s = .next (s.finish ((s.setFn v.val { f with setPend := true }).vfResult 1)))
        ∧ (f.st = .setting →
          (s.grantsOk v.val = true → f.cl ≠ 0 ∨ s.partsOf v.val ≠ [] →
            exec .go s = .next (s.finish ((s.setFnState v.val .live).vfResult 0)))
          ∧ (s.grantsOk v.val = true → f.cl = 0 → s.partsOf v.val = [] → exec .go s = .next (s.finish (s.vfResult 3)))
          ∧ (s.grantsOk v.val = false → exec .go s = .next (s.finish (s.vfResult 4))))
        ∧ (f.st = .setting ∨ f.st = .live ∨ f.st = .intermission →
          exec .strike s = .next (s.finish ((s.strikeFn v.val).vfResult 0)))
        ∧ (f.st = .live →
          (s.partsOf v.val ≠ [] → exec .freeze s = .next (s.finish (s.vfResult 5)))
          ∧ (s.partsOf v.val = [] → f.freezing = true → exec .freeze s = .next (s.finish (s.vfResult 0)))
          ∧ (s.partsOf v.val = [] → f.freezing = false → ∀ t, t = (s.setFn v.val { f with freezing := true }).vfResult 0 →
            exec .freeze s = .next (s.finish ((List.range 144).foldl (fun s k => match (s.clOf k).placed with
              | some (i, _) => if s.itemIsOf i v.val then (s.preemptCl k .handover).1 else s
              | none => s) t))
            ∧ ((∀ k, k < 144 → (t.clOf k).placed = none) → exec .freeze s = .next (s.finish t)))))
      ∧ (f.st = .intermission →
        exec .thaw s = .next (s.finish (((s.setFn v.val { f with saved := 0 }).setFnState v.val .live).vfResult 0))
        ∧ (∀ (t u : State) (b : List Byte) (g : Got) (n i : Nat), s.image v.val = (t, b) → n = (t.fnOf v.val).saved →
          t.writeImage ((pieces 256 (b.length / 256 + 1) b).drop n) n = (u, g, i) →
          (∀ x, g = .ok x → exec .save s = .next (s.finish ((u.setFn v.val { u.fnOf v.val with saved := 0 }).vfResult 0)))
          ∧ (g = .wait → exec .save s = .next (s.finish (u.setFn v.val { u.fnOf v.val with saved := i })))
          ∧ (∀ x, g = .fail x → exec .save s = .next (s.finish
            ((u.setFn v.val { u.fnOf v.val with saved := 0 }).vfResult 6)))))
      ∧ (f.st = .setting → v.val ≠ 0 → ∀ (t u : State) (h b : List Byte),
        s.gRead (s.smWho 0 0 0) s.imgAddr 256 false = (t, .ok h) → fb h 0 4 = 0x31474D49 → fb h 4 2 = 1 → 288 ≤ fb h 8 8 →
        fb h 8 8 ≤ 2 ^ 41 → t.gRead (t.smWho 0 0 0) t.imgAddr (fb h 8 8) false = (u, .ok b) →
        (imageOk b = true → (u.forget 7000).imageFits v.val (sectionAt b 6) = true →
          exec .restore s = .next (s.finish ((u.forget 7000).restoreImage v.val b)))
        ∧ (imageOk b = true → (u.forget 7000).imageFits v.val (sectionAt b 6) = false →
          exec .restore s = .next (s.finish ((u.forget 7000).vfResult 7)))
        ∧ (imageOk b = false → exec .restore s = .next (s.finish
          ((((u.forget 7000).forget 7000).vfResult 6).raise (pageAt .host 0) 5 (BitVec.ofNat 32 v.val)))))
      ∧ (∀ c, (c = .set ∧ (v.val = 0 ∨ f.st = .setting ∨ f.st = .live ∨ f.st = .intermission))
          ∨ (c = .go ∧ (v.val = 0 ∨ f.st ≠ .setting)) ∨ (c = .strike ∧ (v.val = 0 ∨ f.st = .dark ∨ f.st = .striking))
          ∨ (c = .freeze ∧ (v.val = 0 ∨ f.st ≠ .live)) ∨ (c = .thaw ∧ f.st ≠ .intermission)
          ∨ (c = .save ∧ f.st ≠ .intermission) ∨ (c = .restore ∧ (v.val = 0 ∨ f.st ≠ .setting)) →
        exec c s = .next (s.finish (s.vfResult 2))))
    ∧ (v.val ≠ 0 → f.st = .setting ∨ f.st = .live ∨ f.st = .intermission →
      exec (.vfFlr v) s = .next (s.finish (s.strikeFn v.val)))
    ∧ exec .vfEnableClear s = .next (s.finish ((List.range 256).foldl State.strikeEvent s))
    ∧ (∀ t, t = ((((List.range 256).foldl State.strikeEvent s).dropDrains 0).returnFn 0).resetQueues 0 →
      exec .pfFlr s = .next (s.finish (t.setFn 0 { t.fnOf 0 with gen := nextGen (t.fnOf 0).gen })))
    ∧ (f.st = .live → f.freezing = true → s.fnQuiet v.val = true →
      exec (.freezeQuiet v) s = .next (s.finish ((s.setFn v.val { f with freezing := false }).setFnState v.val .intermission)))
    ∧ (f.st = .striking →
      (f.wiping = false → s.fnAcked v.val = true → s.fnIdle v.val = true → (∀ p ∈ s.work.items, p.2.fn ≠ v.val ∨ p.2.released = true) →
        exec (.strikeQuiesced v) s = .next (s.finish (s.setFn v.val { f with wiping := true })))
      ∧ (f.wiping = true → f.wiped = true → exec (.strikeComplete v) s = .next (s.finish (s.strikeEnd v.val))
        ∧ ((s.strikeEnd v.val).fnOf v.val).gen = nextGen f.gen ∧ (s.strikeEnd v.val).extsOf v.val = []
        ∧ (s.strikeEnd v.val).partsOf v.val = [] ∧ ((s.strikeEnd v.val).fnOf v.val).cl = 0
        ∧ ((s.strikeEnd v.val).fnOf v.val).st = (if f.setPend then .setting else .dark)))

/-- EXT_DATA_ACCESS, MB_TM_DOORBELL, MB_TT_DOORBELL, MB_PEND_CLEAR, PCIE_LINK_UP, PCIE_LINK_DOWN, PERST_RELEASE,
ATS_INVALIDATION, IDE_KEY_PROGRAM, IDE_INTEGRITY_FAIL, PCIE_UNCORRECTABLE_ERROR. -/
def Obligations.GrantsMailboxesPorts : Prop :=
  ∀ (s : State) (v : Fin 256) (f : Fn) (p : Fin 2), s.awake = true → f = s.fnOf v.val →
    (∀ (e : Nat) (val : BitVec 32), e = fld (s.pr .host 0 0x068) 0 14 →
      exec (.extDataAccess false val) s = .next (s.finish ((s.answer s.extWord).setPr .host 0 0x068
        (BitVec.ofNat 32 ((e + 1) % 2 ^ 14))))
      ∧ (∀ t, t = s.setPr .host 0 0x068 (BitVec.ofNat 32 ((e + 1) % 2 ^ 14)) → s.takesGrants s.vfSel = true →
        (e < 12256 → s.extent e = none → exec (.extDataAccess true val) s = .next (s.finish { t with
          hst := { t.hst with exts := Tbl.set none s.hst.exts e (some (s.vfSel, fld val 9 1 == 1)) } }))
        ∧ (e < 12256 → ∀ o ok, s.extent e = some (o, ok) → o ≠ s.vfSel →
          exec (.extDataAccess true val) s = .next (s.finish (t.vfResult 4)))
        ∧ (12256 ≤ e → exec (.extDataAccess true val) s = .next (s.finish (t.vfResult 4)))))
    ∧ (v.val ≠ 0 → f.st ≠ .striking → ∀ n : BitVec 8,
      (1 ≤ n.toNat → n.toNat ≤ 128 →
        (f.mb.tmPend = false → exec (.mbTmDoorbell v n) s = .next (s.finish ((s.setFn v.val { f with
          mb := { f.mb with tmPend := true, tmCount := n.toNat, tmGen := f.gen.toNat } }).msix 0 16)))
        ∧ (f.mb.tmPend = true → exec (.mbTmDoorbell v n) s = .next (s.finish
          ((s.setFn v.val { f with mb := { f.mb with ovr := true } }).raise (pageAt .vf v.val) 2 (BitVec.ofNat 32 v.val))))
        ∧ (s.mbSel = v.val →
          (f.mb.ttPend = false → exec (.mbTtDoorbell n) s = .next (s.finish ((s.setFn v.val { f with
            mb := { f.mb with ttPend := true, ttCount := n.toNat, ttGen := f.gen.toNat } }).msix v.val 16)))
          ∧ (f.mb.ttPend = true → exec (.mbTtDoorbell n) s = .next (s.finish
            ((s.setFn v.val { f with mb := { f.mb with ovr := true } }).raise (pageAt .vf v.val) 2 (BitVec.ofNat 32 v.val))))))
      ∧ (n.toNat = 0 ∨ 128 < n.toNat → exec (.mbTmDoorbell v n) s = .next (s.finish
          (s.setFn v.val { f with mb := { f.mb with ovr := true } }))))
    ∧ (v.val ≠ 0 →
      exec (.mbPendClear v true) s = .next (s.finish (s.setFn v.val { f with mb := { f.mb with tmPend := false } }))
      ∧ exec (.mbPendClear v false) s = .next (s.finish (s.setFn v.val { f with mb := { f.mb with ttPend := false } })))
    ∧ (6 ≤ s.boot.phase → exec (.pcieLinkUp p) s = .next (s.finish (s.setLinkUp p.val true)))
    ∧ (Tbl.get false s.hst.linkUp p.val = true → exec (.pcieLinkDown p) s = .next (s.finish
        ((s.setLinkUp p.val false).raise (pageAt .host 0) 2 0)))
    ∧ (s.boot.ready = true → exec (.perstRelease p) s = .next (s.finish ((s.setLinkUp p.val false).clearIde p.val)))
    ∧ (∀ page : BitVec 52, exec (.atsInvalidation v page) s = .next (s.finish { s with
        hst := { s.hst with ats := s.hst.ats.filter fun x => !(x.1 == v.val && x.2 == page.toNat) } }))
    ∧ (∀ k : Fin 5,
      (s.sec.sessions.any (·.2) = true → exec (.ideKeyProgram p k) s = .next (s.finish { s with
        hst := { s.hst with ide := Tbl.set .none s.hst.ide (5 * p.val + k.val) .secure } }))
      ∧ (∀ t, t = ({ s with hst := { s.hst with ide := Tbl.set .none s.hst.ide (5 * p.val + k.val) .insecure } } : State) →
        Tbl.get .none s.hst.ide (5 * p.val + k.val) ≠ .none →
        exec (.ideIntegrityFail p k) s = .next (s.finish (t.raise (pageAt .host 0) 4 0))))
    ∧ exec (.pcieUncorrectableError p) s = .next (s.finish (s.raise (pageAt .host 0) 3 0))

/-- SEVERITY_BUCKET_EXPIRE, PG_ERR_RELEASE, PG_ERR_OVF_CLEAR, FAULT_PIN_MIN_END, ALERT_PEND_CLEAR, PLDM_EVENT_ACK, FQ_SRC_READ,
THERMAL_SAMPLE, DROOP_DETECT, MARGIN_SAMPLE, EXPULSION_BUDGET_FREE. -/
def Obligations.FaultsAndMonitors : Prop :=
  ∀ s : State, s.awake = true →
    (∀ (addr : BitVec 28) (p : Page) (off : Nat), pageOf addr.toNat = some (p, off) →
      (s.severe p (fld (s.rg (p.base + 0x010)) 0 8) = false →
        s.condition p (fld (s.rg (p.base + 0x010)) 0 8) (s.rg (p.base + 0x014)) = false → s.domFault (pageDomain p.kind p.inst) = false →
        exec (.pgErrRelease addr false) s = .next (s.finish
          (((s.setRg (p.base + 0x010) 0).setRg (p.base + 0x014) 0).setRg (p.base + 0x018) 0)))
      ∧ (s.Settled → exec (.pgErrRelease addr true) s = .next s)
      ∧ (s.Settled → s.severe p (fld (s.rg (p.base + 0x010)) 0 8) = true ∨
          s.condition p (fld (s.rg (p.base + 0x010)) 0 8) (s.rg (p.base + 0x014)) = true
          ∨ s.domFault (pageDomain p.kind p.inst) = true →
        exec (.pgErrRelease addr false) s = .next s)
      ∧ exec (.pgErrOvfClear addr) s = .next (s.finish (s.setRg (p.base + 0x018) 0))
      ∧ (s.bucketDue p = false → s.Settled → exec (.severityBucketExpire addr) s = .next s)
      ∧ (∀ t : State, s.bucketDue p = true → t = { s with flt := { s.flt with
          bucketAt := Tbl.set 0 s.flt.bucketAt (p.base / 256) s.time.clk,
          counts := (List.range 32).foldl (fun t i =>
            Tbl.upd {} t (srcKey p i) fun c => { c with buckets := 0 :: c.buckets.take 15 }) s.flt.counts } } →
        (p.kind ≠ .hbmc → exec (.severityBucketExpire addr) s = .next (s.finish t))
        ∧ (p.kind = .hbmc → exec (.severityBucketExpire addr) s = .next (s.finish (t.setHc p.inst { t.hcOf p.inst with
            rows := (t.hcOf p.inst).rows.map fun r => (r.1, 0 :: r.2.take 15) })))))
    ∧ (s.flt.pulseAt + 1000 * fld (s.pr .fault 0 0x040) 1 7 ≤ s.time.clk →
      exec .faultPinMinEnd s = .next (s.finish { s with flt := { s.flt with inMin := false } }))
    ∧ (s.time.clk < s.flt.pulseAt + 1000 * fld (s.pr .fault 0 0x040) 1 7 → s.Settled → exec .faultPinMinEnd s = .next s)
    ∧ (∀ val : BitVec 32, exec (.alertPendClear val) s = .next (s.finish
        (s.setPr .fault 0 0x064 (s.pr .fault 0 0x064 &&& ~~~(val &&& ~~~s.alertCauses)))))
    ∧ (∀ b : Fin 6, exec (.pldmEventAck b) s = .next (s.finish (s.setPr .fault 0 0x064
        (s.pr .fault 0 0x064 &&& ~~~(BitVec.ofNat 32 (2 ^ b.val) &&& ~~~s.alertCauses)))))
    ∧ (s.flt.fq = [] → exec .fqSrcRead s = .next (s.finish (s.answer 0)))
    ∧ (∀ (e : FqEntry) (l : List FqEntry) (t : State), s.flt.fq = e :: l →
      t = ((s.setPr .fault 0 0x054 (BitVec.ofNat 32 (e.page / 16 + 65536 * (e.page % 16)))).setPr .fault 0 0x058 e.info).setPr
        .fault 0 0x05C (BitVec.ofNat 32 e.time) →
      exec .fqSrcRead s = .next (s.finish
        (({ t with flt := { t.flt with fq := l, lostArmed := s.flt.lostArmed || l.isEmpty } } : State).answer
          (BitVec.ofNat 32 (e.src + 65536 * e.sev + 2 ^ 18 * bn e.change + 2 ^ 31)))))
    ∧ (∀ (i : Fin 88) (temp : BitVec 16) (t u v : State), t = ({ s with flt := { s.flt with
        temps := Tbl.set 0 s.flt.temps i.val temp } } : State).dayUpd (sensorDom i.val) (DomDay.temp temp.toInt) →
      u = (if signed 16 (fld (t.pr .fault 0 0x08C) 0 16) < temp.toInt then
        t.setPr .fault 0 0x08C (BitVec.ofNat 32 temp.toNat) else t) →
      v = (if 4 * (fld (u.pr .fault 0 0x084) 0 8 : Int) ≤ temp.toInt then
        (u.raise (pageAt .fault 0) 3 (BitVec.ofNat 32
          ((if i.val < 64 then i.val / 16 else 4 + (i.val - 64) / 12) + 256 * i.val))).alert 3 else u) →
      (64 ≤ i.val → exec (.thermalSample i temp) s = .next (s.finish (v.thermalTrip i.val temp.toInt)))
      ∧ (i.val < 64 → exec (.thermalSample i temp) s = .next (s.finish
        ((v.thermalCeil i.val temp.toInt).thermalTrip i.val temp.toInt))))
    ∧ (∀ (i : Nat) (x : Int), x < 4 * (fld (s.pr .fault 0 0x088) 0 8 : Int) →
      s.thermalTrip i x = { s with flt := { s.flt with trips := Tbl.set 0 s.flt.trips i 0 } })
    ∧ (∀ (i : Nat) (x : Int), 2 ≤ Tbl.get 0 s.flt.trips i → 4 * (fld (s.pr .fault 0 0x088) 0 8 : Int) ≤ x →
      (s.thermalTrip i x).flt.thermTrip = true ∧ (s.thermalTrip i x).flt.aonTrip = true ∧ (s.thermalTrip i x).awake = false)
    ∧ (∀ (i : Fin 256) (t : State), t = { s with flt := { s.flt with
        droops := Tbl.set 0 s.flt.droops i.val (min 0xFFFFFFFF (Tbl.get 0 s.flt.droops i.val + 1)) } } →
      exec (.droopDetect i none) s = .next (s.finish (t.raise (pageAt .fault 0) 5 (monInfo (detectorDom i.val) i.val)))
      ∧ (∀ k : Fin 144, i.val < 192 → k.val / 36 = i.val / 48 → ∀ u, u = ({ t with pwr := { t.pwr with
          droopUntil := Tbl.set 0 s.pwr.droopUntil k.val (s.time.clk + 10000) } } : State) →
        exec (.droopDetect i (some k)) s = .next (s.finish
          (u.raise (pageAt .fault 0) 5 (monInfo (detectorDom i.val) i.val)))))
    ∧ (∀ (i : Fin 312) (ps : BitVec 8) (m : Nat × Nat) (t : State), m = Tbl.get (255, 255) s.flt.margins i.val →
      t = ({ s with flt := { s.flt with
        margins := Tbl.set (255, 255) s.flt.margins i.val (ps.toNat, min m.2 ps.toNat) } } : State).dayUpd (islandDom i.val)
          (fun x => { x with margin := min x.margin ps.toNat }) →
      (20 ≤ ps.toNat → exec (.marginSample i ps) s = .next (s.finish t))
      ∧ (ps.toNat < 20 → exec (.marginSample i ps) s = .next (s.finish
          (t.raise (pageAt .fault 0) 6 (monInfo (islandDom i.val) i.val)))))
    ∧ (∀ (l : List Nat) (t : State),
      l = s.flt.actions.filter (fun x => decide (s.time.clk < x + fld (s.pr .fault 0 0x078) 0 16 * 60000000000)) →
      t = { s with flt := { s.flt with actions := l } } →
      (l.length < fld (s.pr .fault 0 0x074) 0 8 → exec .expulsionBudgetFree s = .next (s.finish
        { t with flt := { t.flt with exhausted := false } }))
      ∧ (fld (s.pr .fault 0 0x074) 0 8 ≤ l.length → exec .expulsionBudgetFree s = .next (s.finish t)))

/-- EVENT_RECORD_WRITE, SNAPSHOT, SNAP_NOW, DAILY_SUMMARY, LOG_RD_DATA_READ, GET_LOG_INFO, READ_LOG, PLDM_SENSOR_READ. -/
def Obligations.LifeLog : Prop :=
  ∀ s : State, s.awake = true →
    (∀ (e : EvRec) (l : List EvRec) (times : List Nat), s.life.pend = e :: l →
      times = (Tbl.get [] s.life.recent (e.page * 65536 + e.src)).filter (fun t => decide (s.time.clk < t + 1000000000)) →
      (16 ≤ times.length → ∀ (left : Fin 101) ok t, t = s.bump .life 0 0x048 1 →
        exec (.eventRecordWrite ok left) s = .next (s.finish
          (({ t with life := { t.life with pend := l, retries := 0 } } : State).takeWear left.val)))
      ∧ (times.length < 16 → ∀ left : Fin 101,
        (∀ t, t = (s.lifeWrite s.evSlot (s.recordBytes e)).setPr .life 0 0x044 (s.pr .life 0 0x044 + 1) →
          exec (.eventRecordWrite true left) s = .next (s.finish (({ t with life := { t.life with
            recent := Tbl.set [] s.life.recent (e.page * 65536 + e.src) (s.time.clk :: times), pend := l,
            retries := 0 } } : State).takeWear left.val))
          ∧ (s.recordBytes e).length = 64)
        ∧ (∀ (t u : State) (b : List Byte), s.freeBytes 64 = (t, b) →
          u = (t.lifeWrite s.evSlot b).setPr .life 0 0x044 (s.pr .life 0 0x044 + 1) →
          (s.life.retries < 2 → exec (.eventRecordWrite false left) s = .next (s.finish
            (({ u with life := { u.life with retries := s.life.retries + 1 } } : State).takeWear left.val)))
          ∧ (2 ≤ s.life.retries → ∀ v, v = u.setPr .life 0 0x040 (setFld (u.pr .life 0 0x040) 1 1 1) →
            exec (.eventRecordWrite false left) s = .next (s.finish
              (((({ v with life := { v.life with pend := l, retries := 0 } } : State).raise (pageAt .life 0) 2 0).alert
                5).takeWear left.val))))))
    ∧ (s.life.pend = [] → ∀ ok (left : Fin 101),
      exec (.eventRecordWrite ok left) s = .next (s.finish (s.takeWear left.val)))
    ∧ (∀ (n : Nat) (t : State), t = { s with life := { s.life with wear := 100 - n } } →
      (n < 10 → s.life.wear ≤ 90 → s.takeWear n = t.raise (pageAt .life 0) 4 0)
      ∧ (10 ≤ n ∨ 90 < s.life.wear → s.takeWear n = t))
    ∧ (∀ (ageing : List (BitVec 16)) (t u : State) (b : List Byte),
      t = (List.range 26).foldl (fun s d => s.dayUpd d fun x => { x with score := min x.score (s.domScore d) })
        ((List.range 48).foldl State.laserSnap (s.takeAges ageing)).evaluate → t.snapBytes = (u, b) →
      ∀ v, v = (u.lifeWrite (0x4000000 + (u.pr .life 0 0x04C).toNat % 16384 * 4096) b).setPr .life 0 0x04C
        (u.pr .life 0 0x04C + 1) →
      exec (.snapshot ageing) s = .next (s.finish v) ∧ (ageing = [] → exec (.snapNow 1) s = .next (s.finish v)))
    ∧ (∀ (u : State) (h body : List Byte), s.snapHeader 0x21 = (u, h) → body = u.snapBody h u.domDay →
      exec .dailySummary s = .next (s.finish
        ((u.lifeWrite (0x1000000 + (u.pr .life 0 0x050).toNat % 4096 * 4096) (body ++ leBytes 4 (crc32c body).toNat)).setPr .life
          0 0x050 (u.pr .life 0 0x050 + 1)).newDay))
    ∧ (∀ (a n : Nat), (0x1000000 ≤ a → s.lifeRead a n = (s, s.life.mem.read a n))
      ∧ (a < 0x1000000 → s.lifeRead a n = s.freeBytes n))
    ∧ (∀ (a : Nat) (t : State) (b : List Byte) (w : Word), a = (s.pr .life 0 0x060).toNat → s.lifeRead a 4 = (t, b) →
      w = BitVec.ofNat 32 (leNat b) →
      exec (.logRdDataRead true) s = .next (s.finish
        ((t.setPr .life 0 0x060 (BitVec.ofNat 32 ((a + 4) % 0x8000000))).answer w))
      ∧ exec (.logRdDataRead false) s = .next (s.finish
        ((((t.raise (pageAt .life 0) 1 0).alert 5).setPr .life 0 0x060 (BitVec.ofNat 32 ((a + 4) % 0x8000000))).answer w)))
    ∧ (s.mctpLog = true →
      exec .getLogInfo s = .next (s.finish (s.mctpSend 4
        (leBytes 4 (s.pr .life 0 0x044).toNat ++ leBytes 4 (s.pr .life 0 0x04C).toNat ++ leBytes 4 (s.pr .life 0 0x050).toNat)))
      ∧ (∀ (off : BitVec 27) (len : Fin 257) (t : State) (b : List Byte),
        s.lifeRead off.toNat (min len.val (0x8000000 - off.toNat)) = (t, b) →
        exec (.readLog off len) s = .next (s.finish { t with out := .mctp 5 b :: t.out })))
    ∧ (s.mctpAll = true → ∀ sel, exec (.pldmSensorRead sel) s = .next (s.finish { s with
        out := .mctp 6 (leBytes 4 (s.sensorValue sel)) :: s.out }))

/-- POWER_SAMPLE, CEILING_STEP, OP_STEP_COMPLETE, CLUSTER_DIM, CLUSTER_DARK, CLUSTER_WAKE_COMPLETE, CL_PWR_FORCE,
REGULATOR_FAULT. -/
def Obligations.PowerManagement : Prop :=
  ∀ (s : State) (q : Fin 4) (cl : Fin 144) (c : Cluster), s.awake = true → c = s.clOf cl.val →
    (∀ (w i : BitVec 16) (r t v u : State), r = { s with pwr := s.pwr.sample w.toNat } →
      t = (r.setPr .pwr 0 0x048 (BitVec.ofNat 32 (w.toNat + 65536 * r.pwr.mean))).setPr .pwr 0 0x04C (BitVec.ofNat 32 i.toNat) →
      v = (if t.pwrBit 0 then t.bump64 .pwr 0 0x084 1 else t) →
      u = { v with pwr := { v.pwr with
          edcRun := if v.tdp < w.toNat then v.pwr.edcRun + 1 else 0,
          calm := if r.pwr.mean + 50 ≤ v.tdp then min 1000 (v.pwr.calm + 1) else 0 } } →
      (u.edcW < w.toNat → exec (.powerSample w i) s = .next (s.finish u.edcResponse))
      ∧ (w.toNat ≤ u.edcW → exec (.powerSample w i) s = .next (s.finish u.limitEnd)))
    ∧ (∀ (p : PwrSt) (w : Nat), p.winLen = p.win.length → p.winSum = p.win.sum →
      (p.sample w).winLen = (p.sample w).win.length ∧ (p.sample w).winSum = (p.sample w).win.sum
      ∧ (p.winLen ≤ 100000 → (p.sample w).winLen = min 100000 (p.winLen + 1)))
    ∧ (∀ k, k < 4 → s.edcResponse.ceil k = min 2 (s.ceil k))
    ∧ (∀ k, k < 4 → s.edcResponse.pwr.edcUntil = s.time.clk + 100000)
    ∧ (s.budgetOn = true → s.pwr.leverAt + 10000 ≤ s.time.clk → 1 < s.ceil q.val → (∀ j, j < 4 → s.ceil j ≤ s.ceil q.val) →
      exec (.ceilingStep (.lower q)) s = .next (s.finish (s.setCeil q.val (s.ceil q.val - 1)).limitStart.stepped))
    ∧ (s.ceil q.val < 8 → s.pwr.edcUntil ≤ s.time.clk → (∀ j, j < 4 → s.ceil q.val ≤ s.ceil j) →
      (s.mayRelease = true ∧ s.pwrBit 3 = false ∧ (∀ j, j < 4 → s.opOf j = 0) ∧ s.pwr.leverAt + 100000 ≤ s.time.clk)
        ∨ (s.pwr.edcUntil ≠ 0 ∧ s.pwr.leverAt + 10000 ≤ s.time.clk) →
      exec (.ceilingStep (.raise q)) s = .next (s.finish (s.setCeil q.val (s.ceil q.val + 1)).limitEnd.stepped))
    ∧ (Tbl.get 0 s.pwr.stepping q.val = 0 →
      (∀ d t, t = ({ s with pwr := { s.pwr with
          stepping := Tbl.set 0 s.pwr.stepping q.val d, stepAt := Tbl.set 0 s.pwr.stepAt q.val s.time.clk } } : State) →
        (d = 1 → s.budgetOn = true → s.ceil q.val = 1 → s.radioQ q.val = false → s.opOf q.val < fld (s.pr .pwr 0 0x05C) 0 3 →
          exec (.ceilingStep (.opDown q)) s = .next (s.finish t.limitStart.stepped))
        ∧ (d = 2 → (s.mayRelease = true ∧ s.pwrBit 3 = false ∧ s.pwr.leverAt + 100000 ≤ s.time.clk) ∨ s.commitNeeds q.val = true →
          s.opOf q.val ≠ 0 → exec (.ceilingStep (.opUp q)) s = .next (s.finish t.stepped))))
    ∧ (s.budgetOn = true → s.opsExhausted = true →
      (s.pwrBit 3 = false → exec (.ceilingStep .deferMaint) s = .next (s.finish (s.setPwrBit 3 true).limitStart.stepped))
      ∧ (s.pwrBit 3 = true → s.overBudget = true → s.pwrBit 2 = false → exec (.ceilingStep .exhausted) s = .next (s.finish
          ((s.setPwrBit 2 true).raise (pageAt .pwr 0) 3 0))))
    ∧ (s.mayRelease = true → s.pwr.leverAt + 100000 ≤ s.time.clk → s.pwrBit 3 = true →
      exec (.ceilingStep .resumeMaint) s = .next (s.finish (s.setPwrBit 3 false).limitEnd.stepped))
    ∧ (s.stepped = { s with pwr := { s.pwr with leverAt := s.time.clk } })
    ∧ (∀ (d op age : Nat) (t : State), d = Tbl.get 0 s.pwr.stepping q.val → d ≠ 0 →
      age = s.time.clk - Tbl.get 0 s.pwr.stepAt q.val →
      (50000 ≤ age → exec (.opStepComplete q false) s = .next (s.finish (s.raise (pageAt .pwr 0) 4 (BitVec.ofNat 32 q.val))))
      ∧ (age ≤ 50000 → op = (if d = 1 then s.opOf q.val + 1 else s.opOf q.val - 1) →
        t = { s with pwr := { s.pwr with stepping := Tbl.set 0 s.pwr.stepping q.val 0 } } →
        exec (.opStepComplete q true) s = .next (s.finish
          ((t.setPr .pwr 0 0x058 (setFld (t.pr .pwr 0 0x058) (4 * q.val) 4 op)).bump .pwr 0 0x08C 1).limitEnd)))
    ∧ (c.force = 0 → c.placed = none → s.radioCl cl.val = false →
      (fld (s.pr .pwr 0 0x040) 2 1 = 1 → c.pwr = .lit → (∀ u ∈ c.units, u.2.ctx = none) →
        fld (s.pr .pwr 0 0x064) 0 16 ≤ (s.time.clk - c.idleAt) * (10 - s.opOf (cl.val / 36)) / 5 →
        exec (.clusterDim cl) s = .next (s.finish (s.setCl cl.val { c with pwr := .dimmed })))
      ∧ (fld (s.pr .pwr 0 0x040) 3 1 = 1 → c.pwr ≠ .dark →
        s.granted cl.val = false ∨ s.unitSt clsCluster cl.val ≠ .active → s.bringing clsCluster cl.val = false →
        exec (.clusterDark (.cluster cl)) s = .next (s.finish (s.darken cl.val))
        ∧ ((s.darken cl.val).clOf cl.val).pwr = .dark
        ∧ ∀ off, off < csSize → (s.darken cl.val).store.byte (cl.val * csSize + off) = 0))
    ∧ (∀ us : BitVec 8, c.force = 0 →
      (c.pwr = .dark → exec (.clusterWakeComplete cl us) s = .next (s.finish
        ((s.bump .pwr 0 0x0A8 us.toNat).setCl cl.val { c with pwr := .lit })))
      ∧ (c.pwr ≠ .dark → exec (.clusterWakeComplete cl us) s = .next (s.finish (s.setCl cl.val { c with pwr := .lit }))))
    ∧ (fld (s.pr .pwr 0 0x0A0) 0 8 = cl.val →
      exec (.clPwrForce 0) s = .next (s.finish (s.setCl cl.val { c with force := 0 }))
      ∧ (s.radioCl cl.val = false → exec (.clPwrForce 1) s = .next (s.finish (s.setCl cl.val { c with force := 1, pwr := .dimmed })))
      ∧ (s.granted cl.val = false → s.radioCl cl.val = false → exec (.clPwrForce 2) s = .next (s.finish
          ((s.setCl cl.val { c with force := 2 }).darken cl.val)))
      ∧ (s.granted cl.val = true ∨ s.radioCl cl.val = true → s.Settled → exec (.clPwrForce 2) s = .next s))
    ∧ (∀ d : Fin 26, exec (.regulatorFault d) s = .next (s.finish (s.raise (pageAt .pwr 0) 4 (BitVec.ofNat 32 d.val))))

/-- SYS_RESET_ASSERT, SYS_RESET_RELEASE, VIN_LOW, VIN_RESTORE, AON_LOSS, VDD_AON_RESTORE, WARM_RESET_ASSERT, PWR_RST_WARM,
WARM_RESET_COMPLETE, PWR_RST_DOMAIN, DOMAIN_RESET_COMPLETE, PWR_RST_UNIT, SOFT_RESET, UNIT_RESET_COMPLETE. -/
def Obligations.Resets : Prop :=
  (∀ (s t : State) (cause : Nat), t = s.coldReset cause →
    t.rst.cold = true ∧ t.awake = false ∧ t.hbm = [] ∧ t.store = [] ∧ t.dspMem = [] ∧ t.poison = [] ∧ t.life.mem = s.life.mem ∧ t.life.pend = s.life.pend
    ∧ t.life.lasers = s.life.lasers
    ∧ t.flt.aonTrip = s.flt.aonTrip ∧ t.boot.ready = false ∧ t.und.st = .none ∧ t.pending = s.pending
    ∧ (∀ a, coldKeeps a = false → a ≠ pageAddr .pwr 0 + 0x074 → t.rg a = regReset a))
  ∧ (∀ s : State,
    (s.rst.sysResetN = true → ∀ t, t = ({ s with rst := { s.rst with sysResetN := false } } : State) →
      (s.flt.aonTrip = false → exec .sysResetAssert s = .next (s.finish (t.coldReset 1)))
      ∧ (s.flt.aonTrip = true → exec .sysResetAssert s = .next (s.finish (t.coldReset 2))))
    ∧ (s.rst.cold = true → s.rst.vinOk = true → s.rst.aonOk = true → s.flt.thermTrip = false →
      ∀ t, t = ({ s with rst := { s.rst with sysResetN := true } } : State).bootStart →
      exec .sysResetRelease s = .next (s.finish t) ∧ t.boot.phase = 1 ∧ t.boot.ready = false ∧ t.rst.cold = false ∧ t.awake = true)
    ∧ (∀ t, t = ({ s with rst := { s.rst with vinOk := false } } : State) →
      (s.rst.sysResetN = true → exec .vinLow s = .next (s.finish (t.coldReset 0)))
      ∧ (s.rst.sysResetN = false → exec .vinLow s = .next (s.finish t)))
    ∧ (∀ t, t = ({ s with rst := { s.rst with vinOk := true } } : State) →
      (s.rst.cold = true → s.rst.sysResetN = true → s.rst.aonOk = true → s.flt.thermTrip = false →
        exec .vinRestore s = .next (s.finish t.bootStart))
      ∧ (s.rst.sysResetN = false → exec .vinRestore s = .next (s.finish t)))
    ∧ (∀ t, t = s.coldReset 0 → exec .aonLoss s = .next (s.finish { t with
        rst := { t.rst with aonOk := false }, flt := { t.flt with aonTrip := false, thermTrip := false } }))
    ∧ exec .vddAonRestore s = .next { s with rst := { s.rst with aonOk := true } })
  ∧ (∀ (s t : State) (cause : Nat), t = s.startWarm cause →
    t.rst.warm = true ∧ t.rst.doms = [] ∧ t.rst.units = [] ∧ t.hbm = s.hbm ∧ t.poison = s.poison ∧ t.store = s.store
    ∧ ((∀ p ∈ s.dsp, p.2.memq = []) → t.dspMem = s.dspMem) ∧ t.life.mem = s.life.mem ∧ t.fab.route = s.fab.route
    ∧ t.fab.lost = s.fab.lost)
  ∧ ∀ s : State, s.awake = true →
    (s.bigReset = false →
      exec .warmResetAssert s = .next (s.finish (s.startWarm 1)) ∧ exec .pwrRstWarm s = .next (s.finish (s.startWarm 2))
      ∧ (∀ d : Fin 32, d.val < 26 → s.rst.doms.contains d.val = false → s.rst.domWait.contains d.val = false →
        ¬(20 ≤ d.val ∧ s.rst.doms.contains 5 = true) →
        (d.val = 4 → exec (.pwrRstDomain d) s = .next (s.finish (s.startWarm 3)))
        ∧ (d.val ≠ 4 → s.domMustWait d.val = false → exec (.pwrRstDomain d) s = .next (s.finish (s.acceptReset.startDom d.val)))
        ∧ (d.val ≠ 4 → s.domMustWait d.val = true → ∀ t, t = s.acceptReset → exec (.pwrRstDomain d) s = .next (s.finish
            { t with rst := { t.rst with domWait := addSorted d.val s.rst.domWait } })))
      ∧ (∀ (page : BitVec 16) (addr : BitVec 28) (p : Page) (off : Nat), pageOf (page.toNat * 4096) = some (p, off) →
        addr.toNat = page.toNat * 4096 → unitClass p.kind = true →
        s.rst.doms.contains (pageDomain p.kind p.inst) = false → s.rst.units.contains (p.base / 256) = false →
        exec (.pwrRstUnit page) s = .next (s.finish (s.acceptReset.startUnit p))
        ∧ exec (.softReset addr) s = .next (s.finish (s.acceptReset.startUnit p))))
    ∧ (s.bigReset = true → exec .warmResetAssert s = .next (s.finish (s.refuseReset 1 0))
      ∧ exec .pwrRstWarm s = .next (s.finish (s.refuseReset 1 0))
      ∧ ∀ d : Fin 32, exec (.pwrRstDomain d) s = .next (s.finish (s.refuseReset 2 d.val)))
    ∧ (∀ d : Fin 32, 26 ≤ d.val ∨ s.rst.doms.contains d.val = true →
      exec (.pwrRstDomain d) s = .next (s.finish (s.refuseReset 2 d.val)))
    ∧ (∀ (page : BitVec 16) (p : Page) (off : Nat), pageOf (page.toNat * 4096) = some (p, off) → unitClass p.kind = false →
      exec (.pwrRstUnit page) s = .next (s.finish (s.refuseReset 3 (pageDomain p.kind p.inst))))
    ∧ (∀ (addr : BitVec 28) (p : Page) (off : Nat), pageOf addr.toNat = some (p, off) → unitClass p.kind = false → s.Settled →
      exec (.softReset addr) s = .next s)
    ∧ (s.rst.warm = true → ∀ t u : State, t = { s with
        rst := { s.rst with warm := false },
        regs := s.regs.filter (fun e => !isOff volatileOffs e.1),
        cls := s.cls.map (fun (p : Nat × Cluster) => (p.1, if p.2.force = 0 then { p.2 with pwr := .lit } else p.2)) } →
      u = ((t.bump .pwr 0 0x078 1).raise (pageAt .pwr 0) 6 (BitVec.ofNat 32 (2 ^ 17))).resetRecord 1 →
      exec .warmResetComplete s = .next (s.finish (((List.range 12).foldl State.startGroup u).replay.applyAll)))
    ∧ (∀ d : Fin 26, s.rst.doms.contains d.val = true → ∀ (ds : List Nat) (t u v : State),
      ds = (if d.val = 5 then [5, 20, 21, 22, 23, 24, 25] else [d.val]) →
      t = { s with
        rst := { s.rst with doms := s.rst.doms.filter (fun x => x != d.val) },
        time := { s.time with copies := if d.val < 6 then Tbl.set none s.time.copies d.val none else s.time.copies } } →
      u = (((ds.foldl State.leaveFault (t.resetPages fun p => ds.contains (pageDomain p.kind p.inst))).bump .pwr 0 0x07C 1).resetRecord
        2) →
      v = ds.foldl (fun s x => if 14 ≤ x then s.startGroup (x - 14) else s) u →
      exec (.domainResetComplete d) s = .next (s.finish v.startWaiting.applyAll))
    ∧ (s.rst.warm = false → s.Settled → exec .warmResetComplete s = .next s)
    ∧ (∀ d : Fin 26, s.rst.doms.contains d.val = false → s.Settled → exec (.domainResetComplete d) s = .next s)
    ∧ (∀ (page : BitVec 16) (t : State), s.rst.units.contains (16 * page.toNat) = true →
      t = { s with rst := { s.rst with units := s.rst.units.filter (fun x => x != 16 * page.toNat) } } →
      exec (.unitResetComplete page) s = .next (s.finish
        ((((t.resetPages (fun p => p.base == page.toNat * 4096)).bump .pwr 0 0x080 1).resetRecord 3).applyAll)))

/-- BOOT_ROM_COMPLETE, BOOT_LOAD_COMPLETE, BOOT_FIRMWARE_COMPLETE, BOOT_MEMORY_COMPLETE, BOOT_SERDES_COMPLETE,
BOOT_MAP_COMPLETE, BOOT_READY, TAP_INSTRUCTION. -/
def Obligations.Boot : Prop :=
  ∀ s : State, s.awake = true → s.boot.recovery = false →
    (s.boot.phase = 1 → exec .bootRomComplete s = .next (s.finish { s with boot := { s.boot with phase := 2 } }))
    ∧ (s.boot.phase = 2 → s.sec.lc ≠ 4 →
      (s.bankOk s.sec.nextBank = true → exec .bootLoadComplete s = .next (s.finish { s with
        sec := { s.sec with running := s.bankImage s.sec.nextBank }, boot := { s.boot with bank := s.sec.nextBank, phase := 3 } }))
      ∧ (s.bankOk s.sec.nextBank = false → s.bankOk (1 - s.sec.nextBank) = true → ∀ t u, t = ({ s with
        sec := { s.sec with running := s.bankImage (1 - s.sec.nextBank) },
        boot := { s.boot with bank := 1 - s.sec.nextBank, fallback := true } } : State) →
        u = t.raise (pageAt .chip 0) 0x18 (BitVec.ofNat 32 32) →
        exec .bootLoadComplete s = .next (s.finish { u with boot := { u.boot with phase := u.boot.phase + 1 } }))
      ∧ (s.bankOk s.sec.nextBank = false → s.bankOk (1 - s.sec.nextBank) = false → exec .bootLoadComplete s = .next (s.finish { s with
        boot := { s.boot with bank := s.sec.nextBank, recovery := true, wasRecovery := true } })))
    ∧ (s.boot.phase = 2 → s.sec.lc = 4 → s.Settled → exec .bootLoadComplete s = .next s)
    ∧ (s.boot.phase = 3 → exec .bootFirmwareComplete s = .next (s.finish { s with boot := { s.boot with phase := 4 } }))
    ∧ (s.boot.phase = 4 → s.fullWipe = false →
      exec (.bootMemoryComplete []) s = .next (s.finish { s with boot := { s.boot with phase := 5 } })
      ∧ ∀ (m : Fin 8) (t : State), t = s.domEnter (6 + m.val) → exec (.bootMemoryComplete [m]) s = .next (s.finish
          { t with boot := { t.boot with recovery := true, wasRecovery := true } }))
    ∧ (s.boot.phase = 4 → s.fullWipe = true → s.Settled → ∀ l, exec (.bootMemoryComplete l) s = .next s)
    ∧ (s.boot.phase = 5 →
      (∀ t, t = ({ s with boot := { s.boot with phase := 6 } } : State) →
        exec (.bootSerdesComplete true) s = .next (s.finish ((List.range 12).foldl State.startGroup t)))
      ∧ exec (.bootSerdesComplete false) s = .next (s.finish
        { s with boot := { s.boot with recovery := true, wasRecovery := true } }))
    ∧ (s.boot.phase = 6 → ∀ (failed : List (Fin 6 × Nat)) (t : State), t = failed.foldl (fun s u => s.failTest u.1.val u.2) s.applyMap →
      exec (.bootMapComplete failed none) s = .next (s.finish { t with boot := { t.boot with phase := t.boot.phase + 1 } })
      ∧ ∀ (d : Fin 6) (u : State), u = t.domEnter d.val → exec (.bootMapComplete failed (some d)) s = .next (s.finish
          { u with boot := { u.boot with recovery := true, wasRecovery := true } }))
    ∧ s.applyMap.map.applied = true
    ∧ (∀ cls i, i < unitsOf cls → s.unitSt cls i = .active →
        s.failTest cls i = (s.retire cls i).raise (pageAt .chip 0) 0x1C (s.bootInfo 0))
    ∧ (s.boot.phase = 7 → s.boot.ready = false → s.boot.wasRecovery = false → s.flt.aonTrip = false → ∀ (ms : BitVec 16) (t : State),
      t = { s with
        boot := { s.boot with ready := true, wasRecovery := false }, time := { s.time with running := true },
        sec := { s.sec with meas5 := mapDigest s.sec.variant s.curMap } } →
      exec (.bootReady ms) s = .next (s.finish
        ((t.latchSnap.setPr .chip 0 0x0C8 (BitVec.ofNat 32 ms.toNat)).logEvent (pageAt .chip 0) 0 0x0D 0 0 0)))
    ∧ (s.sec.lc ≠ 4 → ∀ t, t = ({ s with sec := { s.sec with tap := .bypass } } : State) →
      exec (.tapInstruction .bypass) s = .next (s.finish t)
      ∧ (∀ c, s.sec.debugOpen = true → exec (.tapInstruction (.other c)) s = .next (s.finish
          { s with sec := { s.sec with tap := .other c } }))
      ∧ (∀ c, s.sec.debugOpen = false → exec (.tapInstruction (.other c)) s = .next (s.finish
          ((t.bump .dbg 0 0x044 1).raise (pageAt .dbg 0) 1 0))))

/-- LC_REQ_GO, LC_REQUEST, LC_TRANSITION_RESET, FWU_STAGE, FWU_STAGE_COMPLETE, FWU_ACTIVATE, FWU_COMMIT_SVN,
PLDM_FIRMWARE_UPDATE, GET_VERSION, GET_CAPABILITIES, NEGOTIATE_ALGORITHMS, GET_DIGESTS, GET_CERTIFICATE, CHALLENGE,
GET_MEASUREMENTS, KEY_EXCHANGE, FINISH, KEY_UPDATE, END_SESSION. -/
def Obligations.SecurityServices : Prop :=
  ∀ s : State, s.awake = true →
    (∀ (tok : List (BitVec 8)) (ok : Bool) (r dst : Nat) (t : State), r = s.lcCheck tok ok → dst = leNat ((tok.drop 4).take 1) →
      s.mctpAll = true →
      (r = 1 → ¬(s.sec.lc = 3 ∧ dst = 3) → t = s.setPr .chip 0 0x0FC 1 → exec (.lcRequest tok ok) s = .next (s.finish
        { t with sec := { t.sec with nextLc := some dst, nextOwner := (tok.drop 64).take 96 } }))
      ∧ (r = 1 → s.sec.lc = 3 → dst = 3 → t = s.setPr .chip 0 0x0FC 1 → exec (.lcRequest tok ok) s = .next (s.finish
        (({ t with sec := { t.sec with debugOpen := true } } : State).raise (pageAt .chip 0) 0x1D (t.bootInfo 1))))
      ∧ (r ≠ 1 → t = (s.setPr .chip 0 0x0FC (BitVec.ofNat 32 r)).raise (pageAt .chip 0) 0x1A (s.bootInfo r) →
        exec (.lcRequest tok ok) s = .next (s.finish
          { t with sec := { t.sec with nonce := Config.nonce t.sec.draws, draws := t.sec.draws + 1 } })))
    ∧ (s.boot.ready = true → ∀ ok : Bool,
      (s.lcBusy = true → exec (.lcReqGo ok) s = .next (s.finish (s.lcRefuse 7)))
      ∧ (∀ (t : State) (b : List Byte), s.lcBusy = false → s.gRead (s.smWho 0 0 0) (s.pair 0x0F0) 256 false = (t, .ok b) →
        exec (.lcReqGo ok) s = .next (s.finish ((t.forget 7000).lcRequest b ok))))
    ∧ (∀ n, s.sec.nextLc = some n → exec .lcTransitionReset s = .next (s.finish (s.coldReset 3).tryBoot)
      ∧ (s.coldReset 3).sec.lc = n)
    ∧ (s.boot.ready = true →
      (s.sec.staging = true → exec .fwuStage s = .next (s.finish (s.fwuResult 4)))
      ∧ (s.sec.staging = false →
        ((s.pr .chip 0 0x108).toNat ≤ 0x2000000 → exec .fwuStage s = .next (s.finish (s.setFwu true false)))
        ∧ (0x2000000 < (s.pr .chip 0 0x108).toNat → exec .fwuStage s = .next (s.finish (s.fwuResult 5)))))
    ∧ (s.sec.staging = true → ∀ img : FwImage,
      exec (.fwuStageComplete false img) s = .next (s.finish (((s.setInactive none).setFwu false false).fwuResult 3))
      ∧ exec (.fwuStageComplete true img) s = .next (s.finish
        (((s.setInactive (some img)).setFwu false (s.imageCheck img == 0)).fwuResult (s.imageCheck img))))
    ∧ (∀ img : FwImage, s.mctpAll = true ∨ s.boot.recovery = true → s.sec.staging = false →
      exec (.pldmFirmwareUpdate img) s = .next (s.finish
        (((s.setInactive (some img)).setFwu false (s.imageCheck img == 0)).fwuResult (s.imageCheck img))))
    ∧ (fld (s.pr .chip 0 0x110) 4 1 = 1 → exec .fwuActivate s = .next (s.finish
        { s with sec := { s.sec with nextBank := 1 - s.boot.bank } }))
    ∧ (∀ i : FwImage, s.sec.running = some i → s.boot.ready = true → s.sec.svnMin < i.svn →
      exec .fwuCommitSvn s = .next (s.finish { s with sec := { s.sec with svnMin := i.svn } }))
    ∧ (s.spdmOn = true →
      (∀ t, t = ({ s with sec := { s.sec with spdmStage := 1 } } : State) →
        exec .getVersion s = .next (s.finish (t.spdmSend 0x04 0x13)))
      ∧ (1 ≤ s.sec.spdmStage → ∀ t, t = ({ s with sec := { s.sec with spdmStage := 2 } } : State) →
        exec .getCapabilities s = .next (s.finish (t.spdmOpaque 0x61)))
      ∧ (2 ≤ s.sec.spdmStage → ∀ t, t = ({ s with sec := { s.sec with spdmStage := 3 } } : State) →
        exec .negotiateAlgorithms s = .next (s.finish (t.spdmOpaque 0x63)))
      ∧ (s.sec.spdmStage < 3 → ∀ c, c ∈ [Instr.getDigests, .getCertificate 0, .challenge 0, .getMeasurements 1, .keyExchange 0,
          .finish 0, .keyUpdate 0, .endSession 0] → exec c s = .next (s.finish (s.spdmSend 0x7F 0)))
      ∧ (3 ≤ s.sec.spdmStage →
        exec .getDigests s = .next (s.finish (s.spdmOpaque 0x01))
        ∧ exec (.getCertificate 0) s = .next (s.finish (s.spdmOpaque 0x02))
        ∧ (∀ k : Fin 8, k ≠ 0 → exec (.getCertificate k) s = .next (s.finish (s.spdmSend 0x7F 0)))
        ∧ (∀ nonce, exec (.challenge nonce) s = .next (s.finish
            (s.spdmSend 0x03 (Config.spdmAnswer (256 * nonce.toNat + 3) s.sec.transcript))))
        ∧ (∀ k : BitVec 8, 1 ≤ k.toNat → k.toNat ≤ 6 → exec (.getMeasurements k) s = .next (s.finish
            (s.spdmSend 0x60 ((Config.measurement k.toNat (s.measured k.toNat)).setWidth 512))))
        ∧ (∀ (pub : BitVec 384) (t : State), t = { s with sec := { s.sec with
            sessions := Tbl.put s.sec.sessions s.sec.nextSid false, nextSid := s.sec.nextSid + 1 } } →
          exec (.keyExchange pub) s = .next (s.finish
            (t.spdmSend 0x64 (Config.spdmAnswer (256 * pub.toNat + 4) s.sec.transcript))))
        ∧ (∀ (sid : BitVec 32) (t : State),
          (Tbl.look s.sec.sessions sid.toNat = some false →
            t = { s with sec := { s.sec with sessions := Tbl.put s.sec.sessions sid.toNat true } } →
            exec (.finish sid) s = .next (s.finish (t.spdmOpaque 0x65)))
          ∧ (Tbl.look s.sec.sessions sid.toNat = some true →
            exec (.keyUpdate sid) s = .next (s.finish (s.spdmOpaque 0x69))
            ∧ (t = { s with sec := { s.sec with sessions := Tbl.del s.sec.sessions sid.toNat } } →
              exec (.endSession sid) s = .next (s.finish (t.spdmOpaque 0x6C)))))))
end

