-- ==== Sys2Proof/Laws/Tables.lean ====
section
/-! SUPPORT. Sparse tables and byte memories: read after write, what a write leaves alone, and the canonical form that every
memory operation keeps. -/

namespace Sys2Proof.Machine

/-! ## Reading after writing -/

theorem Tbl.get_put_self {α : Type} (d : α) (t : Tbl α) (k : Nat) (v : α) : Tbl.get d (t.put k v) k = v := by
  induction t with
  | nil => simp [Tbl.put, Tbl.get]
  | cons e t ih =>
    obtain ⟨i, w⟩ := e
    simp only [Tbl.put]
    split
    · simp [Tbl.get]
    · split
      · simp [Tbl.get]
      · rename_i h
        simp [Tbl.get, Ne.symm h, ih]

theorem Tbl.get_put_other {α : Type} (d : α) (t : Tbl α) {k j : Nat} (v : α) (h : j ≠ k) :
    Tbl.get d (t.put k v) j = Tbl.get d t j := by
  induction t with
  | nil => simp [Tbl.put, Tbl.get, h.symm]
  | cons e t ih =>
    obtain ⟨i, w⟩ := e
    simp only [Tbl.put]
    split
    · simp [Tbl.get, h.symm]
    · split
      · rename_i hk
        subst hk
        simp [Tbl.get, h.symm]
      · simp [Tbl.get, ih]

theorem Tbl.get_filter_key {α : Type} (d : α) (p : Nat → Bool) (t : Tbl α) (j : Nat) :
    Tbl.get d (t.filter fun e => p e.1) j = if p j then Tbl.get d t j else d := by
  induction t with
  | nil => simp [Tbl.get]
  | cons e t ih =>
    obtain ⟨i, w⟩ := e
    by_cases hij : i = j
    · subst hij
      by_cases hp : p i <;> simp_all [Tbl.get]
    · by_cases hp : p i <;> simp_all [Tbl.get]

theorem Tbl.get_del {α : Type} (d : α) (t : Tbl α) (k j : Nat) :
    Tbl.get d (t.del k) j = if j = k then d else Tbl.get d t j := by
  have := Tbl.get_filter_key d (fun x => x != k) t j
  by_cases h : j = k <;> simp_all [Tbl.del]

@[simp] theorem Tbl.get_set_self {α : Type} [DecidableEq α] (d : α) (t : Tbl α) (k : Nat) (v : α) :
    Tbl.get d (Tbl.set d t k v) k = v := by
  unfold Tbl.set
  split
  · rename_i h
    simp [Tbl.get_del, h]
  · exact Tbl.get_put_self d t k v

theorem Tbl.get_set_other {α : Type} [DecidableEq α] (d : α) (t : Tbl α) {k j : Nat} (v : α) (h : j ≠ k) :
    Tbl.get d (Tbl.set d t k v) j = Tbl.get d t j := by
  unfold Tbl.set
  split
  · simp [Tbl.get_del, h]
  · exact Tbl.get_put_other d t v h

/-- The entry of `j` where another default `e` was given to the write. -/
theorem Tbl.get_set_default {α : Type} [DecidableEq α] (d e : α) (t : Tbl α) {k j : Nat} (v : α) (h : j ≠ k) :
    Tbl.get d (Tbl.set e t k v) j = Tbl.get d t j := by
  unfold Tbl.set
  split
  · simp [Tbl.get_del, h]
  · exact Tbl.get_put_other d t v h

theorem Tbl.get_upd_self {α : Type} [DecidableEq α] (d : α) (t : Tbl α) (k : Nat) (f : α → α) :
    Tbl.get d (Tbl.upd d t k f) k = f (Tbl.get d t k) := by
  simp [Tbl.upd]

@[simp] theorem Tbl.look_put_self {α : Type} (t : Tbl α) (k : Nat) (v : α) : Tbl.look (t.put k v) k = some v := by
  induction t with
  | nil => simp [Tbl.put, Tbl.look]
  | cons e t ih =>
    obtain ⟨i, w⟩ := e
    simp only [Tbl.put]
    split
    · simp [Tbl.look]
    · split
      · simp [Tbl.look]
      · rename_i h
        simp [Tbl.look, Ne.symm h, ih]

theorem Tbl.look_put_other {α : Type} (t : Tbl α) {k j : Nat} (v : α) (h : j ≠ k) :
    Tbl.look (t.put k v) j = Tbl.look t j := by
  induction t with
  | nil => simp [Tbl.put, Tbl.look, h.symm]
  | cons e t ih =>
    obtain ⟨i, w⟩ := e
    simp only [Tbl.put]
    split
    · simp [Tbl.look, h.symm]
    · split
      · rename_i hk
        subst hk
        simp [Tbl.look, h.symm]
      · simp [Tbl.look, ih]

/-! ## The canonical form -/

/-- A weaker lower bound is met too. -/
theorem Tbl.above_weaken {α : Type} [DecidableEq α] (d : Nat → α) {i j : Nat} (t : Tbl α) (hij : i ≤ j)
    (h : Tbl.above d (some j) t = true) : Tbl.above d (some i) t = true := by
  cases t with
  | nil => rfl
  | cons e t =>
    simp only [Tbl.above, Bool.and_eq_true, decide_eq_true_eq] at h ⊢
    exact ⟨⟨by omega, h.1.2⟩, h.2⟩

theorem Tbl.above_none {α : Type} [DecidableEq α] (d : Nat → α) {j : Nat} (t : Tbl α)
    (h : Tbl.above d (some j) t = true) : Tbl.above d none t = true := by
  cases t with
  | nil => rfl
  | cons e t =>
    simp only [Tbl.above, Bool.and_eq_true, decide_eq_true_eq] at h ⊢
    exact ⟨⟨trivial, h.1.2⟩, h.2⟩

/-- Dropping entries keeps the form. -/
theorem Tbl.above_filter {α : Type} [DecidableEq α] (d : Nat → α) (p : Nat × α → Bool) (t : Tbl α) (b : Option Nat)
    (h : Tbl.above d b t = true) : Tbl.above d b (t.filter p) = true := by
  induction t generalizing b with
  | nil => simp [Tbl.above]
  | cons e t ih =>
    simp only [Tbl.above, Bool.and_eq_true, decide_eq_true_eq] at h
    by_cases hp : p e
    · simp only [List.filter_cons, hp, if_true, Tbl.above, Bool.and_eq_true, decide_eq_true_eq]
      exact ⟨h.1, ih _ h.2⟩
    · simp only [List.filter_cons, hp]
      refine ih b ?_
      cases b with
      | none => exact Tbl.above_none d t h.2
      | some j =>
        have : j < e.1 := by simpa using h.1.1
        exact Tbl.above_weaken d t (Nat.le_of_lt this) h.2

/-- What the canonical form says of a table with a first entry. -/
theorem Tbl.above_cons {α : Type} [DecidableEq α] (d : Nat → α) (b : Option Nat) (i : Nat) (v : α) (t : Tbl α) :
    Tbl.above d b ((i, v) :: t) = true ↔
      (∀ j, b = some j → j < i) ∧ v ≠ d i ∧ Tbl.above d (some i) t = true := by
  cases b <;> simp [Tbl.above, and_assoc]

theorem Tbl.above_put {α : Type} [DecidableEq α] (d : Nat → α) (t : Tbl α) (b : Option Nat) (k : Nat) (v : α)
    (hv : v ≠ d k) (hb : ∀ j, b = some j → j < k) (h : Tbl.above d b t = true) :
    Tbl.above d b (t.put k v) = true := by
  induction t generalizing b with
  | nil => exact (Tbl.above_cons d b k v []).2 ⟨hb, hv, rfl⟩
  | cons e t ih =>
    obtain ⟨i, w⟩ := e
    obtain ⟨h1, h2, h3⟩ := (Tbl.above_cons d b i w t).1 h
    simp only [Tbl.put]
    split
    · rename_i hk
      exact (Tbl.above_cons d b k v _).2 ⟨hb, hv, (Tbl.above_cons d _ i w t).2 ⟨by simpa using hk, h2, h3⟩⟩
    · split
      · rename_i hk
        subst hk
        exact (Tbl.above_cons d b _ v t).2 ⟨h1, hv, h3⟩
      · have hlt : i < k := by omega
        exact (Tbl.above_cons d b i w _).2 ⟨h1, h2, ih (some i) (by simpa using hlt) h3⟩

theorem Tbl.wf_put {α : Type} [DecidableEq α] (d : Nat → α) (t : Tbl α) (k : Nat) (v : α) (hv : v ≠ d k)
    (h : Tbl.wf d t = true) : Tbl.wf d (t.put k v) = true :=
  Tbl.above_put d t none k v hv (by simp) h

theorem Tbl.wf_filter {α : Type} [DecidableEq α] (d : Nat → α) (p : Nat × α → Bool) (t : Tbl α)
    (h : Tbl.wf d t = true) : Tbl.wf d (t.filter p) = true :=
  Tbl.above_filter d p t none h

theorem Tbl.wf_set {α : Type} [DecidableEq α] (d : Nat → α) (t : Tbl α) (k : Nat) (v : α) (h : Tbl.wf d t = true) :
    Tbl.wf d (Tbl.set (d k) t k v) = true := by
  unfold Tbl.set
  split
  · exact Tbl.wf_filter d _ t h
  · rename_i hv
    exact Tbl.wf_put d t k v hv h

/-! ## Byte memories -/

theorem Memory.byte_put_self (m : Memory) (a : Nat) (x : Byte) : (m.put a x).byte a = x := Tbl.get_set_self 0 m a x

theorem Memory.byte_put_other (m : Memory) {a b : Nat} (x : Byte) (h : b ≠ a) : (m.put a x).byte b = m.byte b :=
  Tbl.get_set_other 0 m x h

theorem Memory.put_keeps_wf (m : Memory) (a : Nat) (x : Byte) (h : m.wf = true) : (m.put a x).wf = true :=
  Tbl.wf_set (fun _ => (0 : Byte)) m a x h

theorem Memory.write_keeps_wf (m : Memory) (a : Nat) (l : List Byte) (h : m.wf = true) : (m.write a l).wf = true := by
  induction l generalizing m a with
  | nil => exact h
  | cons x l ih => exact ih _ _ (m.put_keeps_wf a x h)

theorem Memory.zero_keeps_wf (m : Memory) (a n : Nat) (h : m.wf = true) : (m.zero a n).wf = true :=
  Tbl.wf_filter _ _ m h

theorem Memory.putNum_keeps_wf (m : Memory) (a n x : Nat) (h : m.wf = true) : (m.putNum a n x).wf = true :=
  m.write_keeps_wf a (leBytes n x) h

theorem Memory.byte_write_before (m : Memory) {a b : Nat} (l : List Byte) (h : b < a) : (m.write a l).byte b = m.byte b := by
  induction l generalizing m a with
  | nil => rfl
  | cons x l ih =>
    have hb : b ≠ a := by omega
    exact (ih (m.put a x) (a := a + 1) (by omega)).trans (m.byte_put_other x hb)

@[simp] theorem Memory.length_read (m : Memory) (a n : Nat) : (m.read a n).length = n := by
  induction n generalizing a with
  | zero => rfl
  | succ n ih => simp [Memory.read, ih]

@[simp] theorem length_leBytes (n x : Nat) : (leBytes n x).length = n := by
  induction n generalizing x with
  | zero => rfl
  | succ n ih => simp [leBytes, ih]

end Sys2Proof.Machine
end

