-- ==== Sys2Proof/Laws/State.lean ====
section
/-! SUPPORT. Every field of State under every update of one field: true by rfl, so that no proof unfolds a record update. The
second part says what each unit reads as after it was stored. -/

namespace Sys2Proof.Machine

/-! ## setRg -/

@[simp] theorem State.setRg_pending (s : State) (a : Nat) (v : Word) : (s.setRg a v).pending = s.pending := rfl
@[simp] theorem State.setRg_latch (s : State) (a : Nat) (v : Word) : (s.setRg a v).latch = s.latch := rfl
@[simp] theorem State.setRg_staged (s : State) (a : Nat) (v : Word) : (s.setRg a v).staged = s.staged := rfl
@[simp] theorem State.setRg_rdata (s : State) (a : Nat) (v : Word) : (s.setRg a v).rdata = s.rdata := rfl
@[simp] theorem State.setRg_mdata (s : State) (a : Nat) (v : Word) : (s.setRg a v).mdata = s.mdata := rfl
@[simp] theorem State.setRg_map (s : State) (a : Nat) (v : Word) : (s.setRg a v).map = s.map := rfl
@[simp] theorem State.setRg_hbm (s : State) (a : Nat) (v : Word) : (s.setRg a v).hbm = s.hbm := rfl
@[simp] theorem State.setRg_host (s : State) (a : Nat) (v : Word) : (s.setRg a v).host = s.host := rfl
@[simp] theorem State.setRg_store (s : State) (a : Nat) (v : Word) : (s.setRg a v).store = s.store := rfl
@[simp] theorem State.setRg_dspMem (s : State) (a : Nat) (v : Word) : (s.setRg a v).dspMem = s.dspMem := rfl
@[simp] theorem State.setRg_dspEcc (s : State) (a : Nat) (v : Word) : (s.setRg a v).dspEcc = s.dspEcc := rfl
@[simp] theorem State.setRg_poison (s : State) (a : Nat) (v : Word) : (s.setRg a v).poison = s.poison := rfl
@[simp] theorem State.setRg_csPoison (s : State) (a : Nat) (v : Word) : (s.setRg a v).csPoison = s.csPoison := rfl
@[simp] theorem State.setRg_ecc (s : State) (a : Nat) (v : Word) : (s.setRg a v).ecc = s.ecc := rfl
@[simp] theorem State.setRg_csEcc (s : State) (a : Nat) (v : Word) : (s.setRg a v).csEcc = s.csEcc := rfl
@[simp] theorem State.setRg_wb (s : State) (a : Nat) (v : Word) : (s.setRg a v).wb = s.wb := rfl
@[simp] theorem State.setRg_seqs (s : State) (a : Nat) (v : Word) : (s.setRg a v).seqs = s.seqs := rfl
@[simp] theorem State.setRg_cls (s : State) (a : Nat) (v : Word) : (s.setRg a v).cls = s.cls := rfl
@[simp] theorem State.setRg_sh (s : State) (a : Nat) (v : Word) : (s.setRg a v).sh = s.sh := rfl
@[simp] theorem State.setRg_work (s : State) (a : Nat) (v : Word) : (s.setRg a v).work = s.work := rfl
@[simp] theorem State.setRg_ro (s : State) (a : Nat) (v : Word) : (s.setRg a v).ro = s.ro := rfl
@[simp] theorem State.setRg_dsp (s : State) (a : Nat) (v : Word) : (s.setRg a v).dsp = s.dsp := rfl
@[simp] theorem State.setRg_acc (s : State) (a : Nat) (v : Word) : (s.setRg a v).acc = s.acc := rfl
@[simp] theorem State.setRg_eth (s : State) (a : Nat) (v : Word) : (s.setRg a v).eth = s.eth := rfl
@[simp] theorem State.setRg_time (s : State) (a : Nat) (v : Word) : (s.setRg a v).time = s.time := rfl
@[simp] theorem State.setRg_hc (s : State) (a : Nat) (v : Word) : (s.setRg a v).hc = s.hc := rfl
@[simp] theorem State.setRg_wipes (s : State) (a : Nat) (v : Word) : (s.setRg a v).wipes = s.wipes := rfl
@[simp] theorem State.setRg_wipeAt (s : State) (a : Nat) (v : Word) : (s.setRg a v).wipeAt = s.wipeAt := rfl
@[simp] theorem State.setRg_links (s : State) (a : Nat) (v : Word) : (s.setRg a v).links = s.links := rfl
@[simp] theorem State.setRg_fab (s : State) (a : Nat) (v : Word) : (s.setRg a v).fab = s.fab := rfl
@[simp] theorem State.setRg_mods (s : State) (a : Nat) (v : Word) : (s.setRg a v).mods = s.mods := rfl
@[simp] theorem State.setRg_und (s : State) (a : Nat) (v : Word) : (s.setRg a v).und = s.und := rfl
@[simp] theorem State.setRg_hst (s : State) (a : Nat) (v : Word) : (s.setRg a v).hst = s.hst := rfl
@[simp] theorem State.setRg_flt (s : State) (a : Nat) (v : Word) : (s.setRg a v).flt = s.flt := rfl
@[simp] theorem State.setRg_life (s : State) (a : Nat) (v : Word) : (s.setRg a v).life = s.life := rfl
@[simp] theorem State.setRg_pwr (s : State) (a : Nat) (v : Word) : (s.setRg a v).pwr = s.pwr := rfl
@[simp] theorem State.setRg_rst (s : State) (a : Nat) (v : Word) : (s.setRg a v).rst = s.rst := rfl
@[simp] theorem State.setRg_boot (s : State) (a : Nat) (v : Word) : (s.setRg a v).boot = s.boot := rfl
@[simp] theorem State.setRg_sec (s : State) (a : Nat) (v : Word) : (s.setRg a v).sec = s.sec := rfl
@[simp] theorem State.setRg_out (s : State) (a : Nat) (v : Word) : (s.setRg a v).out = s.out := rfl
@[simp] theorem State.setRg_free (s : State) (a : Nat) (v : Word) : (s.setRg a v).free = s.free := rfl

/-! ## setPr -/

@[simp] theorem State.setPr_pending (s : State) (k : PageKind) (i off : Nat) (v : Word) : (s.setPr k i off v).pending = s.pending := rfl
@[simp] theorem State.setPr_latch (s : State) (k : PageKind) (i off : Nat) (v : Word) : (s.setPr k i off v).latch = s.latch := rfl
@[simp] theorem State.setPr_staged (s : State) (k : PageKind) (i off : Nat) (v : Word) : (s.setPr k i off v).staged = s.staged := rfl
@[simp] theorem State.setPr_rdata (s : State) (k : PageKind) (i off : Nat) (v : Word) : (s.setPr k i off v).rdata = s.rdata := rfl
@[simp] theorem State.setPr_mdata (s : State) (k : PageKind) (i off : Nat) (v : Word) : (s.setPr k i off v).mdata = s.mdata := rfl
@[simp] theorem State.setPr_map (s : State) (k : PageKind) (i off : Nat) (v : Word) : (s.setPr k i off v).map = s.map := rfl
@[simp] theorem State.setPr_hbm (s : State) (k : PageKind) (i off : Nat) (v : Word) : (s.setPr k i off v).hbm = s.hbm := rfl
@[simp] theorem State.setPr_host (s : State) (k : PageKind) (i off : Nat) (v : Word) : (s.setPr k i off v).host = s.host := rfl
@[simp] theorem State.setPr_store (s : State) (k : PageKind) (i off : Nat) (v : Word) : (s.setPr k i off v).store = s.store := rfl
@[simp] theorem State.setPr_dspMem (s : State) (k : PageKind) (i off : Nat) (v : Word) : (s.setPr k i off v).dspMem = s.dspMem := rfl
@[simp] theorem State.setPr_dspEcc (s : State) (k : PageKind) (i off : Nat) (v : Word) : (s.setPr k i off v).dspEcc = s.dspEcc := rfl
@[simp] theorem State.setPr_poison (s : State) (k : PageKind) (i off : Nat) (v : Word) : (s.setPr k i off v).poison = s.poison := rfl
@[simp] theorem State.setPr_csPoison (s : State) (k : PageKind) (i off : Nat) (v : Word) : (s.setPr k i off v).csPoison = s.csPoison := rfl
@[simp] theorem State.setPr_ecc (s : State) (k : PageKind) (i off : Nat) (v : Word) : (s.setPr k i off v).ecc = s.ecc := rfl
@[simp] theorem State.setPr_csEcc (s : State) (k : PageKind) (i off : Nat) (v : Word) : (s.setPr k i off v).csEcc = s.csEcc := rfl
@[simp] theorem State.setPr_wb (s : State) (k : PageKind) (i off : Nat) (v : Word) : (s.setPr k i off v).wb = s.wb := rfl
@[simp] theorem State.setPr_seqs (s : State) (k : PageKind) (i off : Nat) (v : Word) : (s.setPr k i off v).seqs = s.seqs := rfl
@[simp] theorem State.setPr_cls (s : State) (k : PageKind) (i off : Nat) (v : Word) : (s.setPr k i off v).cls = s.cls := rfl
@[simp] theorem State.setPr_sh (s : State) (k : PageKind) (i off : Nat) (v : Word) : (s.setPr k i off v).sh = s.sh := rfl
@[simp] theorem State.setPr_work (s : State) (k : PageKind) (i off : Nat) (v : Word) : (s.setPr k i off v).work = s.work := rfl
@[simp] theorem State.setPr_ro (s : State) (k : PageKind) (i off : Nat) (v : Word) : (s.setPr k i off v).ro = s.ro := rfl
@[simp] theorem State.setPr_dsp (s : State) (k : PageKind) (i off : Nat) (v : Word) : (s.setPr k i off v).dsp = s.dsp := rfl
@[simp] theorem State.setPr_acc (s : State) (k : PageKind) (i off : Nat) (v : Word) : (s.setPr k i off v).acc = s.acc := rfl
@[simp] theorem State.setPr_eth (s : State) (k : PageKind) (i off : Nat) (v : Word) : (s.setPr k i off v).eth = s.eth := rfl
@[simp] theorem State.setPr_time (s : State) (k : PageKind) (i off : Nat) (v : Word) : (s.setPr k i off v).time = s.time := rfl
@[simp] theorem State.setPr_hc (s : State) (k : PageKind) (i off : Nat) (v : Word) : (s.setPr k i off v).hc = s.hc := rfl
@[simp] theorem State.setPr_wipes (s : State) (k : PageKind) (i off : Nat) (v : Word) : (s.setPr k i off v).wipes = s.wipes := rfl
@[simp] theorem State.setPr_wipeAt (s : State) (k : PageKind) (i off : Nat) (v : Word) : (s.setPr k i off v).wipeAt = s.wipeAt := rfl
@[simp] theorem State.setPr_links (s : State) (k : PageKind) (i off : Nat) (v : Word) : (s.setPr k i off v).links = s.links := rfl
@[simp] theorem State.setPr_fab (s : State) (k : PageKind) (i off : Nat) (v : Word) : (s.setPr k i off v).fab = s.fab := rfl
@[simp] theorem State.setPr_mods (s : State) (k : PageKind) (i off : Nat) (v : Word) : (s.setPr k i off v).mods = s.mods := rfl
@[simp] theorem State.setPr_und (s : State) (k : PageKind) (i off : Nat) (v : Word) : (s.setPr k i off v).und = s.und := rfl
@[simp] theorem State.setPr_hst (s : State) (k : PageKind) (i off : Nat) (v : Word) : (s.setPr k i off v).hst = s.hst := rfl
@[simp] theorem State.setPr_flt (s : State) (k : PageKind) (i off : Nat) (v : Word) : (s.setPr k i off v).flt = s.flt := rfl
@[simp] theorem State.setPr_life (s : State) (k : PageKind) (i off : Nat) (v : Word) : (s.setPr k i off v).life = s.life := rfl
@[simp] theorem State.setPr_pwr (s : State) (k : PageKind) (i off : Nat) (v : Word) : (s.setPr k i off v).pwr = s.pwr := rfl
@[simp] theorem State.setPr_rst (s : State) (k : PageKind) (i off : Nat) (v : Word) : (s.setPr k i off v).rst = s.rst := rfl
@[simp] theorem State.setPr_boot (s : State) (k : PageKind) (i off : Nat) (v : Word) : (s.setPr k i off v).boot = s.boot := rfl
@[simp] theorem State.setPr_sec (s : State) (k : PageKind) (i off : Nat) (v : Word) : (s.setPr k i off v).sec = s.sec := rfl
@[simp] theorem State.setPr_out (s : State) (k : PageKind) (i off : Nat) (v : Word) : (s.setPr k i off v).out = s.out := rfl
@[simp] theorem State.setPr_free (s : State) (k : PageKind) (i off : Nat) (v : Word) : (s.setPr k i off v).free = s.free := rfl

/-! ## bump -/

@[simp] theorem State.bump_pending (s : State) (k : PageKind) (i off n : Nat) : (s.bump k i off n).pending = s.pending := rfl
@[simp] theorem State.bump_latch (s : State) (k : PageKind) (i off n : Nat) : (s.bump k i off n).latch = s.latch := rfl
@[simp] theorem State.bump_staged (s : State) (k : PageKind) (i off n : Nat) : (s.bump k i off n).staged = s.staged := rfl
@[simp] theorem State.bump_rdata (s : State) (k : PageKind) (i off n : Nat) : (s.bump k i off n).rdata = s.rdata := rfl
@[simp] theorem State.bump_mdata (s : State) (k : PageKind) (i off n : Nat) : (s.bump k i off n).mdata = s.mdata := rfl
@[simp] theorem State.bump_map (s : State) (k : PageKind) (i off n : Nat) : (s.bump k i off n).map = s.map := rfl
@[simp] theorem State.bump_hbm (s : State) (k : PageKind) (i off n : Nat) : (s.bump k i off n).hbm = s.hbm := rfl
@[simp] theorem State.bump_host (s : State) (k : PageKind) (i off n : Nat) : (s.bump k i off n).host = s.host := rfl
@[simp] theorem State.bump_store (s : State) (k : PageKind) (i off n : Nat) : (s.bump k i off n).store = s.store := rfl
@[simp] theorem State.bump_dspMem (s : State) (k : PageKind) (i off n : Nat) : (s.bump k i off n).dspMem = s.dspMem := rfl
@[simp] theorem State.bump_dspEcc (s : State) (k : PageKind) (i off n : Nat) : (s.bump k i off n).dspEcc = s.dspEcc := rfl
@[simp] theorem State.bump_poison (s : State) (k : PageKind) (i off n : Nat) : (s.bump k i off n).poison = s.poison := rfl
@[simp] theorem State.bump_csPoison (s : State) (k : PageKind) (i off n : Nat) : (s.bump k i off n).csPoison = s.csPoison := rfl
@[simp] theorem State.bump_ecc (s : State) (k : PageKind) (i off n : Nat) : (s.bump k i off n).ecc = s.ecc := rfl
@[simp] theorem State.bump_csEcc (s : State) (k : PageKind) (i off n : Nat) : (s.bump k i off n).csEcc = s.csEcc := rfl
@[simp] theorem State.bump_wb (s : State) (k : PageKind) (i off n : Nat) : (s.bump k i off n).wb = s.wb := rfl
@[simp] theorem State.bump_seqs (s : State) (k : PageKind) (i off n : Nat) : (s.bump k i off n).seqs = s.seqs := rfl
@[simp] theorem State.bump_cls (s : State) (k : PageKind) (i off n : Nat) : (s.bump k i off n).cls = s.cls := rfl
@[simp] theorem State.bump_sh (s : State) (k : PageKind) (i off n : Nat) : (s.bump k i off n).sh = s.sh := rfl
@[simp] theorem State.bump_work (s : State) (k : PageKind) (i off n : Nat) : (s.bump k i off n).work = s.work := rfl
@[simp] theorem State.bump_ro (s : State) (k : PageKind) (i off n : Nat) : (s.bump k i off n).ro = s.ro := rfl
@[simp] theorem State.bump_dsp (s : State) (k : PageKind) (i off n : Nat) : (s.bump k i off n).dsp = s.dsp := rfl
@[simp] theorem State.bump_acc (s : State) (k : PageKind) (i off n : Nat) : (s.bump k i off n).acc = s.acc := rfl
@[simp] theorem State.bump_eth (s : State) (k : PageKind) (i off n : Nat) : (s.bump k i off n).eth = s.eth := rfl
@[simp] theorem State.bump_time (s : State) (k : PageKind) (i off n : Nat) : (s.bump k i off n).time = s.time := rfl
@[simp] theorem State.bump_hc (s : State) (k : PageKind) (i off n : Nat) : (s.bump k i off n).hc = s.hc := rfl
@[simp] theorem State.bump_wipes (s : State) (k : PageKind) (i off n : Nat) : (s.bump k i off n).wipes = s.wipes := rfl
@[simp] theorem State.bump_wipeAt (s : State) (k : PageKind) (i off n : Nat) : (s.bump k i off n).wipeAt = s.wipeAt := rfl
@[simp] theorem State.bump_links (s : State) (k : PageKind) (i off n : Nat) : (s.bump k i off n).links = s.links := rfl
@[simp] theorem State.bump_fab (s : State) (k : PageKind) (i off n : Nat) : (s.bump k i off n).fab = s.fab := rfl
@[simp] theorem State.bump_mods (s : State) (k : PageKind) (i off n : Nat) : (s.bump k i off n).mods = s.mods := rfl
@[simp] theorem State.bump_und (s : State) (k : PageKind) (i off n : Nat) : (s.bump k i off n).und = s.und := rfl
@[simp] theorem State.bump_hst (s : State) (k : PageKind) (i off n : Nat) : (s.bump k i off n).hst = s.hst := rfl
@[simp] theorem State.bump_flt (s : State) (k : PageKind) (i off n : Nat) : (s.bump k i off n).flt = s.flt := rfl
@[simp] theorem State.bump_life (s : State) (k : PageKind) (i off n : Nat) : (s.bump k i off n).life = s.life := rfl
@[simp] theorem State.bump_pwr (s : State) (k : PageKind) (i off n : Nat) : (s.bump k i off n).pwr = s.pwr := rfl
@[simp] theorem State.bump_rst (s : State) (k : PageKind) (i off n : Nat) : (s.bump k i off n).rst = s.rst := rfl
@[simp] theorem State.bump_boot (s : State) (k : PageKind) (i off n : Nat) : (s.bump k i off n).boot = s.boot := rfl
@[simp] theorem State.bump_sec (s : State) (k : PageKind) (i off n : Nat) : (s.bump k i off n).sec = s.sec := rfl
@[simp] theorem State.bump_out (s : State) (k : PageKind) (i off n : Nat) : (s.bump k i off n).out = s.out := rfl
@[simp] theorem State.bump_free (s : State) (k : PageKind) (i off n : Nat) : (s.bump k i off n).free = s.free := rfl

/-! ## setPair -/

@[simp] theorem State.setPair_pending (s : State) (a x : Nat) : (s.setPair a x).pending = s.pending := rfl
@[simp] theorem State.setPair_latch (s : State) (a x : Nat) : (s.setPair a x).latch = s.latch := rfl
@[simp] theorem State.setPair_staged (s : State) (a x : Nat) : (s.setPair a x).staged = s.staged := rfl
@[simp] theorem State.setPair_rdata (s : State) (a x : Nat) : (s.setPair a x).rdata = s.rdata := rfl
@[simp] theorem State.setPair_mdata (s : State) (a x : Nat) : (s.setPair a x).mdata = s.mdata := rfl
@[simp] theorem State.setPair_map (s : State) (a x : Nat) : (s.setPair a x).map = s.map := rfl
@[simp] theorem State.setPair_hbm (s : State) (a x : Nat) : (s.setPair a x).hbm = s.hbm := rfl
@[simp] theorem State.setPair_host (s : State) (a x : Nat) : (s.setPair a x).host = s.host := rfl
@[simp] theorem State.setPair_store (s : State) (a x : Nat) : (s.setPair a x).store = s.store := rfl
@[simp] theorem State.setPair_dspMem (s : State) (a x : Nat) : (s.setPair a x).dspMem = s.dspMem := rfl
@[simp] theorem State.setPair_dspEcc (s : State) (a x : Nat) : (s.setPair a x).dspEcc = s.dspEcc := rfl
@[simp] theorem State.setPair_poison (s : State) (a x : Nat) : (s.setPair a x).poison = s.poison := rfl
@[simp] theorem State.setPair_csPoison (s : State) (a x : Nat) : (s.setPair a x).csPoison = s.csPoison := rfl
@[simp] theorem State.setPair_ecc (s : State) (a x : Nat) : (s.setPair a x).ecc = s.ecc := rfl
@[simp] theorem State.setPair_csEcc (s : State) (a x : Nat) : (s.setPair a x).csEcc = s.csEcc := rfl
@[simp] theorem State.setPair_wb (s : State) (a x : Nat) : (s.setPair a x).wb = s.wb := rfl
@[simp] theorem State.setPair_seqs (s : State) (a x : Nat) : (s.setPair a x).seqs = s.seqs := rfl
@[simp] theorem State.setPair_cls (s : State) (a x : Nat) : (s.setPair a x).cls = s.cls := rfl
@[simp] theorem State.setPair_sh (s : State) (a x : Nat) : (s.setPair a x).sh = s.sh := rfl
@[simp] theorem State.setPair_work (s : State) (a x : Nat) : (s.setPair a x).work = s.work := rfl
@[simp] theorem State.setPair_ro (s : State) (a x : Nat) : (s.setPair a x).ro = s.ro := rfl
@[simp] theorem State.setPair_dsp (s : State) (a x : Nat) : (s.setPair a x).dsp = s.dsp := rfl
@[simp] theorem State.setPair_acc (s : State) (a x : Nat) : (s.setPair a x).acc = s.acc := rfl
@[simp] theorem State.setPair_eth (s : State) (a x : Nat) : (s.setPair a x).eth = s.eth := rfl
@[simp] theorem State.setPair_time (s : State) (a x : Nat) : (s.setPair a x).time = s.time := rfl
@[simp] theorem State.setPair_hc (s : State) (a x : Nat) : (s.setPair a x).hc = s.hc := rfl
@[simp] theorem State.setPair_wipes (s : State) (a x : Nat) : (s.setPair a x).wipes = s.wipes := rfl
@[simp] theorem State.setPair_wipeAt (s : State) (a x : Nat) : (s.setPair a x).wipeAt = s.wipeAt := rfl
@[simp] theorem State.setPair_links (s : State) (a x : Nat) : (s.setPair a x).links = s.links := rfl
@[simp] theorem State.setPair_fab (s : State) (a x : Nat) : (s.setPair a x).fab = s.fab := rfl
@[simp] theorem State.setPair_mods (s : State) (a x : Nat) : (s.setPair a x).mods = s.mods := rfl
@[simp] theorem State.setPair_und (s : State) (a x : Nat) : (s.setPair a x).und = s.und := rfl
@[simp] theorem State.setPair_hst (s : State) (a x : Nat) : (s.setPair a x).hst = s.hst := rfl
@[simp] theorem State.setPair_flt (s : State) (a x : Nat) : (s.setPair a x).flt = s.flt := rfl
@[simp] theorem State.setPair_life (s : State) (a x : Nat) : (s.setPair a x).life = s.life := rfl
@[simp] theorem State.setPair_pwr (s : State) (a x : Nat) : (s.setPair a x).pwr = s.pwr := rfl
@[simp] theorem State.setPair_rst (s : State) (a x : Nat) : (s.setPair a x).rst = s.rst := rfl
@[simp] theorem State.setPair_boot (s : State) (a x : Nat) : (s.setPair a x).boot = s.boot := rfl
@[simp] theorem State.setPair_sec (s : State) (a x : Nat) : (s.setPair a x).sec = s.sec := rfl
@[simp] theorem State.setPair_out (s : State) (a x : Nat) : (s.setPair a x).out = s.out := rfl
@[simp] theorem State.setPair_free (s : State) (a x : Nat) : (s.setPair a x).free = s.free := rfl

/-! ## bump64 -/

@[simp] theorem State.bump64_pending (s : State) (k : PageKind) (i off n : Nat) : (s.bump64 k i off n).pending = s.pending := rfl
@[simp] theorem State.bump64_latch (s : State) (k : PageKind) (i off n : Nat) : (s.bump64 k i off n).latch = s.latch := rfl
@[simp] theorem State.bump64_staged (s : State) (k : PageKind) (i off n : Nat) : (s.bump64 k i off n).staged = s.staged := rfl
@[simp] theorem State.bump64_rdata (s : State) (k : PageKind) (i off n : Nat) : (s.bump64 k i off n).rdata = s.rdata := rfl
@[simp] theorem State.bump64_mdata (s : State) (k : PageKind) (i off n : Nat) : (s.bump64 k i off n).mdata = s.mdata := rfl
@[simp] theorem State.bump64_map (s : State) (k : PageKind) (i off n : Nat) : (s.bump64 k i off n).map = s.map := rfl
@[simp] theorem State.bump64_hbm (s : State) (k : PageKind) (i off n : Nat) : (s.bump64 k i off n).hbm = s.hbm := rfl
@[simp] theorem State.bump64_host (s : State) (k : PageKind) (i off n : Nat) : (s.bump64 k i off n).host = s.host := rfl
@[simp] theorem State.bump64_store (s : State) (k : PageKind) (i off n : Nat) : (s.bump64 k i off n).store = s.store := rfl
@[simp] theorem State.bump64_dspMem (s : State) (k : PageKind) (i off n : Nat) : (s.bump64 k i off n).dspMem = s.dspMem := rfl
@[simp] theorem State.bump64_dspEcc (s : State) (k : PageKind) (i off n : Nat) : (s.bump64 k i off n).dspEcc = s.dspEcc := rfl
@[simp] theorem State.bump64_poison (s : State) (k : PageKind) (i off n : Nat) : (s.bump64 k i off n).poison = s.poison := rfl
@[simp] theorem State.bump64_csPoison (s : State) (k : PageKind) (i off n : Nat) : (s.bump64 k i off n).csPoison = s.csPoison := rfl
@[simp] theorem State.bump64_ecc (s : State) (k : PageKind) (i off n : Nat) : (s.bump64 k i off n).ecc = s.ecc := rfl
@[simp] theorem State.bump64_csEcc (s : State) (k : PageKind) (i off n : Nat) : (s.bump64 k i off n).csEcc = s.csEcc := rfl
@[simp] theorem State.bump64_wb (s : State) (k : PageKind) (i off n : Nat) : (s.bump64 k i off n).wb = s.wb := rfl
@[simp] theorem State.bump64_seqs (s : State) (k : PageKind) (i off n : Nat) : (s.bump64 k i off n).seqs = s.seqs := rfl
@[simp] theorem State.bump64_cls (s : State) (k : PageKind) (i off n : Nat) : (s.bump64 k i off n).cls = s.cls := rfl
@[simp] theorem State.bump64_sh (s : State) (k : PageKind) (i off n : Nat) : (s.bump64 k i off n).sh = s.sh := rfl
@[simp] theorem State.bump64_work (s : State) (k : PageKind) (i off n : Nat) : (s.bump64 k i off n).work = s.work := rfl
@[simp] theorem State.bump64_ro (s : State) (k : PageKind) (i off n : Nat) : (s.bump64 k i off n).ro = s.ro := rfl
@[simp] theorem State.bump64_dsp (s : State) (k : PageKind) (i off n : Nat) : (s.bump64 k i off n).dsp = s.dsp := rfl
@[simp] theorem State.bump64_acc (s : State) (k : PageKind) (i off n : Nat) : (s.bump64 k i off n).acc = s.acc := rfl
@[simp] theorem State.bump64_eth (s : State) (k : PageKind) (i off n : Nat) : (s.bump64 k i off n).eth = s.eth := rfl
@[simp] theorem State.bump64_time (s : State) (k : PageKind) (i off n : Nat) : (s.bump64 k i off n).time = s.time := rfl
@[simp] theorem State.bump64_hc (s : State) (k : PageKind) (i off n : Nat) : (s.bump64 k i off n).hc = s.hc := rfl
@[simp] theorem State.bump64_wipes (s : State) (k : PageKind) (i off n : Nat) : (s.bump64 k i off n).wipes = s.wipes := rfl
@[simp] theorem State.bump64_wipeAt (s : State) (k : PageKind) (i off n : Nat) : (s.bump64 k i off n).wipeAt = s.wipeAt := rfl
@[simp] theorem State.bump64_links (s : State) (k : PageKind) (i off n : Nat) : (s.bump64 k i off n).links = s.links := rfl
@[simp] theorem State.bump64_fab (s : State) (k : PageKind) (i off n : Nat) : (s.bump64 k i off n).fab = s.fab := rfl
@[simp] theorem State.bump64_mods (s : State) (k : PageKind) (i off n : Nat) : (s.bump64 k i off n).mods = s.mods := rfl
@[simp] theorem State.bump64_und (s : State) (k : PageKind) (i off n : Nat) : (s.bump64 k i off n).und = s.und := rfl
@[simp] theorem State.bump64_hst (s : State) (k : PageKind) (i off n : Nat) : (s.bump64 k i off n).hst = s.hst := rfl
@[simp] theorem State.bump64_flt (s : State) (k : PageKind) (i off n : Nat) : (s.bump64 k i off n).flt = s.flt := rfl
@[simp] theorem State.bump64_life (s : State) (k : PageKind) (i off n : Nat) : (s.bump64 k i off n).life = s.life := rfl
@[simp] theorem State.bump64_pwr (s : State) (k : PageKind) (i off n : Nat) : (s.bump64 k i off n).pwr = s.pwr := rfl
@[simp] theorem State.bump64_rst (s : State) (k : PageKind) (i off n : Nat) : (s.bump64 k i off n).rst = s.rst := rfl
@[simp] theorem State.bump64_boot (s : State) (k : PageKind) (i off n : Nat) : (s.bump64 k i off n).boot = s.boot := rfl
@[simp] theorem State.bump64_sec (s : State) (k : PageKind) (i off n : Nat) : (s.bump64 k i off n).sec = s.sec := rfl
@[simp] theorem State.bump64_out (s : State) (k : PageKind) (i off n : Nat) : (s.bump64 k i off n).out = s.out := rfl
@[simp] theorem State.bump64_free (s : State) (k : PageKind) (i off n : Nat) : (s.bump64 k i off n).free = s.free := rfl

/-! ## answer -/

@[simp] theorem State.answer_pending (s : State) (v : Word) : (s.answer v).pending = s.pending := rfl
@[simp] theorem State.answer_regs (s : State) (v : Word) : (s.answer v).regs = s.regs := rfl
@[simp] theorem State.answer_latch (s : State) (v : Word) : (s.answer v).latch = s.latch := rfl
@[simp] theorem State.answer_staged (s : State) (v : Word) : (s.answer v).staged = s.staged := rfl
@[simp] theorem State.answer_mdata (s : State) (v : Word) : (s.answer v).mdata = s.mdata := rfl
@[simp] theorem State.answer_map (s : State) (v : Word) : (s.answer v).map = s.map := rfl
@[simp] theorem State.answer_hbm (s : State) (v : Word) : (s.answer v).hbm = s.hbm := rfl
@[simp] theorem State.answer_host (s : State) (v : Word) : (s.answer v).host = s.host := rfl
@[simp] theorem State.answer_store (s : State) (v : Word) : (s.answer v).store = s.store := rfl
@[simp] theorem State.answer_dspMem (s : State) (v : Word) : (s.answer v).dspMem = s.dspMem := rfl
@[simp] theorem State.answer_dspEcc (s : State) (v : Word) : (s.answer v).dspEcc = s.dspEcc := rfl
@[simp] theorem State.answer_poison (s : State) (v : Word) : (s.answer v).poison = s.poison := rfl
@[simp] theorem State.answer_csPoison (s : State) (v : Word) : (s.answer v).csPoison = s.csPoison := rfl
@[simp] theorem State.answer_ecc (s : State) (v : Word) : (s.answer v).ecc = s.ecc := rfl
@[simp] theorem State.answer_csEcc (s : State) (v : Word) : (s.answer v).csEcc = s.csEcc := rfl
@[simp] theorem State.answer_wb (s : State) (v : Word) : (s.answer v).wb = s.wb := rfl
@[simp] theorem State.answer_seqs (s : State) (v : Word) : (s.answer v).seqs = s.seqs := rfl
@[simp] theorem State.answer_cls (s : State) (v : Word) : (s.answer v).cls = s.cls := rfl
@[simp] theorem State.answer_sh (s : State) (v : Word) : (s.answer v).sh = s.sh := rfl
@[simp] theorem State.answer_work (s : State) (v : Word) : (s.answer v).work = s.work := rfl
@[simp] theorem State.answer_ro (s : State) (v : Word) : (s.answer v).ro = s.ro := rfl
@[simp] theorem State.answer_dsp (s : State) (v : Word) : (s.answer v).dsp = s.dsp := rfl
@[simp] theorem State.answer_acc (s : State) (v : Word) : (s.answer v).acc = s.acc := rfl
@[simp] theorem State.answer_eth (s : State) (v : Word) : (s.answer v).eth = s.eth := rfl
@[simp] theorem State.answer_time (s : State) (v : Word) : (s.answer v).time = s.time := rfl
@[simp] theorem State.answer_hc (s : State) (v : Word) : (s.answer v).hc = s.hc := rfl
@[simp] theorem State.answer_wipes (s : State) (v : Word) : (s.answer v).wipes = s.wipes := rfl
@[simp] theorem State.answer_wipeAt (s : State) (v : Word) : (s.answer v).wipeAt = s.wipeAt := rfl
@[simp] theorem State.answer_links (s : State) (v : Word) : (s.answer v).links = s.links := rfl
@[simp] theorem State.answer_fab (s : State) (v : Word) : (s.answer v).fab = s.fab := rfl
@[simp] theorem State.answer_mods (s : State) (v : Word) : (s.answer v).mods = s.mods := rfl
@[simp] theorem State.answer_und (s : State) (v : Word) : (s.answer v).und = s.und := rfl
@[simp] theorem State.answer_hst (s : State) (v : Word) : (s.answer v).hst = s.hst := rfl
@[simp] theorem State.answer_flt (s : State) (v : Word) : (s.answer v).flt = s.flt := rfl
@[simp] theorem State.answer_life (s : State) (v : Word) : (s.answer v).life = s.life := rfl
@[simp] theorem State.answer_pwr (s : State) (v : Word) : (s.answer v).pwr = s.pwr := rfl
@[simp] theorem State.answer_rst (s : State) (v : Word) : (s.answer v).rst = s.rst := rfl
@[simp] theorem State.answer_boot (s : State) (v : Word) : (s.answer v).boot = s.boot := rfl
@[simp] theorem State.answer_sec (s : State) (v : Word) : (s.answer v).sec = s.sec := rfl
@[simp] theorem State.answer_out (s : State) (v : Word) : (s.answer v).out = s.out := rfl
@[simp] theorem State.answer_free (s : State) (v : Word) : (s.answer v).free = s.free := rfl

/-! ## setSeq -/

@[simp] theorem State.setSeq_pending (s : State) (i : Nat) (x : Seq) : (s.setSeq i x).pending = s.pending := rfl
@[simp] theorem State.setSeq_regs (s : State) (i : Nat) (x : Seq) : (s.setSeq i x).regs = s.regs := rfl
@[simp] theorem State.setSeq_latch (s : State) (i : Nat) (x : Seq) : (s.setSeq i x).latch = s.latch := rfl
@[simp] theorem State.setSeq_staged (s : State) (i : Nat) (x : Seq) : (s.setSeq i x).staged = s.staged := rfl
@[simp] theorem State.setSeq_rdata (s : State) (i : Nat) (x : Seq) : (s.setSeq i x).rdata = s.rdata := rfl
@[simp] theorem State.setSeq_mdata (s : State) (i : Nat) (x : Seq) : (s.setSeq i x).mdata = s.mdata := rfl
@[simp] theorem State.setSeq_map (s : State) (i : Nat) (x : Seq) : (s.setSeq i x).map = s.map := rfl
@[simp] theorem State.setSeq_hbm (s : State) (i : Nat) (x : Seq) : (s.setSeq i x).hbm = s.hbm := rfl
@[simp] theorem State.setSeq_host (s : State) (i : Nat) (x : Seq) : (s.setSeq i x).host = s.host := rfl
@[simp] theorem State.setSeq_store (s : State) (i : Nat) (x : Seq) : (s.setSeq i x).store = s.store := rfl
@[simp] theorem State.setSeq_dspMem (s : State) (i : Nat) (x : Seq) : (s.setSeq i x).dspMem = s.dspMem := rfl
@[simp] theorem State.setSeq_dspEcc (s : State) (i : Nat) (x : Seq) : (s.setSeq i x).dspEcc = s.dspEcc := rfl
@[simp] theorem State.setSeq_poison (s : State) (i : Nat) (x : Seq) : (s.setSeq i x).poison = s.poison := rfl
@[simp] theorem State.setSeq_csPoison (s : State) (i : Nat) (x : Seq) : (s.setSeq i x).csPoison = s.csPoison := rfl
@[simp] theorem State.setSeq_ecc (s : State) (i : Nat) (x : Seq) : (s.setSeq i x).ecc = s.ecc := rfl
@[simp] theorem State.setSeq_csEcc (s : State) (i : Nat) (x : Seq) : (s.setSeq i x).csEcc = s.csEcc := rfl
@[simp] theorem State.setSeq_wb (s : State) (i : Nat) (x : Seq) : (s.setSeq i x).wb = s.wb := rfl
@[simp] theorem State.setSeq_cls (s : State) (i : Nat) (x : Seq) : (s.setSeq i x).cls = s.cls := rfl
@[simp] theorem State.setSeq_sh (s : State) (i : Nat) (x : Seq) : (s.setSeq i x).sh = s.sh := rfl
@[simp] theorem State.setSeq_work (s : State) (i : Nat) (x : Seq) : (s.setSeq i x).work = s.work := rfl
@[simp] theorem State.setSeq_ro (s : State) (i : Nat) (x : Seq) : (s.setSeq i x).ro = s.ro := rfl
@[simp] theorem State.setSeq_dsp (s : State) (i : Nat) (x : Seq) : (s.setSeq i x).dsp = s.dsp := rfl
@[simp] theorem State.setSeq_acc (s : State) (i : Nat) (x : Seq) : (s.setSeq i x).acc = s.acc := rfl
@[simp] theorem State.setSeq_eth (s : State) (i : Nat) (x : Seq) : (s.setSeq i x).eth = s.eth := rfl
@[simp] theorem State.setSeq_time (s : State) (i : Nat) (x : Seq) : (s.setSeq i x).time = s.time := rfl
@[simp] theorem State.setSeq_hc (s : State) (i : Nat) (x : Seq) : (s.setSeq i x).hc = s.hc := rfl
@[simp] theorem State.setSeq_wipes (s : State) (i : Nat) (x : Seq) : (s.setSeq i x).wipes = s.wipes := rfl
@[simp] theorem State.setSeq_wipeAt (s : State) (i : Nat) (x : Seq) : (s.setSeq i x).wipeAt = s.wipeAt := rfl
@[simp] theorem State.setSeq_links (s : State) (i : Nat) (x : Seq) : (s.setSeq i x).links = s.links := rfl
@[simp] theorem State.setSeq_fab (s : State) (i : Nat) (x : Seq) : (s.setSeq i x).fab = s.fab := rfl
@[simp] theorem State.setSeq_mods (s : State) (i : Nat) (x : Seq) : (s.setSeq i x).mods = s.mods := rfl
@[simp] theorem State.setSeq_und (s : State) (i : Nat) (x : Seq) : (s.setSeq i x).und = s.und := rfl
@[simp] theorem State.setSeq_hst (s : State) (i : Nat) (x : Seq) : (s.setSeq i x).hst = s.hst := rfl
@[simp] theorem State.setSeq_flt (s : State) (i : Nat) (x : Seq) : (s.setSeq i x).flt = s.flt := rfl
@[simp] theorem State.setSeq_life (s : State) (i : Nat) (x : Seq) : (s.setSeq i x).life = s.life := rfl
@[simp] theorem State.setSeq_pwr (s : State) (i : Nat) (x : Seq) : (s.setSeq i x).pwr = s.pwr := rfl
@[simp] theorem State.setSeq_rst (s : State) (i : Nat) (x : Seq) : (s.setSeq i x).rst = s.rst := rfl
@[simp] theorem State.setSeq_boot (s : State) (i : Nat) (x : Seq) : (s.setSeq i x).boot = s.boot := rfl
@[simp] theorem State.setSeq_sec (s : State) (i : Nat) (x : Seq) : (s.setSeq i x).sec = s.sec := rfl
@[simp] theorem State.setSeq_out (s : State) (i : Nat) (x : Seq) : (s.setSeq i x).out = s.out := rfl
@[simp] theorem State.setSeq_free (s : State) (i : Nat) (x : Seq) : (s.setSeq i x).free = s.free := rfl

/-! ## setCl -/

@[simp] theorem State.setCl_pending (s : State) (k : Nat) (x : Cluster) : (s.setCl k x).pending = s.pending := rfl
@[simp] theorem State.setCl_regs (s : State) (k : Nat) (x : Cluster) : (s.setCl k x).regs = s.regs := rfl
@[simp] theorem State.setCl_latch (s : State) (k : Nat) (x : Cluster) : (s.setCl k x).latch = s.latch := rfl
@[simp] theorem State.setCl_staged (s : State) (k : Nat) (x : Cluster) : (s.setCl k x).staged = s.staged := rfl
@[simp] theorem State.setCl_rdata (s : State) (k : Nat) (x : Cluster) : (s.setCl k x).rdata = s.rdata := rfl
@[simp] theorem State.setCl_mdata (s : State) (k : Nat) (x : Cluster) : (s.setCl k x).mdata = s.mdata := rfl
@[simp] theorem State.setCl_map (s : State) (k : Nat) (x : Cluster) : (s.setCl k x).map = s.map := rfl
@[simp] theorem State.setCl_hbm (s : State) (k : Nat) (x : Cluster) : (s.setCl k x).hbm = s.hbm := rfl
@[simp] theorem State.setCl_host (s : State) (k : Nat) (x : Cluster) : (s.setCl k x).host = s.host := rfl
@[simp] theorem State.setCl_store (s : State) (k : Nat) (x : Cluster) : (s.setCl k x).store = s.store := rfl
@[simp] theorem State.setCl_dspMem (s : State) (k : Nat) (x : Cluster) : (s.setCl k x).dspMem = s.dspMem := rfl
@[simp] theorem State.setCl_dspEcc (s : State) (k : Nat) (x : Cluster) : (s.setCl k x).dspEcc = s.dspEcc := rfl
@[simp] theorem State.setCl_poison (s : State) (k : Nat) (x : Cluster) : (s.setCl k x).poison = s.poison := rfl
@[simp] theorem State.setCl_csPoison (s : State) (k : Nat) (x : Cluster) : (s.setCl k x).csPoison = s.csPoison := rfl
@[simp] theorem State.setCl_ecc (s : State) (k : Nat) (x : Cluster) : (s.setCl k x).ecc = s.ecc := rfl
@[simp] theorem State.setCl_csEcc (s : State) (k : Nat) (x : Cluster) : (s.setCl k x).csEcc = s.csEcc := rfl
@[simp] theorem State.setCl_wb (s : State) (k : Nat) (x : Cluster) : (s.setCl k x).wb = s.wb := rfl
@[simp] theorem State.setCl_seqs (s : State) (k : Nat) (x : Cluster) : (s.setCl k x).seqs = s.seqs := rfl
@[simp] theorem State.setCl_sh (s : State) (k : Nat) (x : Cluster) : (s.setCl k x).sh = s.sh := rfl
@[simp] theorem State.setCl_work (s : State) (k : Nat) (x : Cluster) : (s.setCl k x).work = s.work := rfl
@[simp] theorem State.setCl_ro (s : State) (k : Nat) (x : Cluster) : (s.setCl k x).ro = s.ro := rfl
@[simp] theorem State.setCl_dsp (s : State) (k : Nat) (x : Cluster) : (s.setCl k x).dsp = s.dsp := rfl
@[simp] theorem State.setCl_acc (s : State) (k : Nat) (x : Cluster) : (s.setCl k x).acc = s.acc := rfl
@[simp] theorem State.setCl_eth (s : State) (k : Nat) (x : Cluster) : (s.setCl k x).eth = s.eth := rfl
@[simp] theorem State.setCl_time (s : State) (k : Nat) (x : Cluster) : (s.setCl k x).time = s.time := rfl
@[simp] theorem State.setCl_hc (s : State) (k : Nat) (x : Cluster) : (s.setCl k x).hc = s.hc := rfl
@[simp] theorem State.setCl_wipes (s : State) (k : Nat) (x : Cluster) : (s.setCl k x).wipes = s.wipes := rfl
@[simp] theorem State.setCl_wipeAt (s : State) (k : Nat) (x : Cluster) : (s.setCl k x).wipeAt = s.wipeAt := rfl
@[simp] theorem State.setCl_links (s : State) (k : Nat) (x : Cluster) : (s.setCl k x).links = s.links := rfl
@[simp] theorem State.setCl_fab (s : State) (k : Nat) (x : Cluster) : (s.setCl k x).fab = s.fab := rfl
@[simp] theorem State.setCl_mods (s : State) (k : Nat) (x : Cluster) : (s.setCl k x).mods = s.mods := rfl
@[simp] theorem State.setCl_und (s : State) (k : Nat) (x : Cluster) : (s.setCl k x).und = s.und := rfl
@[simp] theorem State.setCl_hst (s : State) (k : Nat) (x : Cluster) : (s.setCl k x).hst = s.hst := rfl
@[simp] theorem State.setCl_flt (s : State) (k : Nat) (x : Cluster) : (s.setCl k x).flt = s.flt := rfl
@[simp] theorem State.setCl_life (s : State) (k : Nat) (x : Cluster) : (s.setCl k x).life = s.life := rfl
@[simp] theorem State.setCl_pwr (s : State) (k : Nat) (x : Cluster) : (s.setCl k x).pwr = s.pwr := rfl
@[simp] theorem State.setCl_rst (s : State) (k : Nat) (x : Cluster) : (s.setCl k x).rst = s.rst := rfl
@[simp] theorem State.setCl_boot (s : State) (k : Nat) (x : Cluster) : (s.setCl k x).boot = s.boot := rfl
@[simp] theorem State.setCl_sec (s : State) (k : Nat) (x : Cluster) : (s.setCl k x).sec = s.sec := rfl
@[simp] theorem State.setCl_out (s : State) (k : Nat) (x : Cluster) : (s.setCl k x).out = s.out := rfl
@[simp] theorem State.setCl_free (s : State) (k : Nat) (x : Cluster) : (s.setCl k x).free = s.free := rfl

/-! ## setCu -/

@[simp] theorem State.setCu_pending (s : State) (k u : Nat) (x : ChorusUnit) : (s.setCu k u x).pending = s.pending := rfl
@[simp] theorem State.setCu_regs (s : State) (k u : Nat) (x : ChorusUnit) : (s.setCu k u x).regs = s.regs := rfl
@[simp] theorem State.setCu_latch (s : State) (k u : Nat) (x : ChorusUnit) : (s.setCu k u x).latch = s.latch := rfl
@[simp] theorem State.setCu_staged (s : State) (k u : Nat) (x : ChorusUnit) : (s.setCu k u x).staged = s.staged := rfl
@[simp] theorem State.setCu_rdata (s : State) (k u : Nat) (x : ChorusUnit) : (s.setCu k u x).rdata = s.rdata := rfl
@[simp] theorem State.setCu_mdata (s : State) (k u : Nat) (x : ChorusUnit) : (s.setCu k u x).mdata = s.mdata := rfl
@[simp] theorem State.setCu_map (s : State) (k u : Nat) (x : ChorusUnit) : (s.setCu k u x).map = s.map := rfl
@[simp] theorem State.setCu_hbm (s : State) (k u : Nat) (x : ChorusUnit) : (s.setCu k u x).hbm = s.hbm := rfl
@[simp] theorem State.setCu_host (s : State) (k u : Nat) (x : ChorusUnit) : (s.setCu k u x).host = s.host := rfl
@[simp] theorem State.setCu_store (s : State) (k u : Nat) (x : ChorusUnit) : (s.setCu k u x).store = s.store := rfl
@[simp] theorem State.setCu_dspMem (s : State) (k u : Nat) (x : ChorusUnit) : (s.setCu k u x).dspMem = s.dspMem := rfl
@[simp] theorem State.setCu_dspEcc (s : State) (k u : Nat) (x : ChorusUnit) : (s.setCu k u x).dspEcc = s.dspEcc := rfl
@[simp] theorem State.setCu_poison (s : State) (k u : Nat) (x : ChorusUnit) : (s.setCu k u x).poison = s.poison := rfl
@[simp] theorem State.setCu_csPoison (s : State) (k u : Nat) (x : ChorusUnit) : (s.setCu k u x).csPoison = s.csPoison := rfl
@[simp] theorem State.setCu_ecc (s : State) (k u : Nat) (x : ChorusUnit) : (s.setCu k u x).ecc = s.ecc := rfl
@[simp] theorem State.setCu_csEcc (s : State) (k u : Nat) (x : ChorusUnit) : (s.setCu k u x).csEcc = s.csEcc := rfl
@[simp] theorem State.setCu_wb (s : State) (k u : Nat) (x : ChorusUnit) : (s.setCu k u x).wb = s.wb := rfl
@[simp] theorem State.setCu_seqs (s : State) (k u : Nat) (x : ChorusUnit) : (s.setCu k u x).seqs = s.seqs := rfl
@[simp] theorem State.setCu_sh (s : State) (k u : Nat) (x : ChorusUnit) : (s.setCu k u x).sh = s.sh := rfl
@[simp] theorem State.setCu_work (s : State) (k u : Nat) (x : ChorusUnit) : (s.setCu k u x).work = s.work := rfl
@[simp] theorem State.setCu_ro (s : State) (k u : Nat) (x : ChorusUnit) : (s.setCu k u x).ro = s.ro := rfl
@[simp] theorem State.setCu_dsp (s : State) (k u : Nat) (x : ChorusUnit) : (s.setCu k u x).dsp = s.dsp := rfl
@[simp] theorem State.setCu_acc (s : State) (k u : Nat) (x : ChorusUnit) : (s.setCu k u x).acc = s.acc := rfl
@[simp] theorem State.setCu_eth (s : State) (k u : Nat) (x : ChorusUnit) : (s.setCu k u x).eth = s.eth := rfl
@[simp] theorem State.setCu_time (s : State) (k u : Nat) (x : ChorusUnit) : (s.setCu k u x).time = s.time := rfl
@[simp] theorem State.setCu_hc (s : State) (k u : Nat) (x : ChorusUnit) : (s.setCu k u x).hc = s.hc := rfl
@[simp] theorem State.setCu_wipes (s : State) (k u : Nat) (x : ChorusUnit) : (s.setCu k u x).wipes = s.wipes := rfl
@[simp] theorem State.setCu_wipeAt (s : State) (k u : Nat) (x : ChorusUnit) : (s.setCu k u x).wipeAt = s.wipeAt := rfl
@[simp] theorem State.setCu_links (s : State) (k u : Nat) (x : ChorusUnit) : (s.setCu k u x).links = s.links := rfl
@[simp] theorem State.setCu_fab (s : State) (k u : Nat) (x : ChorusUnit) : (s.setCu k u x).fab = s.fab := rfl
@[simp] theorem State.setCu_mods (s : State) (k u : Nat) (x : ChorusUnit) : (s.setCu k u x).mods = s.mods := rfl
@[simp] theorem State.setCu_und (s : State) (k u : Nat) (x : ChorusUnit) : (s.setCu k u x).und = s.und := rfl
@[simp] theorem State.setCu_hst (s : State) (k u : Nat) (x : ChorusUnit) : (s.setCu k u x).hst = s.hst := rfl
@[simp] theorem State.setCu_flt (s : State) (k u : Nat) (x : ChorusUnit) : (s.setCu k u x).flt = s.flt := rfl
@[simp] theorem State.setCu_life (s : State) (k u : Nat) (x : ChorusUnit) : (s.setCu k u x).life = s.life := rfl
@[simp] theorem State.setCu_pwr (s : State) (k u : Nat) (x : ChorusUnit) : (s.setCu k u x).pwr = s.pwr := rfl
@[simp] theorem State.setCu_rst (s : State) (k u : Nat) (x : ChorusUnit) : (s.setCu k u x).rst = s.rst := rfl
@[simp] theorem State.setCu_boot (s : State) (k u : Nat) (x : ChorusUnit) : (s.setCu k u x).boot = s.boot := rfl
@[simp] theorem State.setCu_sec (s : State) (k u : Nat) (x : ChorusUnit) : (s.setCu k u x).sec = s.sec := rfl
@[simp] theorem State.setCu_out (s : State) (k u : Nat) (x : ChorusUnit) : (s.setCu k u x).out = s.out := rfl
@[simp] theorem State.setCu_free (s : State) (k u : Nat) (x : ChorusUnit) : (s.setCu k u x).free = s.free := rfl

/-! ## setHc -/

@[simp] theorem State.setHc_pending (s : State) (i : Nat) (x : HbmCh) : (s.setHc i x).pending = s.pending := rfl
@[simp] theorem State.setHc_regs (s : State) (i : Nat) (x : HbmCh) : (s.setHc i x).regs = s.regs := rfl
@[simp] theorem State.setHc_latch (s : State) (i : Nat) (x : HbmCh) : (s.setHc i x).latch = s.latch := rfl
@[simp] theorem State.setHc_staged (s : State) (i : Nat) (x : HbmCh) : (s.setHc i x).staged = s.staged := rfl
@[simp] theorem State.setHc_rdata (s : State) (i : Nat) (x : HbmCh) : (s.setHc i x).rdata = s.rdata := rfl
@[simp] theorem State.setHc_mdata (s : State) (i : Nat) (x : HbmCh) : (s.setHc i x).mdata = s.mdata := rfl
@[simp] theorem State.setHc_map (s : State) (i : Nat) (x : HbmCh) : (s.setHc i x).map = s.map := rfl
@[simp] theorem State.setHc_hbm (s : State) (i : Nat) (x : HbmCh) : (s.setHc i x).hbm = s.hbm := rfl
@[simp] theorem State.setHc_host (s : State) (i : Nat) (x : HbmCh) : (s.setHc i x).host = s.host := rfl
@[simp] theorem State.setHc_store (s : State) (i : Nat) (x : HbmCh) : (s.setHc i x).store = s.store := rfl
@[simp] theorem State.setHc_dspMem (s : State) (i : Nat) (x : HbmCh) : (s.setHc i x).dspMem = s.dspMem := rfl
@[simp] theorem State.setHc_dspEcc (s : State) (i : Nat) (x : HbmCh) : (s.setHc i x).dspEcc = s.dspEcc := rfl
@[simp] theorem State.setHc_poison (s : State) (i : Nat) (x : HbmCh) : (s.setHc i x).poison = s.poison := rfl
@[simp] theorem State.setHc_csPoison (s : State) (i : Nat) (x : HbmCh) : (s.setHc i x).csPoison = s.csPoison := rfl
@[simp] theorem State.setHc_ecc (s : State) (i : Nat) (x : HbmCh) : (s.setHc i x).ecc = s.ecc := rfl
@[simp] theorem State.setHc_csEcc (s : State) (i : Nat) (x : HbmCh) : (s.setHc i x).csEcc = s.csEcc := rfl
@[simp] theorem State.setHc_wb (s : State) (i : Nat) (x : HbmCh) : (s.setHc i x).wb = s.wb := rfl
@[simp] theorem State.setHc_seqs (s : State) (i : Nat) (x : HbmCh) : (s.setHc i x).seqs = s.seqs := rfl
@[simp] theorem State.setHc_cls (s : State) (i : Nat) (x : HbmCh) : (s.setHc i x).cls = s.cls := rfl
@[simp] theorem State.setHc_sh (s : State) (i : Nat) (x : HbmCh) : (s.setHc i x).sh = s.sh := rfl
@[simp] theorem State.setHc_work (s : State) (i : Nat) (x : HbmCh) : (s.setHc i x).work = s.work := rfl
@[simp] theorem State.setHc_ro (s : State) (i : Nat) (x : HbmCh) : (s.setHc i x).ro = s.ro := rfl
@[simp] theorem State.setHc_dsp (s : State) (i : Nat) (x : HbmCh) : (s.setHc i x).dsp = s.dsp := rfl
@[simp] theorem State.setHc_acc (s : State) (i : Nat) (x : HbmCh) : (s.setHc i x).acc = s.acc := rfl
@[simp] theorem State.setHc_eth (s : State) (i : Nat) (x : HbmCh) : (s.setHc i x).eth = s.eth := rfl
@[simp] theorem State.setHc_time (s : State) (i : Nat) (x : HbmCh) : (s.setHc i x).time = s.time := rfl
@[simp] theorem State.setHc_wipes (s : State) (i : Nat) (x : HbmCh) : (s.setHc i x).wipes = s.wipes := rfl
@[simp] theorem State.setHc_wipeAt (s : State) (i : Nat) (x : HbmCh) : (s.setHc i x).wipeAt = s.wipeAt := rfl
@[simp] theorem State.setHc_links (s : State) (i : Nat) (x : HbmCh) : (s.setHc i x).links = s.links := rfl
@[simp] theorem State.setHc_fab (s : State) (i : Nat) (x : HbmCh) : (s.setHc i x).fab = s.fab := rfl
@[simp] theorem State.setHc_mods (s : State) (i : Nat) (x : HbmCh) : (s.setHc i x).mods = s.mods := rfl
@[simp] theorem State.setHc_und (s : State) (i : Nat) (x : HbmCh) : (s.setHc i x).und = s.und := rfl
@[simp] theorem State.setHc_hst (s : State) (i : Nat) (x : HbmCh) : (s.setHc i x).hst = s.hst := rfl
@[simp] theorem State.setHc_flt (s : State) (i : Nat) (x : HbmCh) : (s.setHc i x).flt = s.flt := rfl
@[simp] theorem State.setHc_life (s : State) (i : Nat) (x : HbmCh) : (s.setHc i x).life = s.life := rfl
@[simp] theorem State.setHc_pwr (s : State) (i : Nat) (x : HbmCh) : (s.setHc i x).pwr = s.pwr := rfl
@[simp] theorem State.setHc_rst (s : State) (i : Nat) (x : HbmCh) : (s.setHc i x).rst = s.rst := rfl
@[simp] theorem State.setHc_boot (s : State) (i : Nat) (x : HbmCh) : (s.setHc i x).boot = s.boot := rfl
@[simp] theorem State.setHc_sec (s : State) (i : Nat) (x : HbmCh) : (s.setHc i x).sec = s.sec := rfl
@[simp] theorem State.setHc_out (s : State) (i : Nat) (x : HbmCh) : (s.setHc i x).out = s.out := rfl
@[simp] theorem State.setHc_free (s : State) (i : Nat) (x : HbmCh) : (s.setHc i x).free = s.free := rfl

/-! ## setItem -/

@[simp] theorem State.setItem_pending (s : State) (i : Nat) (x : Item) : (s.setItem i x).pending = s.pending := rfl
@[simp] theorem State.setItem_regs (s : State) (i : Nat) (x : Item) : (s.setItem i x).regs = s.regs := rfl
@[simp] theorem State.setItem_latch (s : State) (i : Nat) (x : Item) : (s.setItem i x).latch = s.latch := rfl
@[simp] theorem State.setItem_staged (s : State) (i : Nat) (x : Item) : (s.setItem i x).staged = s.staged := rfl
@[simp] theorem State.setItem_rdata (s : State) (i : Nat) (x : Item) : (s.setItem i x).rdata = s.rdata := rfl
@[simp] theorem State.setItem_mdata (s : State) (i : Nat) (x : Item) : (s.setItem i x).mdata = s.mdata := rfl
@[simp] theorem State.setItem_map (s : State) (i : Nat) (x : Item) : (s.setItem i x).map = s.map := rfl
@[simp] theorem State.setItem_hbm (s : State) (i : Nat) (x : Item) : (s.setItem i x).hbm = s.hbm := rfl
@[simp] theorem State.setItem_host (s : State) (i : Nat) (x : Item) : (s.setItem i x).host = s.host := rfl
@[simp] theorem State.setItem_store (s : State) (i : Nat) (x : Item) : (s.setItem i x).store = s.store := rfl
@[simp] theorem State.setItem_dspMem (s : State) (i : Nat) (x : Item) : (s.setItem i x).dspMem = s.dspMem := rfl
@[simp] theorem State.setItem_dspEcc (s : State) (i : Nat) (x : Item) : (s.setItem i x).dspEcc = s.dspEcc := rfl
@[simp] theorem State.setItem_poison (s : State) (i : Nat) (x : Item) : (s.setItem i x).poison = s.poison := rfl
@[simp] theorem State.setItem_csPoison (s : State) (i : Nat) (x : Item) : (s.setItem i x).csPoison = s.csPoison := rfl
@[simp] theorem State.setItem_ecc (s : State) (i : Nat) (x : Item) : (s.setItem i x).ecc = s.ecc := rfl
@[simp] theorem State.setItem_csEcc (s : State) (i : Nat) (x : Item) : (s.setItem i x).csEcc = s.csEcc := rfl
@[simp] theorem State.setItem_wb (s : State) (i : Nat) (x : Item) : (s.setItem i x).wb = s.wb := rfl
@[simp] theorem State.setItem_seqs (s : State) (i : Nat) (x : Item) : (s.setItem i x).seqs = s.seqs := rfl
@[simp] theorem State.setItem_cls (s : State) (i : Nat) (x : Item) : (s.setItem i x).cls = s.cls := rfl
@[simp] theorem State.setItem_sh (s : State) (i : Nat) (x : Item) : (s.setItem i x).sh = s.sh := rfl
@[simp] theorem State.setItem_ro (s : State) (i : Nat) (x : Item) : (s.setItem i x).ro = s.ro := rfl
@[simp] theorem State.setItem_dsp (s : State) (i : Nat) (x : Item) : (s.setItem i x).dsp = s.dsp := rfl
@[simp] theorem State.setItem_acc (s : State) (i : Nat) (x : Item) : (s.setItem i x).acc = s.acc := rfl
@[simp] theorem State.setItem_eth (s : State) (i : Nat) (x : Item) : (s.setItem i x).eth = s.eth := rfl
@[simp] theorem State.setItem_time (s : State) (i : Nat) (x : Item) : (s.setItem i x).time = s.time := rfl
@[simp] theorem State.setItem_hc (s : State) (i : Nat) (x : Item) : (s.setItem i x).hc = s.hc := rfl
@[simp] theorem State.setItem_wipes (s : State) (i : Nat) (x : Item) : (s.setItem i x).wipes = s.wipes := rfl
@[simp] theorem State.setItem_wipeAt (s : State) (i : Nat) (x : Item) : (s.setItem i x).wipeAt = s.wipeAt := rfl
@[simp] theorem State.setItem_links (s : State) (i : Nat) (x : Item) : (s.setItem i x).links = s.links := rfl
@[simp] theorem State.setItem_fab (s : State) (i : Nat) (x : Item) : (s.setItem i x).fab = s.fab := rfl
@[simp] theorem State.setItem_mods (s : State) (i : Nat) (x : Item) : (s.setItem i x).mods = s.mods := rfl
@[simp] theorem State.setItem_und (s : State) (i : Nat) (x : Item) : (s.setItem i x).und = s.und := rfl
@[simp] theorem State.setItem_hst (s : State) (i : Nat) (x : Item) : (s.setItem i x).hst = s.hst := rfl
@[simp] theorem State.setItem_flt (s : State) (i : Nat) (x : Item) : (s.setItem i x).flt = s.flt := rfl
@[simp] theorem State.setItem_life (s : State) (i : Nat) (x : Item) : (s.setItem i x).life = s.life := rfl
@[simp] theorem State.setItem_pwr (s : State) (i : Nat) (x : Item) : (s.setItem i x).pwr = s.pwr := rfl
@[simp] theorem State.setItem_rst (s : State) (i : Nat) (x : Item) : (s.setItem i x).rst = s.rst := rfl
@[simp] theorem State.setItem_boot (s : State) (i : Nat) (x : Item) : (s.setItem i x).boot = s.boot := rfl
@[simp] theorem State.setItem_sec (s : State) (i : Nat) (x : Item) : (s.setItem i x).sec = s.sec := rfl
@[simp] theorem State.setItem_out (s : State) (i : Nat) (x : Item) : (s.setItem i x).out = s.out := rfl
@[simp] theorem State.setItem_free (s : State) (i : Nat) (x : Item) : (s.setItem i x).free = s.free := rfl

/-! ## setCore -/

@[simp] theorem State.setCore_pending (s : State) (k : Nat) (x : DspCore) : (s.setCore k x).pending = s.pending := rfl
@[simp] theorem State.setCore_regs (s : State) (k : Nat) (x : DspCore) : (s.setCore k x).regs = s.regs := rfl
@[simp] theorem State.setCore_latch (s : State) (k : Nat) (x : DspCore) : (s.setCore k x).latch = s.latch := rfl
@[simp] theorem State.setCore_staged (s : State) (k : Nat) (x : DspCore) : (s.setCore k x).staged = s.staged := rfl
@[simp] theorem State.setCore_rdata (s : State) (k : Nat) (x : DspCore) : (s.setCore k x).rdata = s.rdata := rfl
@[simp] theorem State.setCore_mdata (s : State) (k : Nat) (x : DspCore) : (s.setCore k x).mdata = s.mdata := rfl
@[simp] theorem State.setCore_map (s : State) (k : Nat) (x : DspCore) : (s.setCore k x).map = s.map := rfl
@[simp] theorem State.setCore_hbm (s : State) (k : Nat) (x : DspCore) : (s.setCore k x).hbm = s.hbm := rfl
@[simp] theorem State.setCore_host (s : State) (k : Nat) (x : DspCore) : (s.setCore k x).host = s.host := rfl
@[simp] theorem State.setCore_store (s : State) (k : Nat) (x : DspCore) : (s.setCore k x).store = s.store := rfl
@[simp] theorem State.setCore_dspMem (s : State) (k : Nat) (x : DspCore) : (s.setCore k x).dspMem = s.dspMem := rfl
@[simp] theorem State.setCore_dspEcc (s : State) (k : Nat) (x : DspCore) : (s.setCore k x).dspEcc = s.dspEcc := rfl
@[simp] theorem State.setCore_poison (s : State) (k : Nat) (x : DspCore) : (s.setCore k x).poison = s.poison := rfl
@[simp] theorem State.setCore_csPoison (s : State) (k : Nat) (x : DspCore) : (s.setCore k x).csPoison = s.csPoison := rfl
@[simp] theorem State.setCore_ecc (s : State) (k : Nat) (x : DspCore) : (s.setCore k x).ecc = s.ecc := rfl
@[simp] theorem State.setCore_csEcc (s : State) (k : Nat) (x : DspCore) : (s.setCore k x).csEcc = s.csEcc := rfl
@[simp] theorem State.setCore_wb (s : State) (k : Nat) (x : DspCore) : (s.setCore k x).wb = s.wb := rfl
@[simp] theorem State.setCore_seqs (s : State) (k : Nat) (x : DspCore) : (s.setCore k x).seqs = s.seqs := rfl
@[simp] theorem State.setCore_cls (s : State) (k : Nat) (x : DspCore) : (s.setCore k x).cls = s.cls := rfl
@[simp] theorem State.setCore_sh (s : State) (k : Nat) (x : DspCore) : (s.setCore k x).sh = s.sh := rfl
@[simp] theorem State.setCore_work (s : State) (k : Nat) (x : DspCore) : (s.setCore k x).work = s.work := rfl
@[simp] theorem State.setCore_ro (s : State) (k : Nat) (x : DspCore) : (s.setCore k x).ro = s.ro := rfl
@[simp] theorem State.setCore_acc (s : State) (k : Nat) (x : DspCore) : (s.setCore k x).acc = s.acc := rfl
@[simp] theorem State.setCore_eth (s : State) (k : Nat) (x : DspCore) : (s.setCore k x).eth = s.eth := rfl
@[simp] theorem State.setCore_time (s : State) (k : Nat) (x : DspCore) : (s.setCore k x).time = s.time := rfl
@[simp] theorem State.setCore_hc (s : State) (k : Nat) (x : DspCore) : (s.setCore k x).hc = s.hc := rfl
@[simp] theorem State.setCore_wipes (s : State) (k : Nat) (x : DspCore) : (s.setCore k x).wipes = s.wipes := rfl
@[simp] theorem State.setCore_wipeAt (s : State) (k : Nat) (x : DspCore) : (s.setCore k x).wipeAt = s.wipeAt := rfl
@[simp] theorem State.setCore_links (s : State) (k : Nat) (x : DspCore) : (s.setCore k x).links = s.links := rfl
@[simp] theorem State.setCore_fab (s : State) (k : Nat) (x : DspCore) : (s.setCore k x).fab = s.fab := rfl
@[simp] theorem State.setCore_mods (s : State) (k : Nat) (x : DspCore) : (s.setCore k x).mods = s.mods := rfl
@[simp] theorem State.setCore_und (s : State) (k : Nat) (x : DspCore) : (s.setCore k x).und = s.und := rfl
@[simp] theorem State.setCore_hst (s : State) (k : Nat) (x : DspCore) : (s.setCore k x).hst = s.hst := rfl
@[simp] theorem State.setCore_flt (s : State) (k : Nat) (x : DspCore) : (s.setCore k x).flt = s.flt := rfl
@[simp] theorem State.setCore_life (s : State) (k : Nat) (x : DspCore) : (s.setCore k x).life = s.life := rfl
@[simp] theorem State.setCore_pwr (s : State) (k : Nat) (x : DspCore) : (s.setCore k x).pwr = s.pwr := rfl
@[simp] theorem State.setCore_rst (s : State) (k : Nat) (x : DspCore) : (s.setCore k x).rst = s.rst := rfl
@[simp] theorem State.setCore_boot (s : State) (k : Nat) (x : DspCore) : (s.setCore k x).boot = s.boot := rfl
@[simp] theorem State.setCore_sec (s : State) (k : Nat) (x : DspCore) : (s.setCore k x).sec = s.sec := rfl
@[simp] theorem State.setCore_out (s : State) (k : Nat) (x : DspCore) : (s.setCore k x).out = s.out := rfl
@[simp] theorem State.setCore_free (s : State) (k : Nat) (x : DspCore) : (s.setCore k x).free = s.free := rfl

/-! ## setAcc -/

@[simp] theorem State.setAcc_pending (s : State) (e : Nat) (x : AccSt) : (s.setAcc e x).pending = s.pending := rfl
@[simp] theorem State.setAcc_regs (s : State) (e : Nat) (x : AccSt) : (s.setAcc e x).regs = s.regs := rfl
@[simp] theorem State.setAcc_latch (s : State) (e : Nat) (x : AccSt) : (s.setAcc e x).latch = s.latch := rfl
@[simp] theorem State.setAcc_staged (s : State) (e : Nat) (x : AccSt) : (s.setAcc e x).staged = s.staged := rfl
@[simp] theorem State.setAcc_rdata (s : State) (e : Nat) (x : AccSt) : (s.setAcc e x).rdata = s.rdata := rfl
@[simp] theorem State.setAcc_mdata (s : State) (e : Nat) (x : AccSt) : (s.setAcc e x).mdata = s.mdata := rfl
@[simp] theorem State.setAcc_map (s : State) (e : Nat) (x : AccSt) : (s.setAcc e x).map = s.map := rfl
@[simp] theorem State.setAcc_hbm (s : State) (e : Nat) (x : AccSt) : (s.setAcc e x).hbm = s.hbm := rfl
@[simp] theorem State.setAcc_host (s : State) (e : Nat) (x : AccSt) : (s.setAcc e x).host = s.host := rfl
@[simp] theorem State.setAcc_store (s : State) (e : Nat) (x : AccSt) : (s.setAcc e x).store = s.store := rfl
@[simp] theorem State.setAcc_dspMem (s : State) (e : Nat) (x : AccSt) : (s.setAcc e x).dspMem = s.dspMem := rfl
@[simp] theorem State.setAcc_dspEcc (s : State) (e : Nat) (x : AccSt) : (s.setAcc e x).dspEcc = s.dspEcc := rfl
@[simp] theorem State.setAcc_poison (s : State) (e : Nat) (x : AccSt) : (s.setAcc e x).poison = s.poison := rfl
@[simp] theorem State.setAcc_csPoison (s : State) (e : Nat) (x : AccSt) : (s.setAcc e x).csPoison = s.csPoison := rfl
@[simp] theorem State.setAcc_ecc (s : State) (e : Nat) (x : AccSt) : (s.setAcc e x).ecc = s.ecc := rfl
@[simp] theorem State.setAcc_csEcc (s : State) (e : Nat) (x : AccSt) : (s.setAcc e x).csEcc = s.csEcc := rfl
@[simp] theorem State.setAcc_wb (s : State) (e : Nat) (x : AccSt) : (s.setAcc e x).wb = s.wb := rfl
@[simp] theorem State.setAcc_seqs (s : State) (e : Nat) (x : AccSt) : (s.setAcc e x).seqs = s.seqs := rfl
@[simp] theorem State.setAcc_cls (s : State) (e : Nat) (x : AccSt) : (s.setAcc e x).cls = s.cls := rfl
@[simp] theorem State.setAcc_sh (s : State) (e : Nat) (x : AccSt) : (s.setAcc e x).sh = s.sh := rfl
@[simp] theorem State.setAcc_work (s : State) (e : Nat) (x : AccSt) : (s.setAcc e x).work = s.work := rfl
@[simp] theorem State.setAcc_ro (s : State) (e : Nat) (x : AccSt) : (s.setAcc e x).ro = s.ro := rfl
@[simp] theorem State.setAcc_dsp (s : State) (e : Nat) (x : AccSt) : (s.setAcc e x).dsp = s.dsp := rfl
@[simp] theorem State.setAcc_eth (s : State) (e : Nat) (x : AccSt) : (s.setAcc e x).eth = s.eth := rfl
@[simp] theorem State.setAcc_time (s : State) (e : Nat) (x : AccSt) : (s.setAcc e x).time = s.time := rfl
@[simp] theorem State.setAcc_hc (s : State) (e : Nat) (x : AccSt) : (s.setAcc e x).hc = s.hc := rfl
@[simp] theorem State.setAcc_wipes (s : State) (e : Nat) (x : AccSt) : (s.setAcc e x).wipes = s.wipes := rfl
@[simp] theorem State.setAcc_wipeAt (s : State) (e : Nat) (x : AccSt) : (s.setAcc e x).wipeAt = s.wipeAt := rfl
@[simp] theorem State.setAcc_links (s : State) (e : Nat) (x : AccSt) : (s.setAcc e x).links = s.links := rfl
@[simp] theorem State.setAcc_fab (s : State) (e : Nat) (x : AccSt) : (s.setAcc e x).fab = s.fab := rfl
@[simp] theorem State.setAcc_mods (s : State) (e : Nat) (x : AccSt) : (s.setAcc e x).mods = s.mods := rfl
@[simp] theorem State.setAcc_und (s : State) (e : Nat) (x : AccSt) : (s.setAcc e x).und = s.und := rfl
@[simp] theorem State.setAcc_hst (s : State) (e : Nat) (x : AccSt) : (s.setAcc e x).hst = s.hst := rfl
@[simp] theorem State.setAcc_flt (s : State) (e : Nat) (x : AccSt) : (s.setAcc e x).flt = s.flt := rfl
@[simp] theorem State.setAcc_life (s : State) (e : Nat) (x : AccSt) : (s.setAcc e x).life = s.life := rfl
@[simp] theorem State.setAcc_pwr (s : State) (e : Nat) (x : AccSt) : (s.setAcc e x).pwr = s.pwr := rfl
@[simp] theorem State.setAcc_rst (s : State) (e : Nat) (x : AccSt) : (s.setAcc e x).rst = s.rst := rfl
@[simp] theorem State.setAcc_boot (s : State) (e : Nat) (x : AccSt) : (s.setAcc e x).boot = s.boot := rfl
@[simp] theorem State.setAcc_sec (s : State) (e : Nat) (x : AccSt) : (s.setAcc e x).sec = s.sec := rfl
@[simp] theorem State.setAcc_out (s : State) (e : Nat) (x : AccSt) : (s.setAcc e x).out = s.out := rfl
@[simp] theorem State.setAcc_free (s : State) (e : Nat) (x : AccSt) : (s.setAcc e x).free = s.free := rfl

/-! ## setEth -/

@[simp] theorem State.setEth_pending (s : State) (p : Nat) (x : EthSt) : (s.setEth p x).pending = s.pending := rfl
@[simp] theorem State.setEth_regs (s : State) (p : Nat) (x : EthSt) : (s.setEth p x).regs = s.regs := rfl
@[simp] theorem State.setEth_latch (s : State) (p : Nat) (x : EthSt) : (s.setEth p x).latch = s.latch := rfl
@[simp] theorem State.setEth_staged (s : State) (p : Nat) (x : EthSt) : (s.setEth p x).staged = s.staged := rfl
@[simp] theorem State.setEth_rdata (s : State) (p : Nat) (x : EthSt) : (s.setEth p x).rdata = s.rdata := rfl
@[simp] theorem State.setEth_mdata (s : State) (p : Nat) (x : EthSt) : (s.setEth p x).mdata = s.mdata := rfl
@[simp] theorem State.setEth_map (s : State) (p : Nat) (x : EthSt) : (s.setEth p x).map = s.map := rfl
@[simp] theorem State.setEth_hbm (s : State) (p : Nat) (x : EthSt) : (s.setEth p x).hbm = s.hbm := rfl
@[simp] theorem State.setEth_host (s : State) (p : Nat) (x : EthSt) : (s.setEth p x).host = s.host := rfl
@[simp] theorem State.setEth_store (s : State) (p : Nat) (x : EthSt) : (s.setEth p x).store = s.store := rfl
@[simp] theorem State.setEth_dspMem (s : State) (p : Nat) (x : EthSt) : (s.setEth p x).dspMem = s.dspMem := rfl
@[simp] theorem State.setEth_dspEcc (s : State) (p : Nat) (x : EthSt) : (s.setEth p x).dspEcc = s.dspEcc := rfl
@[simp] theorem State.setEth_poison (s : State) (p : Nat) (x : EthSt) : (s.setEth p x).poison = s.poison := rfl
@[simp] theorem State.setEth_csPoison (s : State) (p : Nat) (x : EthSt) : (s.setEth p x).csPoison = s.csPoison := rfl
@[simp] theorem State.setEth_ecc (s : State) (p : Nat) (x : EthSt) : (s.setEth p x).ecc = s.ecc := rfl
@[simp] theorem State.setEth_csEcc (s : State) (p : Nat) (x : EthSt) : (s.setEth p x).csEcc = s.csEcc := rfl
@[simp] theorem State.setEth_wb (s : State) (p : Nat) (x : EthSt) : (s.setEth p x).wb = s.wb := rfl
@[simp] theorem State.setEth_seqs (s : State) (p : Nat) (x : EthSt) : (s.setEth p x).seqs = s.seqs := rfl
@[simp] theorem State.setEth_cls (s : State) (p : Nat) (x : EthSt) : (s.setEth p x).cls = s.cls := rfl
@[simp] theorem State.setEth_sh (s : State) (p : Nat) (x : EthSt) : (s.setEth p x).sh = s.sh := rfl
@[simp] theorem State.setEth_work (s : State) (p : Nat) (x : EthSt) : (s.setEth p x).work = s.work := rfl
@[simp] theorem State.setEth_ro (s : State) (p : Nat) (x : EthSt) : (s.setEth p x).ro = s.ro := rfl
@[simp] theorem State.setEth_dsp (s : State) (p : Nat) (x : EthSt) : (s.setEth p x).dsp = s.dsp := rfl
@[simp] theorem State.setEth_acc (s : State) (p : Nat) (x : EthSt) : (s.setEth p x).acc = s.acc := rfl
@[simp] theorem State.setEth_time (s : State) (p : Nat) (x : EthSt) : (s.setEth p x).time = s.time := rfl
@[simp] theorem State.setEth_hc (s : State) (p : Nat) (x : EthSt) : (s.setEth p x).hc = s.hc := rfl
@[simp] theorem State.setEth_wipes (s : State) (p : Nat) (x : EthSt) : (s.setEth p x).wipes = s.wipes := rfl
@[simp] theorem State.setEth_wipeAt (s : State) (p : Nat) (x : EthSt) : (s.setEth p x).wipeAt = s.wipeAt := rfl
@[simp] theorem State.setEth_links (s : State) (p : Nat) (x : EthSt) : (s.setEth p x).links = s.links := rfl
@[simp] theorem State.setEth_fab (s : State) (p : Nat) (x : EthSt) : (s.setEth p x).fab = s.fab := rfl
@[simp] theorem State.setEth_mods (s : State) (p : Nat) (x : EthSt) : (s.setEth p x).mods = s.mods := rfl
@[simp] theorem State.setEth_und (s : State) (p : Nat) (x : EthSt) : (s.setEth p x).und = s.und := rfl
@[simp] theorem State.setEth_hst (s : State) (p : Nat) (x : EthSt) : (s.setEth p x).hst = s.hst := rfl
@[simp] theorem State.setEth_flt (s : State) (p : Nat) (x : EthSt) : (s.setEth p x).flt = s.flt := rfl
@[simp] theorem State.setEth_life (s : State) (p : Nat) (x : EthSt) : (s.setEth p x).life = s.life := rfl
@[simp] theorem State.setEth_pwr (s : State) (p : Nat) (x : EthSt) : (s.setEth p x).pwr = s.pwr := rfl
@[simp] theorem State.setEth_rst (s : State) (p : Nat) (x : EthSt) : (s.setEth p x).rst = s.rst := rfl
@[simp] theorem State.setEth_boot (s : State) (p : Nat) (x : EthSt) : (s.setEth p x).boot = s.boot := rfl
@[simp] theorem State.setEth_sec (s : State) (p : Nat) (x : EthSt) : (s.setEth p x).sec = s.sec := rfl
@[simp] theorem State.setEth_out (s : State) (p : Nat) (x : EthSt) : (s.setEth p x).out = s.out := rfl
@[simp] theorem State.setEth_free (s : State) (p : Nat) (x : EthSt) : (s.setEth p x).free = s.free := rfl

/-! ## setTh -/

@[simp] theorem State.setTh_pending (s : State) (th : Nat) (x : Thread) : (s.setTh th x).pending = s.pending := rfl
@[simp] theorem State.setTh_regs (s : State) (th : Nat) (x : Thread) : (s.setTh th x).regs = s.regs := rfl
@[simp] theorem State.setTh_latch (s : State) (th : Nat) (x : Thread) : (s.setTh th x).latch = s.latch := rfl
@[simp] theorem State.setTh_staged (s : State) (th : Nat) (x : Thread) : (s.setTh th x).staged = s.staged := rfl
@[simp] theorem State.setTh_rdata (s : State) (th : Nat) (x : Thread) : (s.setTh th x).rdata = s.rdata := rfl
@[simp] theorem State.setTh_mdata (s : State) (th : Nat) (x : Thread) : (s.setTh th x).mdata = s.mdata := rfl
@[simp] theorem State.setTh_map (s : State) (th : Nat) (x : Thread) : (s.setTh th x).map = s.map := rfl
@[simp] theorem State.setTh_hbm (s : State) (th : Nat) (x : Thread) : (s.setTh th x).hbm = s.hbm := rfl
@[simp] theorem State.setTh_host (s : State) (th : Nat) (x : Thread) : (s.setTh th x).host = s.host := rfl
@[simp] theorem State.setTh_store (s : State) (th : Nat) (x : Thread) : (s.setTh th x).store = s.store := rfl
@[simp] theorem State.setTh_dspMem (s : State) (th : Nat) (x : Thread) : (s.setTh th x).dspMem = s.dspMem := rfl
@[simp] theorem State.setTh_dspEcc (s : State) (th : Nat) (x : Thread) : (s.setTh th x).dspEcc = s.dspEcc := rfl
@[simp] theorem State.setTh_poison (s : State) (th : Nat) (x : Thread) : (s.setTh th x).poison = s.poison := rfl
@[simp] theorem State.setTh_csPoison (s : State) (th : Nat) (x : Thread) : (s.setTh th x).csPoison = s.csPoison := rfl
@[simp] theorem State.setTh_ecc (s : State) (th : Nat) (x : Thread) : (s.setTh th x).ecc = s.ecc := rfl
@[simp] theorem State.setTh_csEcc (s : State) (th : Nat) (x : Thread) : (s.setTh th x).csEcc = s.csEcc := rfl
@[simp] theorem State.setTh_wb (s : State) (th : Nat) (x : Thread) : (s.setTh th x).wb = s.wb := rfl
@[simp] theorem State.setTh_seqs (s : State) (th : Nat) (x : Thread) : (s.setTh th x).seqs = s.seqs := rfl
@[simp] theorem State.setTh_cls (s : State) (th : Nat) (x : Thread) : (s.setTh th x).cls = s.cls := rfl
@[simp] theorem State.setTh_work (s : State) (th : Nat) (x : Thread) : (s.setTh th x).work = s.work := rfl
@[simp] theorem State.setTh_ro (s : State) (th : Nat) (x : Thread) : (s.setTh th x).ro = s.ro := rfl
@[simp] theorem State.setTh_dsp (s : State) (th : Nat) (x : Thread) : (s.setTh th x).dsp = s.dsp := rfl
@[simp] theorem State.setTh_acc (s : State) (th : Nat) (x : Thread) : (s.setTh th x).acc = s.acc := rfl
@[simp] theorem State.setTh_eth (s : State) (th : Nat) (x : Thread) : (s.setTh th x).eth = s.eth := rfl
@[simp] theorem State.setTh_time (s : State) (th : Nat) (x : Thread) : (s.setTh th x).time = s.time := rfl
@[simp] theorem State.setTh_hc (s : State) (th : Nat) (x : Thread) : (s.setTh th x).hc = s.hc := rfl
@[simp] theorem State.setTh_wipes (s : State) (th : Nat) (x : Thread) : (s.setTh th x).wipes = s.wipes := rfl
@[simp] theorem State.setTh_wipeAt (s : State) (th : Nat) (x : Thread) : (s.setTh th x).wipeAt = s.wipeAt := rfl
@[simp] theorem State.setTh_links (s : State) (th : Nat) (x : Thread) : (s.setTh th x).links = s.links := rfl
@[simp] theorem State.setTh_fab (s : State) (th : Nat) (x : Thread) : (s.setTh th x).fab = s.fab := rfl
@[simp] theorem State.setTh_mods (s : State) (th : Nat) (x : Thread) : (s.setTh th x).mods = s.mods := rfl
@[simp] theorem State.setTh_und (s : State) (th : Nat) (x : Thread) : (s.setTh th x).und = s.und := rfl
@[simp] theorem State.setTh_hst (s : State) (th : Nat) (x : Thread) : (s.setTh th x).hst = s.hst := rfl
@[simp] theorem State.setTh_flt (s : State) (th : Nat) (x : Thread) : (s.setTh th x).flt = s.flt := rfl
@[simp] theorem State.setTh_life (s : State) (th : Nat) (x : Thread) : (s.setTh th x).life = s.life := rfl
@[simp] theorem State.setTh_pwr (s : State) (th : Nat) (x : Thread) : (s.setTh th x).pwr = s.pwr := rfl
@[simp] theorem State.setTh_rst (s : State) (th : Nat) (x : Thread) : (s.setTh th x).rst = s.rst := rfl
@[simp] theorem State.setTh_boot (s : State) (th : Nat) (x : Thread) : (s.setTh th x).boot = s.boot := rfl
@[simp] theorem State.setTh_sec (s : State) (th : Nat) (x : Thread) : (s.setTh th x).sec = s.sec := rfl
@[simp] theorem State.setTh_out (s : State) (th : Nat) (x : Thread) : (s.setTh th x).out = s.out := rfl
@[simp] theorem State.setTh_free (s : State) (th : Nat) (x : Thread) : (s.setTh th x).free = s.free := rfl

/-! ## setLink -/

@[simp] theorem State.setLink_pending (s : State) (l : Nat) (x : Link) : (s.setLink l x).pending = s.pending := rfl
@[simp] theorem State.setLink_regs (s : State) (l : Nat) (x : Link) : (s.setLink l x).regs = s.regs := rfl
@[simp] theorem State.setLink_latch (s : State) (l : Nat) (x : Link) : (s.setLink l x).latch = s.latch := rfl
@[simp] theorem State.setLink_staged (s : State) (l : Nat) (x : Link) : (s.setLink l x).staged = s.staged := rfl
@[simp] theorem State.setLink_rdata (s : State) (l : Nat) (x : Link) : (s.setLink l x).rdata = s.rdata := rfl
@[simp] theorem State.setLink_mdata (s : State) (l : Nat) (x : Link) : (s.setLink l x).mdata = s.mdata := rfl
@[simp] theorem State.setLink_map (s : State) (l : Nat) (x : Link) : (s.setLink l x).map = s.map := rfl
@[simp] theorem State.setLink_hbm (s : State) (l : Nat) (x : Link) : (s.setLink l x).hbm = s.hbm := rfl
@[simp] theorem State.setLink_host (s : State) (l : Nat) (x : Link) : (s.setLink l x).host = s.host := rfl
@[simp] theorem State.setLink_store (s : State) (l : Nat) (x : Link) : (s.setLink l x).store = s.store := rfl
@[simp] theorem State.setLink_dspMem (s : State) (l : Nat) (x : Link) : (s.setLink l x).dspMem = s.dspMem := rfl
@[simp] theorem State.setLink_dspEcc (s : State) (l : Nat) (x : Link) : (s.setLink l x).dspEcc = s.dspEcc := rfl
@[simp] theorem State.setLink_poison (s : State) (l : Nat) (x : Link) : (s.setLink l x).poison = s.poison := rfl
@[simp] theorem State.setLink_csPoison (s : State) (l : Nat) (x : Link) : (s.setLink l x).csPoison = s.csPoison := rfl
@[simp] theorem State.setLink_ecc (s : State) (l : Nat) (x : Link) : (s.setLink l x).ecc = s.ecc := rfl
@[simp] theorem State.setLink_csEcc (s : State) (l : Nat) (x : Link) : (s.setLink l x).csEcc = s.csEcc := rfl
@[simp] theorem State.setLink_wb (s : State) (l : Nat) (x : Link) : (s.setLink l x).wb = s.wb := rfl
@[simp] theorem State.setLink_seqs (s : State) (l : Nat) (x : Link) : (s.setLink l x).seqs = s.seqs := rfl
@[simp] theorem State.setLink_cls (s : State) (l : Nat) (x : Link) : (s.setLink l x).cls = s.cls := rfl
@[simp] theorem State.setLink_sh (s : State) (l : Nat) (x : Link) : (s.setLink l x).sh = s.sh := rfl
@[simp] theorem State.setLink_work (s : State) (l : Nat) (x : Link) : (s.setLink l x).work = s.work := rfl
@[simp] theorem State.setLink_ro (s : State) (l : Nat) (x : Link) : (s.setLink l x).ro = s.ro := rfl
@[simp] theorem State.setLink_dsp (s : State) (l : Nat) (x : Link) : (s.setLink l x).dsp = s.dsp := rfl
@[simp] theorem State.setLink_acc (s : State) (l : Nat) (x : Link) : (s.setLink l x).acc = s.acc := rfl
@[simp] theorem State.setLink_eth (s : State) (l : Nat) (x : Link) : (s.setLink l x).eth = s.eth := rfl
@[simp] theorem State.setLink_time (s : State) (l : Nat) (x : Link) : (s.setLink l x).time = s.time := rfl
@[simp] theorem State.setLink_hc (s : State) (l : Nat) (x : Link) : (s.setLink l x).hc = s.hc := rfl
@[simp] theorem State.setLink_wipes (s : State) (l : Nat) (x : Link) : (s.setLink l x).wipes = s.wipes := rfl
@[simp] theorem State.setLink_wipeAt (s : State) (l : Nat) (x : Link) : (s.setLink l x).wipeAt = s.wipeAt := rfl
@[simp] theorem State.setLink_fab (s : State) (l : Nat) (x : Link) : (s.setLink l x).fab = s.fab := rfl
@[simp] theorem State.setLink_mods (s : State) (l : Nat) (x : Link) : (s.setLink l x).mods = s.mods := rfl
@[simp] theorem State.setLink_und (s : State) (l : Nat) (x : Link) : (s.setLink l x).und = s.und := rfl
@[simp] theorem State.setLink_hst (s : State) (l : Nat) (x : Link) : (s.setLink l x).hst = s.hst := rfl
@[simp] theorem State.setLink_flt (s : State) (l : Nat) (x : Link) : (s.setLink l x).flt = s.flt := rfl
@[simp] theorem State.setLink_life (s : State) (l : Nat) (x : Link) : (s.setLink l x).life = s.life := rfl
@[simp] theorem State.setLink_pwr (s : State) (l : Nat) (x : Link) : (s.setLink l x).pwr = s.pwr := rfl
@[simp] theorem State.setLink_rst (s : State) (l : Nat) (x : Link) : (s.setLink l x).rst = s.rst := rfl
@[simp] theorem State.setLink_boot (s : State) (l : Nat) (x : Link) : (s.setLink l x).boot = s.boot := rfl
@[simp] theorem State.setLink_sec (s : State) (l : Nat) (x : Link) : (s.setLink l x).sec = s.sec := rfl
@[simp] theorem State.setLink_out (s : State) (l : Nat) (x : Link) : (s.setLink l x).out = s.out := rfl
@[simp] theorem State.setLink_free (s : State) (l : Nat) (x : Link) : (s.setLink l x).free = s.free := rfl

/-! ## setMod -/

@[simp] theorem State.setMod_pending (s : State) (m : Nat) (x : OptMod) : (s.setMod m x).pending = s.pending := rfl
@[simp] theorem State.setMod_regs (s : State) (m : Nat) (x : OptMod) : (s.setMod m x).regs = s.regs := rfl
@[simp] theorem State.setMod_latch (s : State) (m : Nat) (x : OptMod) : (s.setMod m x).latch = s.latch := rfl
@[simp] theorem State.setMod_staged (s : State) (m : Nat) (x : OptMod) : (s.setMod m x).staged = s.staged := rfl
@[simp] theorem State.setMod_rdata (s : State) (m : Nat) (x : OptMod) : (s.setMod m x).rdata = s.rdata := rfl
@[simp] theorem State.setMod_mdata (s : State) (m : Nat) (x : OptMod) : (s.setMod m x).mdata = s.mdata := rfl
@[simp] theorem State.setMod_map (s : State) (m : Nat) (x : OptMod) : (s.setMod m x).map = s.map := rfl
@[simp] theorem State.setMod_hbm (s : State) (m : Nat) (x : OptMod) : (s.setMod m x).hbm = s.hbm := rfl
@[simp] theorem State.setMod_host (s : State) (m : Nat) (x : OptMod) : (s.setMod m x).host = s.host := rfl
@[simp] theorem State.setMod_store (s : State) (m : Nat) (x : OptMod) : (s.setMod m x).store = s.store := rfl
@[simp] theorem State.setMod_dspMem (s : State) (m : Nat) (x : OptMod) : (s.setMod m x).dspMem = s.dspMem := rfl
@[simp] theorem State.setMod_dspEcc (s : State) (m : Nat) (x : OptMod) : (s.setMod m x).dspEcc = s.dspEcc := rfl
@[simp] theorem State.setMod_poison (s : State) (m : Nat) (x : OptMod) : (s.setMod m x).poison = s.poison := rfl
@[simp] theorem State.setMod_csPoison (s : State) (m : Nat) (x : OptMod) : (s.setMod m x).csPoison = s.csPoison := rfl
@[simp] theorem State.setMod_ecc (s : State) (m : Nat) (x : OptMod) : (s.setMod m x).ecc = s.ecc := rfl
@[simp] theorem State.setMod_csEcc (s : State) (m : Nat) (x : OptMod) : (s.setMod m x).csEcc = s.csEcc := rfl
@[simp] theorem State.setMod_wb (s : State) (m : Nat) (x : OptMod) : (s.setMod m x).wb = s.wb := rfl
@[simp] theorem State.setMod_seqs (s : State) (m : Nat) (x : OptMod) : (s.setMod m x).seqs = s.seqs := rfl
@[simp] theorem State.setMod_cls (s : State) (m : Nat) (x : OptMod) : (s.setMod m x).cls = s.cls := rfl
@[simp] theorem State.setMod_sh (s : State) (m : Nat) (x : OptMod) : (s.setMod m x).sh = s.sh := rfl
@[simp] theorem State.setMod_work (s : State) (m : Nat) (x : OptMod) : (s.setMod m x).work = s.work := rfl
@[simp] theorem State.setMod_ro (s : State) (m : Nat) (x : OptMod) : (s.setMod m x).ro = s.ro := rfl
@[simp] theorem State.setMod_dsp (s : State) (m : Nat) (x : OptMod) : (s.setMod m x).dsp = s.dsp := rfl
@[simp] theorem State.setMod_acc (s : State) (m : Nat) (x : OptMod) : (s.setMod m x).acc = s.acc := rfl
@[simp] theorem State.setMod_eth (s : State) (m : Nat) (x : OptMod) : (s.setMod m x).eth = s.eth := rfl
@[simp] theorem State.setMod_time (s : State) (m : Nat) (x : OptMod) : (s.setMod m x).time = s.time := rfl
@[simp] theorem State.setMod_hc (s : State) (m : Nat) (x : OptMod) : (s.setMod m x).hc = s.hc := rfl
@[simp] theorem State.setMod_wipes (s : State) (m : Nat) (x : OptMod) : (s.setMod m x).wipes = s.wipes := rfl
@[simp] theorem State.setMod_wipeAt (s : State) (m : Nat) (x : OptMod) : (s.setMod m x).wipeAt = s.wipeAt := rfl
@[simp] theorem State.setMod_links (s : State) (m : Nat) (x : OptMod) : (s.setMod m x).links = s.links := rfl
@[simp] theorem State.setMod_fab (s : State) (m : Nat) (x : OptMod) : (s.setMod m x).fab = s.fab := rfl
@[simp] theorem State.setMod_und (s : State) (m : Nat) (x : OptMod) : (s.setMod m x).und = s.und := rfl
@[simp] theorem State.setMod_hst (s : State) (m : Nat) (x : OptMod) : (s.setMod m x).hst = s.hst := rfl
@[simp] theorem State.setMod_flt (s : State) (m : Nat) (x : OptMod) : (s.setMod m x).flt = s.flt := rfl
@[simp] theorem State.setMod_life (s : State) (m : Nat) (x : OptMod) : (s.setMod m x).life = s.life := rfl
@[simp] theorem State.setMod_pwr (s : State) (m : Nat) (x : OptMod) : (s.setMod m x).pwr = s.pwr := rfl
@[simp] theorem State.setMod_rst (s : State) (m : Nat) (x : OptMod) : (s.setMod m x).rst = s.rst := rfl
@[simp] theorem State.setMod_boot (s : State) (m : Nat) (x : OptMod) : (s.setMod m x).boot = s.boot := rfl
@[simp] theorem State.setMod_sec (s : State) (m : Nat) (x : OptMod) : (s.setMod m x).sec = s.sec := rfl
@[simp] theorem State.setMod_out (s : State) (m : Nat) (x : OptMod) : (s.setMod m x).out = s.out := rfl
@[simp] theorem State.setMod_free (s : State) (m : Nat) (x : OptMod) : (s.setMod m x).free = s.free := rfl

/-! ## setSrcPair -/

@[simp] theorem State.setSrcPair_pending (s : State) (n : Nat) (x : PairSrc) : (s.setSrcPair n x).pending = s.pending := rfl
@[simp] theorem State.setSrcPair_regs (s : State) (n : Nat) (x : PairSrc) : (s.setSrcPair n x).regs = s.regs := rfl
@[simp] theorem State.setSrcPair_latch (s : State) (n : Nat) (x : PairSrc) : (s.setSrcPair n x).latch = s.latch := rfl
@[simp] theorem State.setSrcPair_staged (s : State) (n : Nat) (x : PairSrc) : (s.setSrcPair n x).staged = s.staged := rfl
@[simp] theorem State.setSrcPair_rdata (s : State) (n : Nat) (x : PairSrc) : (s.setSrcPair n x).rdata = s.rdata := rfl
@[simp] theorem State.setSrcPair_mdata (s : State) (n : Nat) (x : PairSrc) : (s.setSrcPair n x).mdata = s.mdata := rfl
@[simp] theorem State.setSrcPair_map (s : State) (n : Nat) (x : PairSrc) : (s.setSrcPair n x).map = s.map := rfl
@[simp] theorem State.setSrcPair_hbm (s : State) (n : Nat) (x : PairSrc) : (s.setSrcPair n x).hbm = s.hbm := rfl
@[simp] theorem State.setSrcPair_host (s : State) (n : Nat) (x : PairSrc) : (s.setSrcPair n x).host = s.host := rfl
@[simp] theorem State.setSrcPair_store (s : State) (n : Nat) (x : PairSrc) : (s.setSrcPair n x).store = s.store := rfl
@[simp] theorem State.setSrcPair_dspMem (s : State) (n : Nat) (x : PairSrc) : (s.setSrcPair n x).dspMem = s.dspMem := rfl
@[simp] theorem State.setSrcPair_dspEcc (s : State) (n : Nat) (x : PairSrc) : (s.setSrcPair n x).dspEcc = s.dspEcc := rfl
@[simp] theorem State.setSrcPair_poison (s : State) (n : Nat) (x : PairSrc) : (s.setSrcPair n x).poison = s.poison := rfl
@[simp] theorem State.setSrcPair_csPoison (s : State) (n : Nat) (x : PairSrc) : (s.setSrcPair n x).csPoison = s.csPoison := rfl
@[simp] theorem State.setSrcPair_ecc (s : State) (n : Nat) (x : PairSrc) : (s.setSrcPair n x).ecc = s.ecc := rfl
@[simp] theorem State.setSrcPair_csEcc (s : State) (n : Nat) (x : PairSrc) : (s.setSrcPair n x).csEcc = s.csEcc := rfl
@[simp] theorem State.setSrcPair_wb (s : State) (n : Nat) (x : PairSrc) : (s.setSrcPair n x).wb = s.wb := rfl
@[simp] theorem State.setSrcPair_seqs (s : State) (n : Nat) (x : PairSrc) : (s.setSrcPair n x).seqs = s.seqs := rfl
@[simp] theorem State.setSrcPair_cls (s : State) (n : Nat) (x : PairSrc) : (s.setSrcPair n x).cls = s.cls := rfl
@[simp] theorem State.setSrcPair_sh (s : State) (n : Nat) (x : PairSrc) : (s.setSrcPair n x).sh = s.sh := rfl
@[simp] theorem State.setSrcPair_work (s : State) (n : Nat) (x : PairSrc) : (s.setSrcPair n x).work = s.work := rfl
@[simp] theorem State.setSrcPair_ro (s : State) (n : Nat) (x : PairSrc) : (s.setSrcPair n x).ro = s.ro := rfl
@[simp] theorem State.setSrcPair_dsp (s : State) (n : Nat) (x : PairSrc) : (s.setSrcPair n x).dsp = s.dsp := rfl
@[simp] theorem State.setSrcPair_acc (s : State) (n : Nat) (x : PairSrc) : (s.setSrcPair n x).acc = s.acc := rfl
@[simp] theorem State.setSrcPair_eth (s : State) (n : Nat) (x : PairSrc) : (s.setSrcPair n x).eth = s.eth := rfl
@[simp] theorem State.setSrcPair_time (s : State) (n : Nat) (x : PairSrc) : (s.setSrcPair n x).time = s.time := rfl
@[simp] theorem State.setSrcPair_hc (s : State) (n : Nat) (x : PairSrc) : (s.setSrcPair n x).hc = s.hc := rfl
@[simp] theorem State.setSrcPair_wipes (s : State) (n : Nat) (x : PairSrc) : (s.setSrcPair n x).wipes = s.wipes := rfl
@[simp] theorem State.setSrcPair_wipeAt (s : State) (n : Nat) (x : PairSrc) : (s.setSrcPair n x).wipeAt = s.wipeAt := rfl
@[simp] theorem State.setSrcPair_links (s : State) (n : Nat) (x : PairSrc) : (s.setSrcPair n x).links = s.links := rfl
@[simp] theorem State.setSrcPair_mods (s : State) (n : Nat) (x : PairSrc) : (s.setSrcPair n x).mods = s.mods := rfl
@[simp] theorem State.setSrcPair_und (s : State) (n : Nat) (x : PairSrc) : (s.setSrcPair n x).und = s.und := rfl
@[simp] theorem State.setSrcPair_hst (s : State) (n : Nat) (x : PairSrc) : (s.setSrcPair n x).hst = s.hst := rfl
@[simp] theorem State.setSrcPair_flt (s : State) (n : Nat) (x : PairSrc) : (s.setSrcPair n x).flt = s.flt := rfl
@[simp] theorem State.setSrcPair_life (s : State) (n : Nat) (x : PairSrc) : (s.setSrcPair n x).life = s.life := rfl
@[simp] theorem State.setSrcPair_pwr (s : State) (n : Nat) (x : PairSrc) : (s.setSrcPair n x).pwr = s.pwr := rfl
@[simp] theorem State.setSrcPair_rst (s : State) (n : Nat) (x : PairSrc) : (s.setSrcPair n x).rst = s.rst := rfl
@[simp] theorem State.setSrcPair_boot (s : State) (n : Nat) (x : PairSrc) : (s.setSrcPair n x).boot = s.boot := rfl
@[simp] theorem State.setSrcPair_sec (s : State) (n : Nat) (x : PairSrc) : (s.setSrcPair n x).sec = s.sec := rfl
@[simp] theorem State.setSrcPair_out (s : State) (n : Nat) (x : PairSrc) : (s.setSrcPair n x).out = s.out := rfl
@[simp] theorem State.setSrcPair_free (s : State) (n : Nat) (x : PairSrc) : (s.setSrcPair n x).free = s.free := rfl

/-! ## setDstPair -/

@[simp] theorem State.setDstPair_pending (s : State) (key : Nat) (x : PairDst) : (s.setDstPair key x).pending = s.pending := rfl
@[simp] theorem State.setDstPair_regs (s : State) (key : Nat) (x : PairDst) : (s.setDstPair key x).regs = s.regs := rfl
@[simp] theorem State.setDstPair_latch (s : State) (key : Nat) (x : PairDst) : (s.setDstPair key x).latch = s.latch := rfl
@[simp] theorem State.setDstPair_staged (s : State) (key : Nat) (x : PairDst) : (s.setDstPair key x).staged = s.staged := rfl
@[simp] theorem State.setDstPair_rdata (s : State) (key : Nat) (x : PairDst) : (s.setDstPair key x).rdata = s.rdata := rfl
@[simp] theorem State.setDstPair_mdata (s : State) (key : Nat) (x : PairDst) : (s.setDstPair key x).mdata = s.mdata := rfl
@[simp] theorem State.setDstPair_map (s : State) (key : Nat) (x : PairDst) : (s.setDstPair key x).map = s.map := rfl
@[simp] theorem State.setDstPair_hbm (s : State) (key : Nat) (x : PairDst) : (s.setDstPair key x).hbm = s.hbm := rfl
@[simp] theorem State.setDstPair_host (s : State) (key : Nat) (x : PairDst) : (s.setDstPair key x).host = s.host := rfl
@[simp] theorem State.setDstPair_store (s : State) (key : Nat) (x : PairDst) : (s.setDstPair key x).store = s.store := rfl
@[simp] theorem State.setDstPair_dspMem (s : State) (key : Nat) (x : PairDst) : (s.setDstPair key x).dspMem = s.dspMem := rfl
@[simp] theorem State.setDstPair_dspEcc (s : State) (key : Nat) (x : PairDst) : (s.setDstPair key x).dspEcc = s.dspEcc := rfl
@[simp] theorem State.setDstPair_poison (s : State) (key : Nat) (x : PairDst) : (s.setDstPair key x).poison = s.poison := rfl
@[simp] theorem State.setDstPair_csPoison (s : State) (key : Nat) (x : PairDst) : (s.setDstPair key x).csPoison = s.csPoison := rfl
@[simp] theorem State.setDstPair_ecc (s : State) (key : Nat) (x : PairDst) : (s.setDstPair key x).ecc = s.ecc := rfl
@[simp] theorem State.setDstPair_csEcc (s : State) (key : Nat) (x : PairDst) : (s.setDstPair key x).csEcc = s.csEcc := rfl
@[simp] theorem State.setDstPair_wb (s : State) (key : Nat) (x : PairDst) : (s.setDstPair key x).wb = s.wb := rfl
@[simp] theorem State.setDstPair_seqs (s : State) (key : Nat) (x : PairDst) : (s.setDstPair key x).seqs = s.seqs := rfl
@[simp] theorem State.setDstPair_cls (s : State) (key : Nat) (x : PairDst) : (s.setDstPair key x).cls = s.cls := rfl
@[simp] theorem State.setDstPair_sh (s : State) (key : Nat) (x : PairDst) : (s.setDstPair key x).sh = s.sh := rfl
@[simp] theorem State.setDstPair_work (s : State) (key : Nat) (x : PairDst) : (s.setDstPair key x).work = s.work := rfl
@[simp] theorem State.setDstPair_ro (s : State) (key : Nat) (x : PairDst) : (s.setDstPair key x).ro = s.ro := rfl
@[simp] theorem State.setDstPair_dsp (s : State) (key : Nat) (x : PairDst) : (s.setDstPair key x).dsp = s.dsp := rfl
@[simp] theorem State.setDstPair_acc (s : State) (key : Nat) (x : PairDst) : (s.setDstPair key x).acc = s.acc := rfl
@[simp] theorem State.setDstPair_eth (s : State) (key : Nat) (x : PairDst) : (s.setDstPair key x).eth = s.eth := rfl
@[simp] theorem State.setDstPair_time (s : State) (key : Nat) (x : PairDst) : (s.setDstPair key x).time = s.time := rfl
@[simp] theorem State.setDstPair_hc (s : State) (key : Nat) (x : PairDst) : (s.setDstPair key x).hc = s.hc := rfl
@[simp] theorem State.setDstPair_wipes (s : State) (key : Nat) (x : PairDst) : (s.setDstPair key x).wipes = s.wipes := rfl
@[simp] theorem State.setDstPair_wipeAt (s : State) (key : Nat) (x : PairDst) : (s.setDstPair key x).wipeAt = s.wipeAt := rfl
@[simp] theorem State.setDstPair_links (s : State) (key : Nat) (x : PairDst) : (s.setDstPair key x).links = s.links := rfl
@[simp] theorem State.setDstPair_mods (s : State) (key : Nat) (x : PairDst) : (s.setDstPair key x).mods = s.mods := rfl
@[simp] theorem State.setDstPair_und (s : State) (key : Nat) (x : PairDst) : (s.setDstPair key x).und = s.und := rfl
@[simp] theorem State.setDstPair_hst (s : State) (key : Nat) (x : PairDst) : (s.setDstPair key x).hst = s.hst := rfl
@[simp] theorem State.setDstPair_flt (s : State) (key : Nat) (x : PairDst) : (s.setDstPair key x).flt = s.flt := rfl
@[simp] theorem State.setDstPair_life (s : State) (key : Nat) (x : PairDst) : (s.setDstPair key x).life = s.life := rfl
@[simp] theorem State.setDstPair_pwr (s : State) (key : Nat) (x : PairDst) : (s.setDstPair key x).pwr = s.pwr := rfl
@[simp] theorem State.setDstPair_rst (s : State) (key : Nat) (x : PairDst) : (s.setDstPair key x).rst = s.rst := rfl
@[simp] theorem State.setDstPair_boot (s : State) (key : Nat) (x : PairDst) : (s.setDstPair key x).boot = s.boot := rfl
@[simp] theorem State.setDstPair_sec (s : State) (key : Nat) (x : PairDst) : (s.setDstPair key x).sec = s.sec := rfl
@[simp] theorem State.setDstPair_out (s : State) (key : Nat) (x : PairDst) : (s.setDstPair key x).out = s.out := rfl
@[simp] theorem State.setDstPair_free (s : State) (key : Nat) (x : PairDst) : (s.setDstPair key x).free = s.free := rfl

/-! ## forget -/

@[simp] theorem State.forget_pending (s : State) (org : Nat) : (s.forget org).pending = s.pending := rfl
@[simp] theorem State.forget_regs (s : State) (org : Nat) : (s.forget org).regs = s.regs := rfl
@[simp] theorem State.forget_latch (s : State) (org : Nat) : (s.forget org).latch = s.latch := rfl
@[simp] theorem State.forget_staged (s : State) (org : Nat) : (s.forget org).staged = s.staged := rfl
@[simp] theorem State.forget_rdata (s : State) (org : Nat) : (s.forget org).rdata = s.rdata := rfl
@[simp] theorem State.forget_mdata (s : State) (org : Nat) : (s.forget org).mdata = s.mdata := rfl
@[simp] theorem State.forget_map (s : State) (org : Nat) : (s.forget org).map = s.map := rfl
@[simp] theorem State.forget_hbm (s : State) (org : Nat) : (s.forget org).hbm = s.hbm := rfl
@[simp] theorem State.forget_host (s : State) (org : Nat) : (s.forget org).host = s.host := rfl
@[simp] theorem State.forget_store (s : State) (org : Nat) : (s.forget org).store = s.store := rfl
@[simp] theorem State.forget_dspMem (s : State) (org : Nat) : (s.forget org).dspMem = s.dspMem := rfl
@[simp] theorem State.forget_dspEcc (s : State) (org : Nat) : (s.forget org).dspEcc = s.dspEcc := rfl
@[simp] theorem State.forget_poison (s : State) (org : Nat) : (s.forget org).poison = s.poison := rfl
@[simp] theorem State.forget_csPoison (s : State) (org : Nat) : (s.forget org).csPoison = s.csPoison := rfl
@[simp] theorem State.forget_ecc (s : State) (org : Nat) : (s.forget org).ecc = s.ecc := rfl
@[simp] theorem State.forget_csEcc (s : State) (org : Nat) : (s.forget org).csEcc = s.csEcc := rfl
@[simp] theorem State.forget_wb (s : State) (org : Nat) : (s.forget org).wb = s.wb := rfl
@[simp] theorem State.forget_seqs (s : State) (org : Nat) : (s.forget org).seqs = s.seqs := rfl
@[simp] theorem State.forget_cls (s : State) (org : Nat) : (s.forget org).cls = s.cls := rfl
@[simp] theorem State.forget_sh (s : State) (org : Nat) : (s.forget org).sh = s.sh := rfl
@[simp] theorem State.forget_work (s : State) (org : Nat) : (s.forget org).work = s.work := rfl
@[simp] theorem State.forget_ro (s : State) (org : Nat) : (s.forget org).ro = s.ro := rfl
@[simp] theorem State.forget_dsp (s : State) (org : Nat) : (s.forget org).dsp = s.dsp := rfl
@[simp] theorem State.forget_acc (s : State) (org : Nat) : (s.forget org).acc = s.acc := rfl
@[simp] theorem State.forget_eth (s : State) (org : Nat) : (s.forget org).eth = s.eth := rfl
@[simp] theorem State.forget_time (s : State) (org : Nat) : (s.forget org).time = s.time := rfl
@[simp] theorem State.forget_hc (s : State) (org : Nat) : (s.forget org).hc = s.hc := rfl
@[simp] theorem State.forget_wipes (s : State) (org : Nat) : (s.forget org).wipes = s.wipes := rfl
@[simp] theorem State.forget_wipeAt (s : State) (org : Nat) : (s.forget org).wipeAt = s.wipeAt := rfl
@[simp] theorem State.forget_links (s : State) (org : Nat) : (s.forget org).links = s.links := rfl
@[simp] theorem State.forget_mods (s : State) (org : Nat) : (s.forget org).mods = s.mods := rfl
@[simp] theorem State.forget_und (s : State) (org : Nat) : (s.forget org).und = s.und := rfl
@[simp] theorem State.forget_hst (s : State) (org : Nat) : (s.forget org).hst = s.hst := rfl
@[simp] theorem State.forget_flt (s : State) (org : Nat) : (s.forget org).flt = s.flt := rfl
@[simp] theorem State.forget_life (s : State) (org : Nat) : (s.forget org).life = s.life := rfl
@[simp] theorem State.forget_pwr (s : State) (org : Nat) : (s.forget org).pwr = s.pwr := rfl
@[simp] theorem State.forget_rst (s : State) (org : Nat) : (s.forget org).rst = s.rst := rfl
@[simp] theorem State.forget_boot (s : State) (org : Nat) : (s.forget org).boot = s.boot := rfl
@[simp] theorem State.forget_sec (s : State) (org : Nat) : (s.forget org).sec = s.sec := rfl
@[simp] theorem State.forget_out (s : State) (org : Nat) : (s.forget org).out = s.out := rfl
@[simp] theorem State.forget_free (s : State) (org : Nat) : (s.forget org).free = s.free := rfl

/-! ## setBase -/

@[simp] theorem State.setBase_pending (s : State) (b : Nat) (x : TBase) : (s.setBase b x).pending = s.pending := rfl
@[simp] theorem State.setBase_regs (s : State) (b : Nat) (x : TBase) : (s.setBase b x).regs = s.regs := rfl
@[simp] theorem State.setBase_latch (s : State) (b : Nat) (x : TBase) : (s.setBase b x).latch = s.latch := rfl
@[simp] theorem State.setBase_staged (s : State) (b : Nat) (x : TBase) : (s.setBase b x).staged = s.staged := rfl
@[simp] theorem State.setBase_rdata (s : State) (b : Nat) (x : TBase) : (s.setBase b x).rdata = s.rdata := rfl
@[simp] theorem State.setBase_mdata (s : State) (b : Nat) (x : TBase) : (s.setBase b x).mdata = s.mdata := rfl
@[simp] theorem State.setBase_map (s : State) (b : Nat) (x : TBase) : (s.setBase b x).map = s.map := rfl
@[simp] theorem State.setBase_hbm (s : State) (b : Nat) (x : TBase) : (s.setBase b x).hbm = s.hbm := rfl
@[simp] theorem State.setBase_host (s : State) (b : Nat) (x : TBase) : (s.setBase b x).host = s.host := rfl
@[simp] theorem State.setBase_store (s : State) (b : Nat) (x : TBase) : (s.setBase b x).store = s.store := rfl
@[simp] theorem State.setBase_dspMem (s : State) (b : Nat) (x : TBase) : (s.setBase b x).dspMem = s.dspMem := rfl
@[simp] theorem State.setBase_dspEcc (s : State) (b : Nat) (x : TBase) : (s.setBase b x).dspEcc = s.dspEcc := rfl
@[simp] theorem State.setBase_poison (s : State) (b : Nat) (x : TBase) : (s.setBase b x).poison = s.poison := rfl
@[simp] theorem State.setBase_csPoison (s : State) (b : Nat) (x : TBase) : (s.setBase b x).csPoison = s.csPoison := rfl
@[simp] theorem State.setBase_ecc (s : State) (b : Nat) (x : TBase) : (s.setBase b x).ecc = s.ecc := rfl
@[simp] theorem State.setBase_csEcc (s : State) (b : Nat) (x : TBase) : (s.setBase b x).csEcc = s.csEcc := rfl
@[simp] theorem State.setBase_wb (s : State) (b : Nat) (x : TBase) : (s.setBase b x).wb = s.wb := rfl
@[simp] theorem State.setBase_seqs (s : State) (b : Nat) (x : TBase) : (s.setBase b x).seqs = s.seqs := rfl
@[simp] theorem State.setBase_cls (s : State) (b : Nat) (x : TBase) : (s.setBase b x).cls = s.cls := rfl
@[simp] theorem State.setBase_sh (s : State) (b : Nat) (x : TBase) : (s.setBase b x).sh = s.sh := rfl
@[simp] theorem State.setBase_work (s : State) (b : Nat) (x : TBase) : (s.setBase b x).work = s.work := rfl
@[simp] theorem State.setBase_ro (s : State) (b : Nat) (x : TBase) : (s.setBase b x).ro = s.ro := rfl
@[simp] theorem State.setBase_dsp (s : State) (b : Nat) (x : TBase) : (s.setBase b x).dsp = s.dsp := rfl
@[simp] theorem State.setBase_acc (s : State) (b : Nat) (x : TBase) : (s.setBase b x).acc = s.acc := rfl
@[simp] theorem State.setBase_eth (s : State) (b : Nat) (x : TBase) : (s.setBase b x).eth = s.eth := rfl
@[simp] theorem State.setBase_hc (s : State) (b : Nat) (x : TBase) : (s.setBase b x).hc = s.hc := rfl
@[simp] theorem State.setBase_wipes (s : State) (b : Nat) (x : TBase) : (s.setBase b x).wipes = s.wipes := rfl
@[simp] theorem State.setBase_wipeAt (s : State) (b : Nat) (x : TBase) : (s.setBase b x).wipeAt = s.wipeAt := rfl
@[simp] theorem State.setBase_links (s : State) (b : Nat) (x : TBase) : (s.setBase b x).links = s.links := rfl
@[simp] theorem State.setBase_fab (s : State) (b : Nat) (x : TBase) : (s.setBase b x).fab = s.fab := rfl
@[simp] theorem State.setBase_mods (s : State) (b : Nat) (x : TBase) : (s.setBase b x).mods = s.mods := rfl
@[simp] theorem State.setBase_und (s : State) (b : Nat) (x : TBase) : (s.setBase b x).und = s.und := rfl
@[simp] theorem State.setBase_hst (s : State) (b : Nat) (x : TBase) : (s.setBase b x).hst = s.hst := rfl
@[simp] theorem State.setBase_flt (s : State) (b : Nat) (x : TBase) : (s.setBase b x).flt = s.flt := rfl
@[simp] theorem State.setBase_life (s : State) (b : Nat) (x : TBase) : (s.setBase b x).life = s.life := rfl
@[simp] theorem State.setBase_pwr (s : State) (b : Nat) (x : TBase) : (s.setBase b x).pwr = s.pwr := rfl
@[simp] theorem State.setBase_rst (s : State) (b : Nat) (x : TBase) : (s.setBase b x).rst = s.rst := rfl
@[simp] theorem State.setBase_boot (s : State) (b : Nat) (x : TBase) : (s.setBase b x).boot = s.boot := rfl
@[simp] theorem State.setBase_sec (s : State) (b : Nat) (x : TBase) : (s.setBase b x).sec = s.sec := rfl
@[simp] theorem State.setBase_out (s : State) (b : Nat) (x : TBase) : (s.setBase b x).out = s.out := rfl
@[simp] theorem State.setBase_free (s : State) (b : Nat) (x : TBase) : (s.setBase b x).free = s.free := rfl

/-! ## setTpo -/

@[simp] theorem State.setTpo_pending (s : State) (n : Nat) (x : Tpo) : (s.setTpo n x).pending = s.pending := rfl
@[simp] theorem State.setTpo_regs (s : State) (n : Nat) (x : Tpo) : (s.setTpo n x).regs = s.regs := rfl
@[simp] theorem State.setTpo_latch (s : State) (n : Nat) (x : Tpo) : (s.setTpo n x).latch = s.latch := rfl
@[simp] theorem State.setTpo_staged (s : State) (n : Nat) (x : Tpo) : (s.setTpo n x).staged = s.staged := rfl
@[simp] theorem State.setTpo_rdata (s : State) (n : Nat) (x : Tpo) : (s.setTpo n x).rdata = s.rdata := rfl
@[simp] theorem State.setTpo_mdata (s : State) (n : Nat) (x : Tpo) : (s.setTpo n x).mdata = s.mdata := rfl
@[simp] theorem State.setTpo_map (s : State) (n : Nat) (x : Tpo) : (s.setTpo n x).map = s.map := rfl
@[simp] theorem State.setTpo_hbm (s : State) (n : Nat) (x : Tpo) : (s.setTpo n x).hbm = s.hbm := rfl
@[simp] theorem State.setTpo_host (s : State) (n : Nat) (x : Tpo) : (s.setTpo n x).host = s.host := rfl
@[simp] theorem State.setTpo_store (s : State) (n : Nat) (x : Tpo) : (s.setTpo n x).store = s.store := rfl
@[simp] theorem State.setTpo_dspMem (s : State) (n : Nat) (x : Tpo) : (s.setTpo n x).dspMem = s.dspMem := rfl
@[simp] theorem State.setTpo_dspEcc (s : State) (n : Nat) (x : Tpo) : (s.setTpo n x).dspEcc = s.dspEcc := rfl
@[simp] theorem State.setTpo_poison (s : State) (n : Nat) (x : Tpo) : (s.setTpo n x).poison = s.poison := rfl
@[simp] theorem State.setTpo_csPoison (s : State) (n : Nat) (x : Tpo) : (s.setTpo n x).csPoison = s.csPoison := rfl
@[simp] theorem State.setTpo_ecc (s : State) (n : Nat) (x : Tpo) : (s.setTpo n x).ecc = s.ecc := rfl
@[simp] theorem State.setTpo_csEcc (s : State) (n : Nat) (x : Tpo) : (s.setTpo n x).csEcc = s.csEcc := rfl
@[simp] theorem State.setTpo_wb (s : State) (n : Nat) (x : Tpo) : (s.setTpo n x).wb = s.wb := rfl
@[simp] theorem State.setTpo_seqs (s : State) (n : Nat) (x : Tpo) : (s.setTpo n x).seqs = s.seqs := rfl
@[simp] theorem State.setTpo_cls (s : State) (n : Nat) (x : Tpo) : (s.setTpo n x).cls = s.cls := rfl
@[simp] theorem State.setTpo_sh (s : State) (n : Nat) (x : Tpo) : (s.setTpo n x).sh = s.sh := rfl
@[simp] theorem State.setTpo_work (s : State) (n : Nat) (x : Tpo) : (s.setTpo n x).work = s.work := rfl
@[simp] theorem State.setTpo_ro (s : State) (n : Nat) (x : Tpo) : (s.setTpo n x).ro = s.ro := rfl
@[simp] theorem State.setTpo_dsp (s : State) (n : Nat) (x : Tpo) : (s.setTpo n x).dsp = s.dsp := rfl
@[simp] theorem State.setTpo_acc (s : State) (n : Nat) (x : Tpo) : (s.setTpo n x).acc = s.acc := rfl
@[simp] theorem State.setTpo_eth (s : State) (n : Nat) (x : Tpo) : (s.setTpo n x).eth = s.eth := rfl
@[simp] theorem State.setTpo_hc (s : State) (n : Nat) (x : Tpo) : (s.setTpo n x).hc = s.hc := rfl
@[simp] theorem State.setTpo_wipes (s : State) (n : Nat) (x : Tpo) : (s.setTpo n x).wipes = s.wipes := rfl
@[simp] theorem State.setTpo_wipeAt (s : State) (n : Nat) (x : Tpo) : (s.setTpo n x).wipeAt = s.wipeAt := rfl
@[simp] theorem State.setTpo_links (s : State) (n : Nat) (x : Tpo) : (s.setTpo n x).links = s.links := rfl
@[simp] theorem State.setTpo_fab (s : State) (n : Nat) (x : Tpo) : (s.setTpo n x).fab = s.fab := rfl
@[simp] theorem State.setTpo_mods (s : State) (n : Nat) (x : Tpo) : (s.setTpo n x).mods = s.mods := rfl
@[simp] theorem State.setTpo_und (s : State) (n : Nat) (x : Tpo) : (s.setTpo n x).und = s.und := rfl
@[simp] theorem State.setTpo_hst (s : State) (n : Nat) (x : Tpo) : (s.setTpo n x).hst = s.hst := rfl
@[simp] theorem State.setTpo_flt (s : State) (n : Nat) (x : Tpo) : (s.setTpo n x).flt = s.flt := rfl
@[simp] theorem State.setTpo_life (s : State) (n : Nat) (x : Tpo) : (s.setTpo n x).life = s.life := rfl
@[simp] theorem State.setTpo_pwr (s : State) (n : Nat) (x : Tpo) : (s.setTpo n x).pwr = s.pwr := rfl
@[simp] theorem State.setTpo_rst (s : State) (n : Nat) (x : Tpo) : (s.setTpo n x).rst = s.rst := rfl
@[simp] theorem State.setTpo_boot (s : State) (n : Nat) (x : Tpo) : (s.setTpo n x).boot = s.boot := rfl
@[simp] theorem State.setTpo_sec (s : State) (n : Nat) (x : Tpo) : (s.setTpo n x).sec = s.sec := rfl
@[simp] theorem State.setTpo_out (s : State) (n : Nat) (x : Tpo) : (s.setTpo n x).out = s.out := rfl
@[simp] theorem State.setTpo_free (s : State) (n : Nat) (x : Tpo) : (s.setTpo n x).free = s.free := rfl

/-! ## setFn -/

@[simp] theorem State.setFn_pending (s : State) (v : Nat) (x : Fn) : (s.setFn v x).pending = s.pending := rfl
@[simp] theorem State.setFn_regs (s : State) (v : Nat) (x : Fn) : (s.setFn v x).regs = s.regs := rfl
@[simp] theorem State.setFn_latch (s : State) (v : Nat) (x : Fn) : (s.setFn v x).latch = s.latch := rfl
@[simp] theorem State.setFn_staged (s : State) (v : Nat) (x : Fn) : (s.setFn v x).staged = s.staged := rfl
@[simp] theorem State.setFn_rdata (s : State) (v : Nat) (x : Fn) : (s.setFn v x).rdata = s.rdata := rfl
@[simp] theorem State.setFn_mdata (s : State) (v : Nat) (x : Fn) : (s.setFn v x).mdata = s.mdata := rfl
@[simp] theorem State.setFn_map (s : State) (v : Nat) (x : Fn) : (s.setFn v x).map = s.map := rfl
@[simp] theorem State.setFn_hbm (s : State) (v : Nat) (x : Fn) : (s.setFn v x).hbm = s.hbm := rfl
@[simp] theorem State.setFn_host (s : State) (v : Nat) (x : Fn) : (s.setFn v x).host = s.host := rfl
@[simp] theorem State.setFn_store (s : State) (v : Nat) (x : Fn) : (s.setFn v x).store = s.store := rfl
@[simp] theorem State.setFn_dspMem (s : State) (v : Nat) (x : Fn) : (s.setFn v x).dspMem = s.dspMem := rfl
@[simp] theorem State.setFn_dspEcc (s : State) (v : Nat) (x : Fn) : (s.setFn v x).dspEcc = s.dspEcc := rfl
@[simp] theorem State.setFn_poison (s : State) (v : Nat) (x : Fn) : (s.setFn v x).poison = s.poison := rfl
@[simp] theorem State.setFn_csPoison (s : State) (v : Nat) (x : Fn) : (s.setFn v x).csPoison = s.csPoison := rfl
@[simp] theorem State.setFn_ecc (s : State) (v : Nat) (x : Fn) : (s.setFn v x).ecc = s.ecc := rfl
@[simp] theorem State.setFn_csEcc (s : State) (v : Nat) (x : Fn) : (s.setFn v x).csEcc = s.csEcc := rfl
@[simp] theorem State.setFn_wb (s : State) (v : Nat) (x : Fn) : (s.setFn v x).wb = s.wb := rfl
@[simp] theorem State.setFn_seqs (s : State) (v : Nat) (x : Fn) : (s.setFn v x).seqs = s.seqs := rfl
@[simp] theorem State.setFn_cls (s : State) (v : Nat) (x : Fn) : (s.setFn v x).cls = s.cls := rfl
@[simp] theorem State.setFn_sh (s : State) (v : Nat) (x : Fn) : (s.setFn v x).sh = s.sh := rfl
@[simp] theorem State.setFn_work (s : State) (v : Nat) (x : Fn) : (s.setFn v x).work = s.work := rfl
@[simp] theorem State.setFn_ro (s : State) (v : Nat) (x : Fn) : (s.setFn v x).ro = s.ro := rfl
@[simp] theorem State.setFn_dsp (s : State) (v : Nat) (x : Fn) : (s.setFn v x).dsp = s.dsp := rfl
@[simp] theorem State.setFn_acc (s : State) (v : Nat) (x : Fn) : (s.setFn v x).acc = s.acc := rfl
@[simp] theorem State.setFn_eth (s : State) (v : Nat) (x : Fn) : (s.setFn v x).eth = s.eth := rfl
@[simp] theorem State.setFn_time (s : State) (v : Nat) (x : Fn) : (s.setFn v x).time = s.time := rfl
@[simp] theorem State.setFn_hc (s : State) (v : Nat) (x : Fn) : (s.setFn v x).hc = s.hc := rfl
@[simp] theorem State.setFn_wipes (s : State) (v : Nat) (x : Fn) : (s.setFn v x).wipes = s.wipes := rfl
@[simp] theorem State.setFn_wipeAt (s : State) (v : Nat) (x : Fn) : (s.setFn v x).wipeAt = s.wipeAt := rfl
@[simp] theorem State.setFn_links (s : State) (v : Nat) (x : Fn) : (s.setFn v x).links = s.links := rfl
@[simp] theorem State.setFn_fab (s : State) (v : Nat) (x : Fn) : (s.setFn v x).fab = s.fab := rfl
@[simp] theorem State.setFn_mods (s : State) (v : Nat) (x : Fn) : (s.setFn v x).mods = s.mods := rfl
@[simp] theorem State.setFn_und (s : State) (v : Nat) (x : Fn) : (s.setFn v x).und = s.und := rfl
@[simp] theorem State.setFn_flt (s : State) (v : Nat) (x : Fn) : (s.setFn v x).flt = s.flt := rfl
@[simp] theorem State.setFn_life (s : State) (v : Nat) (x : Fn) : (s.setFn v x).life = s.life := rfl
@[simp] theorem State.setFn_pwr (s : State) (v : Nat) (x : Fn) : (s.setFn v x).pwr = s.pwr := rfl
@[simp] theorem State.setFn_rst (s : State) (v : Nat) (x : Fn) : (s.setFn v x).rst = s.rst := rfl
@[simp] theorem State.setFn_boot (s : State) (v : Nat) (x : Fn) : (s.setFn v x).boot = s.boot := rfl
@[simp] theorem State.setFn_sec (s : State) (v : Nat) (x : Fn) : (s.setFn v x).sec = s.sec := rfl
@[simp] theorem State.setFn_out (s : State) (v : Nat) (x : Fn) : (s.setFn v x).out = s.out := rfl
@[simp] theorem State.setFn_free (s : State) (v : Nat) (x : Fn) : (s.setFn v x).free = s.free := rfl

/-! ## msix -/

@[simp] theorem State.msix_pending (s : State) (v n : Nat) : (s.msix v n).pending = s.pending := rfl
@[simp] theorem State.msix_regs (s : State) (v n : Nat) : (s.msix v n).regs = s.regs := rfl
@[simp] theorem State.msix_latch (s : State) (v n : Nat) : (s.msix v n).latch = s.latch := rfl
@[simp] theorem State.msix_staged (s : State) (v n : Nat) : (s.msix v n).staged = s.staged := rfl
@[simp] theorem State.msix_rdata (s : State) (v n : Nat) : (s.msix v n).rdata = s.rdata := rfl
@[simp] theorem State.msix_mdata (s : State) (v n : Nat) : (s.msix v n).mdata = s.mdata := rfl
@[simp] theorem State.msix_map (s : State) (v n : Nat) : (s.msix v n).map = s.map := rfl
@[simp] theorem State.msix_hbm (s : State) (v n : Nat) : (s.msix v n).hbm = s.hbm := rfl
@[simp] theorem State.msix_host (s : State) (v n : Nat) : (s.msix v n).host = s.host := rfl
@[simp] theorem State.msix_store (s : State) (v n : Nat) : (s.msix v n).store = s.store := rfl
@[simp] theorem State.msix_dspMem (s : State) (v n : Nat) : (s.msix v n).dspMem = s.dspMem := rfl
@[simp] theorem State.msix_dspEcc (s : State) (v n : Nat) : (s.msix v n).dspEcc = s.dspEcc := rfl
@[simp] theorem State.msix_poison (s : State) (v n : Nat) : (s.msix v n).poison = s.poison := rfl
@[simp] theorem State.msix_csPoison (s : State) (v n : Nat) : (s.msix v n).csPoison = s.csPoison := rfl
@[simp] theorem State.msix_ecc (s : State) (v n : Nat) : (s.msix v n).ecc = s.ecc := rfl
@[simp] theorem State.msix_csEcc (s : State) (v n : Nat) : (s.msix v n).csEcc = s.csEcc := rfl
@[simp] theorem State.msix_wb (s : State) (v n : Nat) : (s.msix v n).wb = s.wb := rfl
@[simp] theorem State.msix_seqs (s : State) (v n : Nat) : (s.msix v n).seqs = s.seqs := rfl
@[simp] theorem State.msix_cls (s : State) (v n : Nat) : (s.msix v n).cls = s.cls := rfl
@[simp] theorem State.msix_sh (s : State) (v n : Nat) : (s.msix v n).sh = s.sh := rfl
@[simp] theorem State.msix_work (s : State) (v n : Nat) : (s.msix v n).work = s.work := rfl
@[simp] theorem State.msix_ro (s : State) (v n : Nat) : (s.msix v n).ro = s.ro := rfl
@[simp] theorem State.msix_dsp (s : State) (v n : Nat) : (s.msix v n).dsp = s.dsp := rfl
@[simp] theorem State.msix_acc (s : State) (v n : Nat) : (s.msix v n).acc = s.acc := rfl
@[simp] theorem State.msix_eth (s : State) (v n : Nat) : (s.msix v n).eth = s.eth := rfl
@[simp] theorem State.msix_time (s : State) (v n : Nat) : (s.msix v n).time = s.time := rfl
@[simp] theorem State.msix_hc (s : State) (v n : Nat) : (s.msix v n).hc = s.hc := rfl
@[simp] theorem State.msix_wipes (s : State) (v n : Nat) : (s.msix v n).wipes = s.wipes := rfl
@[simp] theorem State.msix_wipeAt (s : State) (v n : Nat) : (s.msix v n).wipeAt = s.wipeAt := rfl
@[simp] theorem State.msix_links (s : State) (v n : Nat) : (s.msix v n).links = s.links := rfl
@[simp] theorem State.msix_fab (s : State) (v n : Nat) : (s.msix v n).fab = s.fab := rfl
@[simp] theorem State.msix_mods (s : State) (v n : Nat) : (s.msix v n).mods = s.mods := rfl
@[simp] theorem State.msix_und (s : State) (v n : Nat) : (s.msix v n).und = s.und := rfl
@[simp] theorem State.msix_hst (s : State) (v n : Nat) : (s.msix v n).hst = s.hst := rfl
@[simp] theorem State.msix_flt (s : State) (v n : Nat) : (s.msix v n).flt = s.flt := rfl
@[simp] theorem State.msix_life (s : State) (v n : Nat) : (s.msix v n).life = s.life := rfl
@[simp] theorem State.msix_pwr (s : State) (v n : Nat) : (s.msix v n).pwr = s.pwr := rfl
@[simp] theorem State.msix_rst (s : State) (v n : Nat) : (s.msix v n).rst = s.rst := rfl
@[simp] theorem State.msix_boot (s : State) (v n : Nat) : (s.msix v n).boot = s.boot := rfl
@[simp] theorem State.msix_sec (s : State) (v n : Nat) : (s.msix v n).sec = s.sec := rfl
@[simp] theorem State.msix_free (s : State) (v n : Nat) : (s.msix v n).free = s.free := rfl

/-! ## Reading back -/

@[simp] theorem State.setSeq_seqOf (s : State) (i : Nat) (x : Seq) : (s.setSeq i x).seqOf i = x := Tbl.get_set_self _ _ _ _
theorem State.setSeq_seqOf_other (s : State) {i j : Nat} (x : Seq) (h : j ≠ i) : (s.setSeq i x).seqOf j = s.seqOf j :=
  Tbl.get_set_default _ _ _ _ h
@[simp] theorem State.setCl_clOf (s : State) (i : Nat) (x : Cluster) : (s.setCl i x).clOf i = x := Tbl.get_set_self _ _ _ _
theorem State.setCl_clOf_other (s : State) {i j : Nat} (x : Cluster) (h : j ≠ i) : (s.setCl i x).clOf j = s.clOf j :=
  Tbl.get_set_default _ _ _ _ h
@[simp] theorem State.setHc_hcOf (s : State) (i : Nat) (x : HbmCh) : (s.setHc i x).hcOf i = x := Tbl.get_set_self _ _ _ _
theorem State.setHc_hcOf_other (s : State) {i j : Nat} (x : HbmCh) (h : j ≠ i) : (s.setHc i x).hcOf j = s.hcOf j :=
  Tbl.get_set_default _ _ _ _ h
@[simp] theorem State.setCore_coreOf (s : State) (i : Nat) (x : DspCore) : (s.setCore i x).coreOf i = x := Tbl.get_set_self _ _ _ _
theorem State.setCore_coreOf_other (s : State) {i j : Nat} (x : DspCore) (h : j ≠ i) : (s.setCore i x).coreOf j = s.coreOf j :=
  Tbl.get_set_default _ _ _ _ h
@[simp] theorem State.setAcc_accOf (s : State) (i : Nat) (x : AccSt) : (s.setAcc i x).accOf i = x := Tbl.get_set_self _ _ _ _
theorem State.setAcc_accOf_other (s : State) {i j : Nat} (x : AccSt) (h : j ≠ i) : (s.setAcc i x).accOf j = s.accOf j :=
  Tbl.get_set_default _ _ _ _ h
@[simp] theorem State.setEth_ethOf (s : State) (i : Nat) (x : EthSt) : (s.setEth i x).ethOf i = x := Tbl.get_set_self _ _ _ _
theorem State.setEth_ethOf_other (s : State) {i j : Nat} (x : EthSt) (h : j ≠ i) : (s.setEth i x).ethOf j = s.ethOf j :=
  Tbl.get_set_default _ _ _ _ h
@[simp] theorem State.setTh_thOf (s : State) (i : Nat) (x : Thread) : (s.setTh i x).thOf i = x := Tbl.get_set_self _ _ _ _
theorem State.setTh_thOf_other (s : State) {i j : Nat} (x : Thread) (h : j ≠ i) : (s.setTh i x).thOf j = s.thOf j :=
  Tbl.get_set_default _ _ _ _ h
@[simp] theorem State.setLink_linkOf (s : State) (i : Nat) (x : Link) : (s.setLink i x).linkOf i = x := Tbl.get_set_self _ _ _ _
theorem State.setLink_linkOf_other (s : State) {i j : Nat} (x : Link) (h : j ≠ i) : (s.setLink i x).linkOf j = s.linkOf j :=
  Tbl.get_set_default _ _ _ _ h
@[simp] theorem State.setMod_modOf (s : State) (i : Nat) (x : OptMod) : (s.setMod i x).modOf i = x := Tbl.get_set_self _ _ _ _
theorem State.setMod_modOf_other (s : State) {i j : Nat} (x : OptMod) (h : j ≠ i) : (s.setMod i x).modOf j = s.modOf j :=
  Tbl.get_set_default _ _ _ _ h
@[simp] theorem State.setSrcPair_srcPair (s : State) (i : Nat) (x : PairSrc) : (s.setSrcPair i x).srcPair i = x := Tbl.get_set_self _ _ _ _
theorem State.setSrcPair_srcPair_other (s : State) {i j : Nat} (x : PairSrc) (h : j ≠ i) : (s.setSrcPair i x).srcPair j = s.srcPair j :=
  Tbl.get_set_default _ _ _ _ h
@[simp] theorem State.setDstPair_dstPair (s : State) (i : Nat) (x : PairDst) : (s.setDstPair i x).dstPair i = x := Tbl.get_set_self _ _ _ _
theorem State.setDstPair_dstPair_other (s : State) {i j : Nat} (x : PairDst) (h : j ≠ i) : (s.setDstPair i x).dstPair j = s.dstPair j :=
  Tbl.get_set_default _ _ _ _ h
@[simp] theorem State.setFn_fnOf (s : State) (i : Nat) (x : Fn) : (s.setFn i x).fnOf i = x := Tbl.get_set_self _ _ _ _
theorem State.setFn_fnOf_other (s : State) {i j : Nat} (x : Fn) (h : j ≠ i) : (s.setFn i x).fnOf j = s.fnOf j :=
  Tbl.get_set_default _ _ _ _ h
@[simp] theorem State.setTpo_tpoOf (s : State) (i : Nat) (x : Tpo) : (s.setTpo i x).tpoOf i = x := Tbl.get_set_self _ _ _ _
theorem State.setTpo_tpoOf_other (s : State) {i j : Nat} (x : Tpo) (h : j ≠ i) : (s.setTpo i x).tpoOf j = s.tpoOf j :=
  Tbl.get_set_default _ _ _ _ h

@[simp] theorem State.setRg_rg (s : State) (a : Nat) (v : Word) : (s.setRg a v).rg a = v := Tbl.get_set_self _ _ _ _
theorem State.setRg_rg_other (s : State) {a b : Nat} (v : Word) (h : b ≠ a) : (s.setRg a v).rg b = s.rg b :=
  Tbl.get_set_default _ _ _ _ h
@[simp] theorem State.setPr_pr (s : State) (k : PageKind) (i off : Nat) (v : Word) : (s.setPr k i off v).pr k i off = v :=
  Tbl.get_set_self _ _ _ _
theorem State.bump_pr (s : State) (k : PageKind) (i off n : Nat) : (s.bump k i off n).pr k i off = satAdd (s.pr k i off) n :=
  Tbl.get_set_self _ _ _ _
@[simp] theorem State.setItem_itemOf (s : State) (i : Nat) (x : Item) : (s.setItem i x).itemOf i = some x := by
  simp [State.setItem, State.itemOf]
theorem State.setItem_itemOf_other (s : State) {i j : Nat} (x : Item) (h : j ≠ i) : (s.setItem i x).itemOf j = s.itemOf j := by
  simp [State.setItem, State.itemOf, Tbl.look_put_other _ _ h]

end Sys2Proof.Machine
end

