-- ==== Sys2Proof/Laws/Outcome.lean ====
section
/-! SUPPORT. What every command's outcome looks like, what the end of a command does, and what raising an event can change. -/

namespace Sys2Proof.Machine

/-! ## The form of a meaning -/

/-- A command on a running device: its effect, then what its events call for. -/
theorem perform_awake {s : State} {f : State → State} (h : s.awake = true) : perform s f = .next (s.finish (f s)) := by
  simp [perform, performRaw, h]

/-- A command on a device that does not run. -/
theorem perform_asleep {s : State} {f : State → State} (h : s.awake = false) : perform s f = .next (s.finish s) := by
  simp [perform, performRaw, h]

/-- Where a command's effect is to leave the state, it leaves it whole. -/
theorem perform_eq_finish (s : State) (f : State → State) : perform s f = .next (s.finish (if s.awake then f s else s)) := rfl

@[simp] theorem finish_pending (s t : State) : (s.finish t).pending = s.pending := rfl

/-- Nothing is left to settle after a command. -/
@[simp] theorem finish_due (s t : State) : (s.finish t).flt.due = [] := rfl

theorem settleLoop_of_settled (t : State) (h : t.flt.due = []) (n : Nat) : t.settleLoop n = t := by
  cases n with
  | zero => rfl
  | succ n => simp [State.settleLoop, h]

/-- Settling does nothing where nothing is due. -/
theorem settle_of_settled (t : State) (h : t.Settled) : t.settle = t := by
  have h' : t.flt.due = [] := h
  simp only [State.settle, settleLoop_of_settled t h' 64, ← h']

/-- The end of a command whose effect has left nothing due. -/
theorem finish_of_settled (s t : State) (h : t.Settled) : s.finish t = { t with pending := s.pending } := by
  simp only [State.finish, settle_of_settled t h]

/-- The end of a command without effect. -/
theorem finish_self (s : State) (h : s.Settled) : s.finish s = s := finish_of_settled s s h

/-- Every command that goes through `perform` keeps the queue and settles. -/
theorem perform_keeps (s : State) (f : State → State) : ∃ t, perform s f = .next t ∧ t.pending = s.pending ∧ t.Settled :=
  ⟨_, rfl, rfl, rfl⟩

/-! ## What raising an event changes -/

/-- `t` differs from `s` at most in the registers, the fault state, the records that wait and what the device has sent. -/
def State.Reports (s t : State) : Prop :=
  t = { s with regs := t.regs, flt := t.flt, life := { s.life with pend := t.life.pend }, out := t.out }

theorem State.Reports.refl (s : State) : s.Reports s := rfl

theorem State.Reports.trans {s t u : State} (h : s.Reports t) (g : t.Reports u) : s.Reports u := by
  unfold State.Reports at *
  rw [g, h]

theorem State.reports_setRg (s : State) (a : Nat) (v : Word) : s.Reports (s.setRg a v) := rfl

theorem State.reports_alert (s : State) (n : Nat) : s.Reports (s.alert n) := by
  unfold State.alert
  dsimp only
  split <;> rfl

theorem State.reports_logEvent (s : State) (p : Page) (src kind sev : Nat) (info : Word) (d : Nat) :
    s.Reports (s.logEvent p src kind sev info d) := rfl

theorem State.reports_enqueue (s : State) (e : FqEntry) : s.Reports (s.enqueue e) := by
  unfold State.enqueue
  split
  · rfl
  · exact State.Reports.trans (t := s.bump .fault 0 0x060 1) rfl (State.reports_alert _ 4)

theorem State.reports_latchErr (s : State) (p : Page) (src : Nat) (info : Word) : s.Reports (s.latchErr p src info) := by
  unfold State.latchErr
  dsimp only
  split <;> rfl

theorem State.reports_report (s : State) (p : Page) (src sev : Nat) (info : Word) : s.Reports (s.report p src sev info) := by
  have h := State.reports_enqueue s ⟨src, sev, false, p.base / 256, info, s.ts32 (fld (s.pr .fault 0 0x040) 8 3)⟩
  unfold State.report
  by_cases h0 : sev = 0
  · simp only [h0, if_true]
    exact State.Reports.refl s
  · simp only [h0, if_false]
    generalize s.enqueue ⟨src, sev, false, p.base / 256, info, s.ts32 (fld (s.pr .fault 0 0x040) 8 3)⟩ = t at h ⊢
    have h1 := h.trans (State.reports_logEvent t p src (if src = 0x0202 then 3 else 1) sev info 0)
    generalize t.logEvent p src (if src = 0x0202 then 3 else 1) sev info 0 = u at h1 ⊢
    split <;> split <;> (try split) <;> exact h1.trans rfl

theorem State.reports_reportChange (s : State) (p : Page) (src sev : Nat) (info : Word) :
    s.Reports (s.reportChange p src sev info) :=
  State.Reports.trans (State.reports_enqueue s _) (State.reports_logEvent _ p src 2 sev info 0)

theorem State.reports_scoreChange (s : State) (c u : Nat) : s.Reports (s.scoreChange c u) := rfl
theorem State.reports_scoreEvent (s : State) (c u : Nat) : s.Reports (s.scoreEvent c u) := rfl
theorem State.reports_countSrc (s : State) (k : Nat) : s.Reports (s.countSrc k) := rfl

theorem State.reports_event (s : State) (p : Page) (i : Nat) (info : Word) : s.Reports (s.event p i info).1 := by
  unfold State.event
  extract_lets src was s1 s2 now sev change full s3 s4 s5 s6
  have h2 : s.Reports s2 := by
    show s.Reports (match unitOfSource p i info with
      | some (c, u, true) => s1.scoreEvent c u
      | _ => s1)
    split
    · exact State.Reports.trans (t := s1) (State.reports_countSrc s _) (State.reports_scoreEvent s1 _ _)
    · exact State.reports_countSrc s _
  have h4 : s.Reports s4 := (h2.trans (State.reports_latchErr s2 p src info)).trans (State.reports_report s3 p src sev info)
  have h5 : s.Reports s5 := h4.trans (State.reports_reportChange s4 p src sev info)
  have h6 : s.Reports s6 := by
    show s.Reports (if change then
        (match unitOfSource p i info with
        | some (c, u, _) => s5.scoreChange c u
        | none => s5)
      else s4)
    split
    · split
      · exact h5.trans (State.reports_scoreChange s5 _ _)
      · exact h5
    · exact h4
  clear_value s6
  split
  · exact h2
  · exact h6.trans rfl

/-- Raising an event (R397 to R400, R417) changes nothing but the fault state, registers, the life log and messages sent. -/
theorem State.reports_raise (s : State) (p : Page) (i : Nat) (info : Word) : s.Reports (s.raise p i info) := by
  have h1 : s.Reports (s.raise0 p i info).1 := by
    unfold State.raise0
    dsimp only
    split
    · exact (State.reports_event s p i info).trans (State.reports_event _ _ 1 0)
    · exact State.reports_event s p i info
  exact h1.trans rfl

/-! ## Memories, queue and work under an event -/

@[simp] theorem State.raise_pending (s : State) (p : Page) (i : Nat) (info : Word) : (s.raise p i info).pending = s.pending := by
  rw [State.reports_raise s p i info]
@[simp] theorem State.raise_hbm (s : State) (p : Page) (i : Nat) (info : Word) : (s.raise p i info).hbm = s.hbm := by
  rw [State.reports_raise s p i info]
@[simp] theorem State.raise_host (s : State) (p : Page) (i : Nat) (info : Word) : (s.raise p i info).host = s.host := by
  rw [State.reports_raise s p i info]
@[simp] theorem State.raise_dspMem (s : State) (p : Page) (i : Nat) (info : Word) : (s.raise p i info).dspMem = s.dspMem := by
  rw [State.reports_raise s p i info]
@[simp] theorem State.raise_dspEcc (s : State) (p : Page) (i : Nat) (info : Word) : (s.raise p i info).dspEcc = s.dspEcc := by
  rw [State.reports_raise s p i info]
@[simp] theorem State.raise_lifeMem (s : State) (p : Page) (i : Nat) (info : Word) :
    (s.raise p i info).life.mem = s.life.mem := by
  rw [State.reports_raise s p i info]
@[simp] theorem State.raise_store (s : State) (p : Page) (i : Nat) (info : Word) : (s.raise p i info).store = s.store := by
  rw [State.reports_raise s p i info]
@[simp] theorem State.raise_poison (s : State) (p : Page) (i : Nat) (info : Word) : (s.raise p i info).poison = s.poison := by
  rw [State.reports_raise s p i info]
@[simp] theorem State.raise_ecc (s : State) (p : Page) (i : Nat) (info : Word) : (s.raise p i info).ecc = s.ecc := by
  rw [State.reports_raise s p i info]
@[simp] theorem State.raise_wb (s : State) (p : Page) (i : Nat) (info : Word) : (s.raise p i info).wb = s.wb := by
  rw [State.reports_raise s p i info]
@[simp] theorem State.raise_work (s : State) (p : Page) (i : Nat) (info : Word) : (s.raise p i info).work = s.work := by
  rw [State.reports_raise s p i info]
@[simp] theorem State.raise_seqs (s : State) (p : Page) (i : Nat) (info : Word) : (s.raise p i info).seqs = s.seqs := by
  rw [State.reports_raise s p i info]
@[simp] theorem State.raise_cls (s : State) (p : Page) (i : Nat) (info : Word) : (s.raise p i info).cls = s.cls := by
  rw [State.reports_raise s p i info]
@[simp] theorem State.raise_links (s : State) (p : Page) (i : Nat) (info : Word) : (s.raise p i info).links = s.links := by
  rw [State.reports_raise s p i info]
@[simp] theorem State.raise_fab (s : State) (p : Page) (i : Nat) (info : Word) : (s.raise p i info).fab = s.fab := by
  rw [State.reports_raise s p i info]
@[simp] theorem State.raise_hst (s : State) (p : Page) (i : Nat) (info : Word) : (s.raise p i info).hst = s.hst := by
  rw [State.reports_raise s p i info]
@[simp] theorem State.raise_time (s : State) (p : Page) (i : Nat) (info : Word) : (s.raise p i info).time = s.time := by
  rw [State.reports_raise s p i info]
@[simp] theorem State.raise_pwr (s : State) (p : Page) (i : Nat) (info : Word) : (s.raise p i info).pwr = s.pwr := by
  rw [State.reports_raise s p i info]
@[simp] theorem State.raise_rst (s : State) (p : Page) (i : Nat) (info : Word) : (s.raise p i info).rst = s.rst := by
  rw [State.reports_raise s p i info]
@[simp] theorem State.raise_boot (s : State) (p : Page) (i : Nat) (info : Word) : (s.raise p i info).boot = s.boot := by
  rw [State.reports_raise s p i info]

end Sys2Proof.Machine
end

