-- ==== Sys2Proof/Laws/Memory.lean ====
section
/-! SUPPORT. The operations on HBM and the cluster stores keep the byte memories in their canonical form. -/

namespace Sys2Proof.Machine

/-- Two states with the same memories. -/
theorem State.MemWf.of_eq {s t : State} (h : s.MemWf) (h1 : t.hbm = s.hbm) (h2 : t.host = s.host) (h3 : t.store = s.store)
    (h4 : t.dspMem = s.dspMem) (h5 : t.life.mem = s.life.mem) : t.MemWf := by
  unfold State.MemWf at *
  rw [h1, h2, h3, h4, h5]
  exact h

theorem State.MemWf.raise {s : State} (h : s.MemWf) (p : Page) (i : Nat) (info : Word) : (s.raise p i info).MemWf :=
  h.of_eq (by simp) (by simp) (by simp) (by simp) (by simp)

theorem State.MemWf.withHbm {s : State} (h : s.MemWf) {m : Memory} (hm : m.wf = true) (t : State) (h1 : t.hbm = m)
    (h2 : t.host = s.host) (h3 : t.store = s.store) (h4 : t.dspMem = s.dspMem) (h5 : t.life.mem = s.life.mem) : t.MemWf := by
  unfold State.MemWf at *
  rw [h1, h2, h3, h4, h5]
  exact ⟨hm, h.2⟩

theorem State.MemWf.withStore {s : State} (h : s.MemWf) {m : Memory} (hm : m.wf = true) (t : State) (h1 : t.hbm = s.hbm)
    (h2 : t.host = s.host) (h3 : t.store = m) (h4 : t.dspMem = s.dspMem) (h5 : t.life.mem = s.life.mem) : t.MemWf := by
  unfold State.MemWf at *
  rw [h1, h2, h3, h4, h5]
  exact ⟨h.1, h.2.1, hm, h.2.2.2⟩

/-! ## Reading under the code -/

theorem Checked.word_keeps_wf (c : Checked) (w : Nat) (h : c.mem.wf = true) : (c.word w).mem.wf = true := by
  unfold Checked.word
  dsimp only
  split
  · exact h
  · split
    · exact h
    · exact Memory.putNum_keeps_wf _ _ _ _ h

theorem Checked.words_keeps_wf (n : Nat) (c : Checked) (w : Nat) (h : c.mem.wf = true) : (c.words w n).mem.wf = true := by
  induction n generalizing c w with
  | zero => exact h
  | succ n ih => exact ih _ _ (c.word_keeps_wf w h)

theorem State.noteRow_keeps_memWf {s : State} (h : s.MemWf) (inst row n : Nat) : (s.noteRow inst row n).MemWf :=
  h.of_eq rfl rfl rfl rfl rfl

theorem State.MemWf.setPr {s : State} (h : s.MemWf) (k : PageKind) (i off : Nat) (v : Word) : (s.setPr k i off v).MemWf := h
theorem State.MemWf.bump {s : State} (h : s.MemWf) (k : PageKind) (i off n : Nat) : (s.bump k i off n).MemWf := h
theorem State.MemWf.bump64 {s : State} (h : s.MemWf) (k : PageKind) (i off n : Nat) : (s.bump64 k i off n).MemWf := h
theorem State.MemWf.eccLast {s : State} (h : s.MemWf) (inst p q kind : Nat) : (s.eccLast inst p q kind).MemWf := h

theorem State.hbmWord_keeps_memWf {s : State} (h : s.MemWf) (f : Nat × Ecc) : (s.hbmWord f).MemWf := by
  unfold State.hbmWord
  dsimp only
  split
  · exact h
  · exact (State.noteRow_keeps_memWf ((h.bump _ _ _ _).eccLast _ _ _ _) _ _ _).raise _ _ _
  · exact (State.noteRow_keeps_memWf ((h.bump _ _ _ _).eccLast _ _ _ _) _ _ _).raise _ _ _
  · exact h.eccLast _ _ _ _

/-- A fold keeps what each of its steps keeps. -/
theorem foldl_keeps {α β : Type} (P : β → Prop) (f : β → α → β) (l : List α) (b : β) (h : P b)
    (hf : ∀ b a, P b → P (f b a)) : P (l.foldl f b) := by
  induction l generalizing b with
  | nil => exact h
  | cons a l ih => exact ih _ (hf b a h)

theorem State.hbmPoison_keeps_memWf {s : State} (h : s.MemWf) (line : Nat) : (s.hbmPoison line).MemWf := by
  unfold State.hbmPoison
  extract_lets a inst s1
  have h1 : s1.MemWf := h
  clear_value s1
  exact (State.noteRow_keeps_memWf (h1.bump _ _ _ _) _ _ _).raise _ _ _

theorem State.hbmCheck_keeps_memWf {s : State} (h : s.MemWf) (w n : Nat) : (s.hbmCheck w n).1.MemWf := by
  unfold State.hbmCheck
  extract_lets c s1 s2
  have hc : c.mem.wf = true := Checked.words_keeps_wf n _ w h.1
  have h1 : s1.MemWf := h.withHbm hc _ rfl rfl rfl rfl rfl
  have h2 : s2.MemWf := foldl_keeps State.MemWf State.hbmWord c.found s1 h1 fun _ f hb => State.hbmWord_keeps_memWf hb f
  clear_value s2
  split
  · exact State.hbmPoison_keeps_memWf h2 _
  · show State.MemWf (if _ then _ else _)
    split
    · exact h2.of_eq rfl rfl rfl rfl rfl
    · exact h2

theorem State.hbmLineRead_keeps_memWf {s : State} (h : s.MemWf) (line : Nat) (spec : Bool) :
    (s.hbmLineRead line spec).1.MemWf := by
  unfold State.hbmLineRead
  extract_lets inst s1
  have h1 : s1.MemWf := h.bump64 _ _ _ _
  clear_value s1
  by_cases h2 : s.stackFault inst = true
  · simp only [h2, if_true]
    exact h
  · by_cases h3 : s1.poison.contains line = true
    · simp only [h2, h3, if_true]
      exact h1.bump _ _ _ _
    · simp only [h2, h3]
      have h4 := State.hbmCheck_keeps_memWf h1 (8 * line) 8
      generalize s1.hbmCheck (8 * line) 8 = x at h4 ⊢
      exact h4

theorem State.hbmRead_keeps_memWf {s : State} (h : s.MemWf) (off n : Nat) (spec : Bool) : (s.hbmRead off n spec).1.MemWf :=
  foldl_keeps (fun p : State × Option (List Byte) => p.1.MemWf) _ _ _ h fun _ sp hb =>
    State.hbmLineRead_keeps_memWf hb sp.1 spec

/-! ## Writing -/

theorem State.hbmLineWrite_keeps_memWf {s : State} (h : s.MemWf) (line : Nat) (data : List Byte) (poison : Bool) :
    (s.hbmLineWrite line data poison).1.MemWf := by
  unfold State.hbmLineWrite
  extract_lets inst s1
  have h1 : s1.MemWf := h.bump64 _ _ _ _
  clear_value s1
  split
  · exact h
  · exact h1.withHbm (Memory.write_keeps_wf _ _ _ h1.1) _ rfl rfl rfl rfl rfl

theorem State.hbmZero_keeps_memWf {s : State} (h : s.MemWf) (off n : Nat) : (s.hbmZero off n).MemWf :=
  h.withHbm (Memory.zero_keeps_wf _ _ _ h.1) _ rfl rfl rfl rfl rfl

theorem State.csZero_keeps_memWf {s : State} (h : s.MemWf) (k off n : Nat) : (s.csZero k off n).MemWf :=
  h.withStore (Memory.zero_keeps_wf _ _ _ h.2.2.1) _ rfl rfl rfl rfl rfl

theorem State.lifeWrite_keeps_memWf {s : State} (h : s.MemWf) (off : Nat) (b : List Byte) : (s.lifeWrite off b).MemWf :=
  ⟨h.1, h.2.1, h.2.2.1, h.2.2.2.1, Memory.write_keeps_wf _ _ _ h.2.2.2.2⟩

/-! ## Words without erring positions -/

/-- Words without erring positions are found good, and nothing else changes. -/
theorem Checked.words_of_clean (n w : Nat) (c : Checked) (h : c.ecc = []) :
    ∃ l, c.words w n = { c with found := c.found ++ l } ∧ ∀ f ∈ l, f.2 = .good := by
  induction n generalizing w c with
  | zero => exact ⟨[], by simp [Checked.words], by simp⟩
  | succ n ih =>
    have e : c.word w = { c with found := c.found ++ [(w, .good)] } := by
      unfold Checked.word
      simp [h, Tbl.get, eccFew]
    obtain ⟨l, h1, h2⟩ := ih (w + 1) (c.word w) (by rw [e]; exact h)
    refine ⟨(w, .good) :: l, ?_, ?_⟩
    · rw [Checked.words, h1, e]; simp
    · simpa using h2

/-- Among good words none is uncorrectable. -/
theorem any_isBad_of_good (l : List (Nat × Ecc)) (h : ∀ f ∈ l, f.2 = .good) : (l.any fun f => f.2.isBad) = false := by
  rw [List.any_eq_false]
  intro f hf
  rw [h f hf]
  exact Bool.false_ne_true

/-- A fold that acts on corrected words alone does nothing over good ones. -/
theorem foldl_fixed_of_good {β : Type} (g : β → Nat × Ecc → β) (l : List (Nat × Ecc)) (b : β) (h : ∀ f ∈ l, f.2 = .good) :
    l.foldl (fun b f => if f.2.fixed then g b f else b) b = b := by
  induction l generalizing b with
  | nil => rfl
  | cons a l ih =>
    have hf : Ecc.good.fixed = false := rfl
    rw [List.foldl_cons, h a (List.mem_cons_self ..), hf]
    exact ih b fun f m => h f (List.mem_cons_of_mem _ m)

/-- A cluster store whose words hold no erring positions checks good and stays as it was. -/
theorem State.csCheck_of_clean {s : State} (h : s.csEcc = []) (k w n : Nat) : s.csCheck k w n = (s, true) := by
  obtain ⟨l, h1, h2⟩ := Checked.words_of_clean n w { mem := s.store, ecc := s.csEcc, free := s.free, found := [] } h
  unfold State.csCheck
  simp [h1, any_isBad_of_good l h2,
    foldl_fixed_of_good (fun t _ => State.raise t (pageAt .clus k) 1 (csInfo (8 * w - k * csSize))) l s h2,
    foldl_fixed_of_good (fun e f => Tbl.set [] e f.1 []) l s.csEcc h2]

/-- A store without erring positions or poison answers every read and stays as it was. -/
theorem State.csRead_of_clean {s : State} (h : s.csEcc = []) (hp : s.csPoison = []) (k off n : Nat) :
    ∃ b, s.csRead k off n = (s, some b) := by
  unfold State.csRead
  refine foldl_keeps (fun p => ∃ b, p = (s, some b)) _ _ _ ⟨_, rfl⟩ ?_
  rintro _ sp ⟨b, rfl⟩
  exact ⟨b ++ s.store.read (64 * sp.1 + sp.2.1) sp.2.2, by simp [hp, State.csCheck_of_clean h]⟩

/-- Memories of a core whose words hold no erring positions check good and stay as they were. -/
theorem State.dspCheck_of_clean {s : State} (h : s.dspEcc = []) (k a n : Nat) : s.dspCheck k a n = (s, true) := by
  simp [State.dspCheck, h]

/-- Checking words of a core's memories keeps the canonical form. -/
theorem State.dspCheck_keeps_memWf {s : State} (h : s.MemWf) (k a n : Nat) : (s.dspCheck k a n).1.MemWf := by
  unfold State.dspCheck
  split
  · exact h
  · have hc := Checked.words_keeps_wf ((a + n + 7) / 8 - a / 8) { mem := s.dspMem, ecc := s.dspEcc, free := s.free, found := [] }
      (a / 8) h.2.2.2.1
    refine foldl_keeps State.MemWf _ _ _ ⟨h.1, h.2.1, h.2.2.1, hc, h.2.2.2.2⟩ ?_
    intro t f ht
    dsimp only
    split
    · exact ht.raise _ _ _
    · split
      · exact ht.raise _ _ _
      · exact ht

/-- Checking the first or last word of a write, where the write covers only a part of it, keeps the canonical form. -/
theorem State.dspCheckPart_keeps_memWf {s : State} (h : s.MemWf) (k a r : Nat) :
    (if r = 0 then (s, true) else s.dspCheck k a 1).1.MemWf := by
  split
  · exact h
  · exact s.dspCheck_keeps_memWf h _ _ _

/-- A write to a core's memories keeps the canonical form. -/
theorem State.dspPut_keeps_memWf {s : State} (h : s.MemWf) (k a : Nat) (data : List Byte) : (s.dspPut k a data).1.MemWf := by
  have h1 := State.dspCheckPart_keeps_memWf h k a (a % 8)
  unfold State.dspPut
  generalize (if a % 8 = 0 then (s, true) else s.dspCheck k a 1) = p at h1 ⊢
  have h2 := State.dspCheckPart_keeps_memWf h1 k (a + data.length - 1) ((a + data.length) % 8)
  dsimp only
  generalize (if (a + data.length) % 8 = 0 then (p.1, true) else p.1.dspCheck k (a + data.length - 1) 1) = q at h2 ⊢
  cases p.2 && q.2 with
  | false => exact h2
  | true => exact ⟨h2.1, h2.2.1, h2.2.2.1, Memory.write_keeps_wf _ _ _ h2.2.2.2.1, h2.2.2.2.2⟩

end Sys2Proof.Machine
end

