-- ==== Sys2Proof/Tests/Slice0.lean ====
section
/-! SUPPORT. Small tests: each check of WellFormed refuses an ill-formed command, the spec's own numbers, and for every
statement of the Obligations with hypotheses a state and operands that meet them. -/

namespace Sys2Proof.Tests

open Sys2Proof.Machine

set_option Elab.async false

/-! ## Well-formed commands -/

/-- A fabric request with no data. -/
def req0 : FabReq :=
  { src := 1, dst := 0, seqNo := 0, epoch := 0, attempt := 0, fpid := 7, off := 0, bytes := 7, rid := 0, spec := false,
    poison := false, tag := none, aopc := 0, w64 := true, data := [] }

/-- Commands that break one condition each, in the order of `Instr.wf`. -/
theorem test_illFormed_refused_1 :
    Instr.wf (.registerWrite .fw .w32 0x42 0) = false
      ∧ Instr.wf (.registerWrite .fw .w64 0x44 0) = false
      ∧ Instr.wf (.registerPairLoRead .fw .w32 0x041) = false
      ∧ Instr.wf (.registerPairHiWrite .fw 0x046 0) = false
      ∧ Instr.wf (.holeAccess .fw true 0x1001 0) = false
      ∧ Instr.wf (.kstepIssue 0 0 [⟨.chorus 3, 7, false⟩, ⟨.chorus 3, 7, false⟩]) = false
      ∧ Instr.wf (.dspMemoryError 0 2 0x10000 []) = false
      ∧ Instr.wf (.dspMemoryError 0 0 0 [4, 4]) = false
      ∧ Instr.wf (.accelEngineError 0 0 0 false [4, 4]) = false
      ∧ Instr.wf (.timeStateCheck 1 [4, 4]) = false
      ∧ Instr.wf (.frameReceive 0 1 [] true 0 0) = false
      ∧ Instr.wf (.ptpFrameReceive 0 1 []) = false
      ∧ Instr.wf (.hbmRead 0x300000000 false false []) = false := by
  decide +kernel

/-- Commands that break one condition each, in the order of `Instr.wf`. -/
theorem test_illFormed_refused_2 :
    Instr.wf (.hbmRead 0 false false [5, 5]) = false
      ∧ Instr.wf (.hbmWrite 0x300000000 0 false) = false
      ∧ Instr.wf (.hbmPartialWrite 0x300000000 0 [1]) = false
      ∧ Instr.wf (.hbmPartialWrite 0 0 []) = false
      ∧ Instr.wf (.hbmPartialWrite 0 63 [1, 2]) = false
      ∧ Instr.wf (.correctedWriteBack 0x300000000) = false
      ∧ Instr.wf (.hbmScrubRead 0 [1, 1]) = false
      ∧ Instr.wf (.csScrubRead 0 [2, 2]) = false
      ∧ Instr.wf (.flitReceive 0 ⟨.data, 0, 0, [0, 0, 0], true, [], false, none⟩) = false
      ∧ Instr.wf (.rd { req0 with data := [1] }) = false := by
  decide +kernel

/-- Commands that break one condition each, in the order of `Instr.wf`. -/
theorem test_illFormed_refused_3 :
    Instr.wf (.wr req0) = false
      ∧ Instr.wf (.atom { req0 with bytes := 3 }) = false
      ∧ Instr.wf (.mirw req0) = false
      ∧ Instr.wf (.mirc req0) = false
      ∧ Instr.wf (.rdrsp { src := 1, dst := 0 } 0 false (List.replicate 257 0)) = false
      ∧ Instr.wf (.moduleInsert 0 []) = false
      ∧ Instr.wf (.modulePoll 0 ⟨true, 0, 0, 0, false, 0, 0, []⟩) = false
      ∧ Instr.wf (.optIntAssert [⟨4, false, 0, 0⟩, ⟨4, true, 0, 0⟩]) = false
      ∧ Instr.wf (.severityBucketExpire 0x80) = false
      ∧ Instr.wf (.pgErrRelease 0x1C false) = false := by
  decide +kernel

/-- Commands that break one condition each, in the order of `Instr.wf`. -/
theorem test_illFormed_refused_4 :
    Instr.wf (.pgErrOvfClear 0x18) = false
      ∧ Instr.wf (.snapshot [1]) = false
      ∧ Instr.wf (.softReset 0x800) = false
      ∧ Instr.wf (.bootMemoryComplete [1, 1]) = false
      ∧ Instr.wf (.bootMapComplete [(0, 143), (0, 143)] none) = false
      ∧ Instr.wf (.bootMapComplete [(0, 144)] none) = false
      ∧ Instr.wf (.lcRequest [] true) = false := by
  decide +kernel

/-- Their well-formed neighbours. -/
theorem test_wellFormed_accepted_1 :
    Instr.wf (.registerWrite .fw .w32 0x44 0) = true
      ∧ Instr.wf (.registerWrite .fw .w64 0x48 0) = true
      ∧ Instr.wf (.registerWrite .fw .w8 0x41 0) = true
      ∧ Instr.wf (.registerPairLoRead .fw .w32 0x040) = true
      ∧ Instr.wf (.holeAccess .fw true 0x1000 0) = true
      ∧ Instr.wf (.kstepIssue 0 0 [⟨.chorus 3, 7, false⟩, ⟨.chorus 3, 8, false⟩]) = true
      ∧ Instr.wf (.dspMemoryError 0 2 0xFFFF [4, 5]) = true
      ∧ Instr.wf (.frameReceive 0 1 [1] true 0 0) = true
      ∧ Instr.wf (.hbmRead 0x2FFFFFFFF false false [5, 6]) = true
      ∧ Instr.wf (.hbmPartialWrite 0 62 [1, 2]) = true := by
  decide +kernel

/-- Their well-formed neighbours. -/
theorem test_wellFormed_accepted_2 :
    Instr.wf (.flitReceive 0 ⟨.data, 0, 0, [0, 0, 0, 0], true, [], false, none⟩) = true
      ∧ Instr.wf (.rd req0) = true
      ∧ Instr.wf (.wr { req0 with data := List.replicate 8 0 }) = true
      ∧ Instr.wf (.atom req0) = true
      ∧ Instr.wf (.rdrsp { src := 1, dst := 0 } 0 false (List.replicate 256 0)) = true
      ∧ Instr.wf (.moduleInsert 0 (List.replicate 14 0)) = true
      ∧ Instr.wf (.snapshot []) = true
      ∧ Instr.wf (.softReset 0x1000) = true
      ∧ Instr.wf (.bootMapComplete [(0, 143)] none) = true
      ∧ Instr.wf (.lcRequest (List.replicate 256 0) true) = true := by
  decide +kernel

/-! ## A running device -/

/-- A device that has booted: READY, nothing waiting, every other field at reset. -/
def up : State := { rst := { cold := false, sysResetN := true }, boot := { phase := 7, ready := true } }

theorem test_up_runs : up.awake = true ∧ up.Settled ∧ up.QueueWf ∧ up.MemWf :=
  ⟨rfl, rfl, fun _ h => absurd h (by simp [up]), ⟨rfl, rfl, rfl, rfl, rfl⟩⟩

/-- The two steps that start a boot from reset: SYS_RESET_N rises, and the ROM ends phase 1. -/
theorem test_boot_starts :
    ∃ s t, exec .sysResetRelease State.reset = .next s ∧ exec .bootRomComplete s = .next t ∧ s.boot.phase = 1 ∧ t.boot.phase = 2 :=
  ⟨_, _, rfl, rfl, rfl, rfl⟩


/-! ## Registers, pages and the map -/

theorem test_witness_StepIsTheFrontCommand :
    ({ up with pending := [.fqSrcRead, .set] } : State).pending = [Instr.fqSrcRead, .set] ∧ up.pending = [] := ⟨rfl, rfl⟩

theorem test_witness_EveryCommandRuns :
    ({ up with pending := [.fqSrcRead] } : State).pending = [Instr.fqSrcRead] ∧ up.flt.due = []
      ∧ ({ up with flt := { up.flt with due := [DueAct.fatal 0x400000 1 0] } } : State).flt.due = [DueAct.fatal 0x400000 1 0]
      ∧ (State.act { up with flt := { up.flt with due := [] } } (DueAct.fatal 0x400000 1 0)).flt.due = [] := by
  decide +kernel

theorem test_witness_SettledKept :
    ({ up with pending := [.fqSrcRead] } : State).Settled ∧ ({ up with pending := [.fqSrcRead] } : State).QueueWf
      ∧ ∃ t, step { up with pending := [.fqSrcRead] } = .next t :=
  ⟨rfl, fun c h => by simp at h; subst h; rfl, _, rfl⟩

theorem test_witness_AsleepDevice :
    State.reset.awake = false ∧ State.reset.flt.due = [] ∧ Instr.fqSrcRead ≠ .sysResetAssert ∧ Instr.fqSrcRead ≠ .sysResetRelease
      ∧ Instr.fqSrcRead ≠ .vinLow ∧ Instr.fqSrcRead ≠ .vinRestore ∧ Instr.fqSrcRead ≠ .aonLoss
      ∧ Instr.fqSrcRead ≠ .vddAonRestore := by decide

theorem test_witness_StoresReadBack :
    (2 ^ 64 - 1 < 2 ^ 64) ∧ (∃ r, regAt 0x01001C = some r ∧ r.rw.getLsbD 0 = true ∧ r.w1c.getLsbD 0 = false)
      ∧ regAt 0x000200 = none ∧ (0 < 2 ^ 32) ∧ (3 < 4 ∨ 4 + 2 ≤ 3) ∧ (6 < 4 ∨ 4 + 2 ≤ 6)
      ∧ Memory.wf [] = true ∧ Memory.wf [(1, 2), (5, 3)] = true := by
  exact ⟨by decide, ⟨_, rfl, by decide, by decide⟩, by decide, by decide, by decide, by decide, rfl, by decide⟩

theorem test_witness_UndefinedOffsets :
    up.reaches .pcie0 = true ∧ pageOf ((0x000200 : BitVec 28).toNat / 4 * 4) = some (pageAt .chip 0, 0x200)
      ∧ up.pageShut (pageAt .chip 0) = false ∧ regSpec .chip 0x200 = none
      ∧ pageOf ((0x912FFC : BitVec 28).toNat / 4 * 4) = some (pageAt .optm 47, 0xFC)
      ∧ up.pageShut (pageAt .optm 47) = false ∧ regSpec .optm 0xFC = none ∧ Width.w32 ≠ .w64 := by
  decide +kernel

theorem test_witness_PairsLatch :
    (0x48 : Nat) < 2 ^ 28 ∧ ¬(Requestor.pcie1 = .pcie0 ∧ (0x48 : Nat) = 0x48)
      ∧ Tbl.get none up.staged (pairKey .pcie0 0x0F0) = none
      ∧ up.readActs (pageAt .chip 0) 0x0F0 = none ∧ (regSpec .chip 0x0F0).map (·.pair) = some .lo
      ∧ up.readActs (pageAt .chip 0) 0x0F4 = none ∧ (regSpec .chip 0x0F4).map (·.pair) = some .hi := by
  decide +kernel

/-- A register of each kind that the clauses of RegisterCommands name: a plain one, both halves of a pair, a header one; a shut
page, a hole. -/
theorem test_witness_RegisterCommands :
    up.reaches .pcie0 = true
      ∧ pageOf ((0x000108 : BitVec 28).toNat / 4 * 4) = some (pageAt .chip 0, 0x108)
      ∧ up.pageShut (pageAt .chip 0) = false ∧ up.readActs (pageAt .chip 0) 0x108 = none
      ∧ (regSpec .chip 0x108).map (·.pair) = some .none ∧ up.ringLocked (pageAt .chip 0) 0x108 = false
      ∧ (regSpec .chip 0x0F0).any (fun r => r.rw != 0) = true ∧ (regSpec .chip 0x0F4).any (fun r => r.rw != 0) = true
      ∧ ({ up with rst := { up.rst with warm := true } } : State).pageShut (pageAt .chip 0) = true
      ∧ up.rst.warm = false ∧ pageOf ((0x001000 : BitVec 28).toNat / 4 * 4) = none
      ∧ ({ up with boot := { up.boot with ready := false } } : State).boot.ready = false ∧ Requestor.pcie0 ≠ .fw := by
  decide +kernel

/-- A PROVISIONED device of variant A with one retired cluster of quarter 0 that waits for a spare. -/
def waiting1 : State := { up with map := { waiting := [(clsCluster, 3, 3)] } }
/-- The same with its bring-in running. -/
def running1 : State := { up with map := { running := [(0, ⟨clsCluster, 3, 3, 32⟩)] } }

theorem test_witness_SparesStandIn :
    up.servesDie 0 = true ∧ (clsCluster, 3, 3) ∈ waiting1.map.waiting ∧ unitDie clsCluster 3 = 0
      ∧ Tbl.look waiting1.map.running 0 = none ∧ (waiting1.curMap.spareFor waiting1.sec.variant clsCluster 3).isSome = true
      ∧ Tbl.look running1.map.running 0 = some ⟨clsCluster, 3, 3, 32⟩ ∧ clsCluster ≠ clsUnit
      ∧ ({ up with rst := { up.rst with doms := [0] } } : State).servesDie 0 = false := by
  decide +kernel

theorem test_witness_MapSnapshot :
    0x404C ≤ 0x404C ∧ (0x060 ≤ 0x07C ∧ 0x07C < 0x080)
      ∧ ({ up with boot := { up.boot with ready := false } } : State).inPhase 7 = true := by
  decide +kernel

/-! ## Streams -/

/-- A task of a graph: PLAYING. -/
def task1 : Task :=
  { ty := 1, cls := 0, flags := 0, succ := [], affinity := 0, entry := 0, seed := 0, scenes := 0, pfSrc := 0, pfBytes := 0,
    pfDst := 0, st := .playing, dep := 0 }
/-- An item of the PF with that task. -/
def item1 : Item := { fn := 0, queue := 0, seqNo := 9, tag := 0, kind := 2, mode := 0, desc := 0, gen := 1, tasks := [task1] }
/-- A sequencer at line 0 of a stream of `n` lines in host memory. -/
def seq1 (n : Nat) (pt : StreamPt) : Seq := { running := true, entry := 2 ^ 49, lines := n, pt := pt }
/-- A device on which sequencer `sq` plays a stream that begins with the descriptor `raw`. -/
def strm (sq raw n : Nat) (pt : StreamPt) : State :=
  { up with host := Memory.write [] 0 (leBytes (64 * n) raw), seqs := [(sq, seq1 n pt)], work := { items := [(0, item1)] } }
/-- A nest of one level. -/
def nest1 : StreamPt := { nest := some ⟨0, 1, 1, 0, 6⟩ }

def fetched (s : State) (sq : Nat) : State := (s.fetchDesc sq 0).1

theorem takes_of {s : State} {sq key raw n : Nat} (h1 : (s.seqOf sq).free = true)
    (h2 : (s.fetchDesc sq (s.seqOf sq).pt.line).2 = .got key raw n)
    (h3 : lowestCause (descChecks sq ((s.fetchDesc sq (s.seqOf sq).pt.line).1.seqOf sq) key raw
      ++ [(0x10, decide (((s.fetchDesc sq (s.seqOf sq).pt.line).1.seqOf sq).lines <
        ((s.fetchDesc sq (s.seqOf sq).pt.line).1.seqOf sq).pt.line + n))]) = none) :
    s.Takes (s.fetchDesc sq (s.seqOf sq).pt.line).1 sq key raw n :=
  ⟨h1, Prod.ext rfl h2, h3⟩

/-- A LOOP of one level and a body of one descriptor. -/
def loop1 : Nat := 2 ^ 136 + 2 ^ 128 + 0x401

/-- HDR, TOKEN, END, LOOP with a body of one TOKEN, SETCNT from the immediate and from the store, BRK with COND 0, 1 and 2. -/
theorem test_witness_SequencerDescriptorsAct :
    (∀ x ∈ [(0x00, 0x00), (0x05, 0x05), (0x06, 0x06), (0x02, 0x02), (0x02, 2 ^ 136 + 0x02)],
      (strm 0 x.2 1 {}).Takes (fetched (strm 0 x.2 1 {}) 0) 0 x.1 x.2 1 ∧ ((fetched (strm 0 x.2 1 {}) 0).seqOf 0).MayIndex x.2)
    ∧ (∀ x ∈ [0x03, 2 ^ 136 + 0x03, 2 ^ 137 + 0x03],
      (strm 143 x 1 nest1).Takes (fetched (strm 143 x 1 nest1) 143) 143 0x03 x 1
      ∧ ((fetched (strm 143 x 1 nest1) 143).seqOf 143).pt.nest = some ⟨0, 1, 1, 0, 6⟩)
    ∧ (strm 0 (5 * 2 ^ 2560 + loop1) 6 {}).Takes (fetched (strm 0 (5 * 2 ^ 2560 + loop1) 6 {}) 0) 0 0x01 loop1 5
    ∧ ((fetched (strm 0 (5 * 2 ^ 2560 + loop1) 6 {}) 0).scanBody 0 1 5).2 = .got 0 6 0
    ∧ (((fetched (strm 0 (5 * 2 ^ 2560 + loop1) 6 {}) 0).scanBody 0 1 5).1.seqOf 0).MayIndex loop1
    ∧ ((fetched (strm 0 (2 ^ 136 + 0x02) 1 {}) 0).storeWord 0 0).2 = .ok [0, 0, 0, 0] := by
  refine ⟨?_, ?_, ?_, ?_, ?_, ?_⟩
  · intro x hx
    simp only [List.mem_cons, List.not_mem_nil, or_false] at hx
    rcases hx with rfl | rfl | rfl | rfl | rfl <;>
      exact ⟨takes_of (by decide +kernel) (by decide +kernel) (by decide +kernel), by decide +kernel, by decide +kernel⟩
  · intro x hx
    simp only [List.mem_cons, List.not_mem_nil, or_false] at hx
    rcases hx with rfl | rfl | rfl <;>
      exact ⟨takes_of (by decide +kernel) (by decide +kernel) (by decide +kernel), by decide +kernel⟩
  · exact takes_of (by decide +kernel) (by decide +kernel) (by decide +kernel)
  · decide +kernel
  · exact ⟨by decide +kernel, by decide +kernel⟩
  · decide +kernel

/-- CALL of FILL with room and with a full call queue, a JOB of class FFT, and a FENCE for a mover. -/
theorem test_witness_HandedOverDescriptors :
    (strm 0 (2 ^ 128 + 0x104) 2 {}).Takes (fetched (strm 0 (2 ^ 128 + 0x104) 2 {}) 0) 0 0x04 (2 ^ 128 + 0x104) 2
    ∧ (fetched (strm 0 (2 ^ 128 + 0x104) 2 {}) 0).sh.callq.length < 1024
    ∧ ((fetched (strm 0 (2 ^ 128 + 0x104) 2 {}) 0).seqOf 0).skip.contains 0 = false
    ∧ (strm 145 (2 ^ 128 + 0x50) 1 {}).Takes (fetched (strm 145 (2 ^ 128 + 0x50) 1 {}) 145) 145 0x50 (2 ^ 128 + 0x50) 1
    ∧ ((fetched (strm 145 (2 ^ 128 + 0x50) 1 {}) 145).seqOf 145).nextX < ((fetched (strm 145 (2 ^ 128 + 0x50) 1 {}) 145).seqOf 145).low + 544
    ∧ (fetched (strm 145 (2 ^ 128 + 0x50) 1 {}) 145).itemOf ((fetched (strm 145 (2 ^ 128 + 0x50) 1 {}) 145).seqOf 145).item = some item1
    ∧ ((fetched (strm 145 (2 ^ 128 + 0x50) 1 {}) 145).seqOf 145).skip.contains ((fetched (strm 145 (2 ^ 128 + 0x50) 1 {}) 145).seqOf 145).nextX = false
    ∧ ((fetched (strm 145 (2 ^ 128 + 0x50) 1 {}) 145).accOf 0).queue.length < 32
    ∧ (strm 0 0x133 2 {}).Takes (fetched (strm 0 0x133 2 {}) 0) 0 0x33 0x133 2
    ∧ (∀ c ∈ ((fetched (strm 0 0x133 2 {}) 0).seqOf 0).copies 0x33 0x133,
        ((fetched (strm 0 0x133 2 {}) 0).fifoOf 0 c.1).length < 32)
    ∧ (((fetched (strm 0 0x133 2 {}) 0).seqOf 0).copies 0x33 0x133).length = 1 := by
  refine ⟨takes_of ?_ ?_ ?_, ?_, ?_, takes_of ?_ ?_ ?_, ?_, ?_, ?_, ?_, takes_of ?_ ?_ ?_, ?_, ?_⟩ <;> decide +kernel

/-- A mover's head that waits on a token, one that has run, and a preempted stream's save. -/
def desc1 (raw : Nat) : XDesc :=
  { x := 4, line := 0, raw := raw, addrs := [], origins := [], clr := false, out := false, rank := 0, started := false, ran := false,
    k0 := 0 }
def fifo1 (d : XDesc) : State :=
  { up with cls := [(0, { movers := [(3, [d])], placed := some (0, 0) })],
            seqs := [(0, { running := true, tok := 1 :: List.replicate 15 0 })],
            work := { items := [(0, { item1 with tasks := [{ task1 with save := some {} }] })] } }

theorem test_witness_TokensAndCompletion :
    (fifo1 (desc1 (2 ^ 68))).fifoOf ((fifo1 (desc1 (2 ^ 68))).served 0 (.mover 3)) (.mover 3) = [desc1 (2 ^ 68)]
    ∧ ((fifo1 (desc1 (2 ^ 68))).seqOf ((fifo1 (desc1 (2 ^ 68))).served 0 (.mover 3))).ready (waitOf (2 ^ 68)) = true
    ∧ (fifo1 { desc1 0x33 with started := true, ran := true }).acked 3 4 = true
    ∧ (fifo1 (desc1 0)).taskOf 0 0 = some { task1 with save := some {} } ∧ ((fifo1 (desc1 0)).clOf 0).placed = some (0, 0)
    ∧ (({ up with cls := [(0, { units := [(11, { fin := [desc1 0x10] })] })] } : State).cuOf 0 11).fin = [desc1 0x10]
    ∧ (15 : Nat) < (List.replicate 16 (0 : Int)).length := by
  decide +kernel

/-! ## Chorus clusters -/

/-- A copy of an MMA or MMA_QUAD descriptor (or another one) at the head of a FIFO. -/
def task2 : Task :=
  { ty := 1, cls := 0, flags := 0, succ := [], affinity := 0, entry := 0, seed := 0, scenes := 0, pfSrc := 0, pfBytes := 0,
    pfDst := 0, st := .playing, dep := 0 }
def item2 : Item := { fn := 0, queue := 0, seqNo := 9, tag := 0, kind := 2, mode := 0, desc := 0, gen := 1, tasks := [task2] }
def desc2 (raw : Nat) : XDesc :=
  { x := 4, line := 0, raw := raw, addrs := List.replicate 36 0, origins := [0, 0, 0, 0], clr := true, out := true, rank := 0,
    started := false, ran := false, k0 := 0 }
/-- Cluster 0 with a task of the PF placed, one unit, and the sequencer playing. -/
def clus2 (c : Cluster) : State :=
  { up with map := { applied := true, assigned := true, svc := { clLog := [(0, 0)] } },
            cls := [(0, { c with placed := some (0, 0) })], seqs := [(0, { running := true })],
            work := { items := [(0, item2)] }, time := { up.time with running := true } }
def unit2 (u : ChorusUnit) : State := clus2 { units := [(0, u)] }

theorem test_witness_FadeProcedure :
    ({} : ChorusUnit).level ≤ 8 ∧ ({} : ChorusUnit).phase < 6 ∧ ({} : ChorusUnit).level = 0
      ∧ ({ level := 8, phase := 5, want := true } : ChorusUnit).level ≤ 8 := by decide

def vec2 (raw : Nat) : State := clus2 { vec := [desc2 raw] }
/-- A mover's descriptor of one row of four elements, its global side in host memory. -/
def desc3 (raw : Nat) : XDesc :=
  { desc2 (raw + 8 * 2 ^ 32 + 8 * 2 ^ 136 + 2 ^ 160 + 4 * 2 ^ 192) with addrs := (List.replicate 36 0).set 3 (2 ^ 49) }
/-- A mover with a descriptor at its head, which has started, where the PF owns the first extent of memory. -/
def mov2 (d : XDesc) : State :=
  { clus2 { movers := [(3, [d])] } with hst := { up.hst with exts := [(0, some (0, false))] } }
def started (d : XDesc) : XDesc := { d with started := true }
def okGot (g : Got) : Bool := match g with
  | .ok _ => true
  | _ => false

/-- What KSTEP_ISSUE works on after the end of a beat and the start of a command, and its cycle's answer. -/
def kOne (s : State) (u : Nat) : State := (s.endBeat 0 u).startCmd 0 u
def kGrant (s : State) (u : Nat) : ChorusUnit × Bool := ((kOne s u).cuOf 0 u).cycle ((kOne s u).ceiling 0) ((kOne s u).wants 0 u)
def kTwo (s : State) (u : Nat) : State :=
  (kOne s u).setCu 0 u { (kGrant s u).1 with beatCyc := (kGrant s u).1.beatCyc + bn (kGrant s u).1.cur.isSome }
def kLines (s : State) (u : Nat) : List Nat := ((((kTwo s u).cuOf 0 u).allReads (desc2 0x10)).flatMap fun r => linesAt r.1 r.2).eraseDups
/-- Unit 1 of the cluster. -/
def unit3 (u : ChorusUnit) : State := clus2 { units := [(1, u)] }

/-- A unit that takes an MMA at a grant and is served by its banks, and one that unit 0 goes before; one within a multi-cycle
issue, one that waits for its context, one whose level gives no grant, a request refused for 16 cycles, and a beat that is
over. -/
theorem test_witness_ChorusUnitCycles :
    (let s := unit3 { fifo := [desc2 0x10], level := 8 }
     (kGrant s 1).2 = true ∧ ((kTwo s 1).cuOf 0 1).sub = 0 ∧ ((kTwo s 1).cuOf 0 1).cur = some (started (desc2 0x10))
      ∧ (kTwo s 1).holding 0 1 = false
      ∧ ((kTwo s 1).bankServe 0 (.chorus 1) (kLines s 1) [] []).2 = true
      ∧ ((kTwo s 1).bankServe 0 (.chorus 1) (kLines s 1) [] [⟨.chorus 0, 48, false⟩]).2 = false
      ∧ maxBy (fun b => (((kLines s 1).map (· % 48)).filter (· == b)).length) ((kLines s 1).map (· % 48))
          ≤ ((kTwo s 1).cuOf 0 1).lines + 1)
    ∧ (let s := unit3 { cur := some (desc2 0x10), sub := 3, level := 8 }
       (kGrant s 1).2 = true ∧ ((kTwo s 1).cuOf 0 1).sub ≠ 0)
    ∧ (let s := unit3 { fifo := [desc2 0x10], ctx := some (0, 0), level := 8 }
       (kGrant s 1).2 = true ∧ ((kTwo s 1).cuOf 0 1).sub = 0 ∧ ((kTwo s 1).cuOf 0 1).cur = none
        ∧ ((kTwo s 1).cuOf 0 1).want = true)
    ∧ (kGrant (unit3 { fifo := [desc2 0x10] }) 1).2 = false
    ∧ Tbl.get (0, false) ((clus2 { waits := [(clientCode .vec, (16, false))] }).clOf 0).waits (clientCode .vec) = (16, false)
    ∧ (let s := unit2 { beatCyc := 512, cur := some (desc2 0x10) }
       0 < (s.cuOf 0 0).beatCyc ∧ 512 ≤ (s.cuOf 0 0).beatCyc)
    ∧ (desc2 0x10).key = 0x10 ∧ (desc2 0x11).key = 0x11
    ∧ (((unit2 { fifo := [desc2 0x11] }).startCmd 0 0).cuOf 0 0).cur = some (started (desc2 0x11)) := by
  refine ⟨?_, ?_, ?_, ?_, ?_, ?_, ?_, ?_, ?_⟩ <;> decide +kernel

def issue2 : KIssue :=
  { cmd := some (desc2 0x10), k := 0, a := [], b := [], aScale := [], bScale := [], aSolo := [], bSolo := [] }

/-- An issue in flight, a readout at its last vector, a spill, and a restore of the placed task's context. -/
theorem test_witness_AccumulatorsAndContexts :
    ((unit2 { pipe := [issue2] }).cuOf 0 0).pipe = [issue2] ∧ issue2.cmd = some (desc2 0x10)
    ∧ (let s := unit2 { readout := [(0, 31, desc2 0x10)] }
       (s.cuOf 0 0).readout = [(0, 31, desc2 0x10)] ∧ (desc2 0x10).groups = 1
        ∧ (s.bankServe 0 (.readout 0) [] ((desc2 0x10).vectorLines 0 31) []).2 = true
        ∧ ((s.bankServe 0 (.readout 0) [] ((desc2 0x10).vectorLines 0 31) []).1.readVector 0 (desc2 0x10)
            (Tbl.get [] (s.cuOf 0 0).acc 0) 0 31).2 = 0)
    ∧ (let s := unit2 { spilling := some 1 }
       (s.cuOf 0 0).spilling = some 1 ∧ ((s.cuOf 0 0).pipe.any fun e => e.bank == 1) = false)
    ∧ (let s := unit2 { restoring := true, ctx := some (0, 0) }
       (s.cuOf 0 0).restoring = true ∧ (s.cuOf 0 0).ctx = (s.clOf 0).placed) := by
  decide +kernel

/-- The context slot of unit 0 reads. -/
theorem test_witness_ContextSlot :
    ((unit2 { restoring := true, ctx := some (0, 0) }).csRead 0 (ctxBase + 0 * 0x6000) 0x6000).2.isSome = true := by
  obtain ⟨b, h⟩ := State.csRead_of_clean (s := unit2 { restoring := true, ctx := some (0, 0) }) rfl rfl 0 (ctxBase + 0 * 0x6000) 0x6000
  rw [h]
  rfl

theorem test_witness_ExactSumsCommute :
    [1, 2].Perm [2, 1] ∧ (∀ f ∈ [5, 6, 7, 8, 9, 12, 14], isNarrow f = true) ∧ (0x7C00 : Nat) < 2 ^ 16
      ∧ Factor.Whole ⟨16, 0, decodeFmt (fmtOf 4) 0x7BFF⟩ := by
  refine ⟨by decide, by decide, by decide, ?_⟩
  have h : decodeFmt (fmtOf 4) 0x7BFF = .fin false 2047 5 := by decide +kernel
  rw [h]
  exact .inr (by decide)

/-- What the banks leave for the engine of the head of a FIFO. -/
def afterBanks (s : State) (e : Engine) (c : BankClient) (l : List Nat × List Nat) : State × Bool :=
  (s.startHead 0 e).1.bankServe 0 c l.1 l.2 []

theorem test_witness_EnginesOfACluster :
    (∀ raw ∈ [0x20, 0x21, 0x22], (vec2 raw).served 0 .vec = 0 ∧ (vec2 raw).fifoOf 0 .vec = [desc2 raw] ∧ (vec2 raw).live 0 = true
      ∧ ((vec2 raw).startHead 0 .vec).2 = some (started (desc2 raw)) ∧ (desc2 raw).key = raw
      ∧ (afterBanks (vec2 raw) .vec .vec (started (desc2 raw)).vecLines).2 = true)
    ∧ ((afterBanks (vec2 0x20) .vec .vec (started (desc2 0x20)).vecLines).1.runVmap none 0 (started (desc2 0x20))).2 = 0
    ∧ ((afterBanks (vec2 0x21) .vec .vec (started (desc2 0x21)).vecLines).1.runVred none 0 (started (desc2 0x21))).2 = 0
    ∧ ((afterBanks (vec2 0x22) .vec .vec (started (desc2 0x22)).vecLines).1.runVcvt (some 0) 0 (started (desc2 0x22))).2 = 0
    ∧ (∀ raw ∈ [0x30, 0x31, 0x32, 0x33], (mov2 (desc3 raw)).served 0 (.mover 3) = 0
      ∧ (mov2 (desc3 raw)).fifoOf 0 (.mover 3) = [desc3 raw] ∧ (mov2 (desc3 raw)).live 0 = true
      ∧ (mov2 (desc3 raw)).servesCl 0 = true
      ∧ ((mov2 (desc3 raw)).startHead 0 (.mover 3)).2 = some (started (desc3 raw)) ∧ (desc3 raw).key = raw
      ∧ (afterBanks (mov2 (desc3 raw)) (.mover 3) (.mover 3) (started (desc3 raw)).moverLines).2 = true)
    ∧ (∀ raw ∈ [0x30, 0x31],
        (let s := (afterBanks (mov2 (desc3 raw)) (.mover 3) (.mover 3) (started (desc3 raw)).moverLines).1
         okGot (s.moveSegs 0 (.mover 3) (s.clWho 0 (.mover 3) 4) (started (desc3 raw)) (desc3 raw).segs 0).2 = true))
    ∧ (let s := (afterBanks (mov2 (desc2 0x32)) (.mover 3) (.mover 3) (started (desc2 0x32)).moverLines).1
       okGot (s.moverAtom 0 (.mover 3) (s.clWho 0 (.mover 3) 4) (started (desc2 0x32))).2 = true)
    ∧ (let s := (afterBanks (mov2 (desc2 0x33)) (.mover 3) (.mover 3) (started (desc2 0x33)).moverLines).1
       okGot (s.moverFence 0 (.mover 3) (s.clWho 0 (.mover 3) 4) (started (desc2 0x33))).2 = true) := by
  refine ⟨?_, ?_, ?_, ?_, ?_, ?_, ?_, ?_⟩ <;> decide +kernel

/-! ## Resident routines and call threads -/

/-- A call of a routine with its arguments, on thread 0 for a task of function `v`. -/
def call3 (rt : Nat) (args : List Nat) : Call :=
  { sq := 0, item := 0, task := 0, x := 1, routine := rt, algo := 0, args := args, stat := 0, sync := false, sig := none }
def task3 : Task :=
  { ty := 1, cls := 0, flags := 0, succ := [], affinity := 0, entry := 0, seed := 0, scenes := 0, pfSrc := 0, pfBytes := 0,
    pfDst := 0, st := .playing, dep := 0 }
def thread3 (v : Nat) (c : Call) (r : Option (Nat × Nat)) : State :=
  { up with
    sh := { threads := [(0, { call := some c, result := r })] }, seqs := [(0, { running := true, calls := 1 })],
    work := { items := [(0, { fn := v, queue := 0, seqNo := 9, tag := 0, kind := 2, mode := 0, desc := 0, gen := 1, tasks := [task3] })] },
    hst := { up.hst with exts := [(0, some (v, false))] },
    fab := { up.fab with groups := [(5, { valid := true, rank := 0, members := [0, 1] })] } }

/-- Plan `f` is ready for the call of thread 0, and its writes succeed. -/
def runs3 (s : State) (c : Call) (f : State → Who → Call → State × Plan) : Bool :=
  match f s (s.callWho 0 c) c with
  | (u, .ready ws st v) =>
    (match State.callWrites (u.setTh 0 { u.thOf 0 with plan := some (ws, st, v) }) 0 (s.callWho 0 c)
        (ws.drop ((u.setTh 0 { u.thOf 0 with plan := some (ws, st, v) }).thOf 0).pos) with
     | (_, .ok _) => true
     | _ => false)
  | _ => false

theorem routine_of {s : State} {c : Call} {rt : Nat} {f : State → Who → Call → State × Plan}
    (h : (s.thOf 0).call = some c ∧ c.routine = rt ∧ (s.thOf 0).result = none ∧ (s.thOf 0).plan = none
      ∧ s.coreOn (0 / 7) = true ∧ (s.work.ends.any fun e => e.1 == c.item && e.2.1 == c.task) = false)
    (r : runs3 s c f = true) : ∃ t, s.Routine t 0 rt f := by
  unfold runs3 at r
  split at r
  · split at r
    · obtain ⟨h1, h2, h3, h4, h5, h6⟩ := h
      exact ⟨_, _, _, _, _, _, _, _, h1, h2, h3, h4, h5, h6, ‹_›, ‹_›, rfl⟩
    · cases r
  · cases r

/-- FILL, COPY, GATHER_ROWS, SCATTER_ROWS, DIGEST_REGION, TIME_READ in host memory, SEM_ARRIVE in HBM. -/
theorem test_witness_ResidentRoutinesRun_1 :
    (∃ s t, State.Routine s t 0 0x01 planFill) ∧ (∃ s t, State.Routine s t 0 0x02 planCopy)
    ∧ (∃ s t, State.Routine s t 0 0x03 planGather) ∧ (∃ s t, State.Routine s t 0 0x04 planScatter)
    ∧ (∃ s t, State.Routine s t 0 0x20 planDigest) ∧ (∃ s t, State.Routine s t 0 0x21 planSem)
    ∧ (∃ s t, State.Routine s t 0 0x22 planTime) :=
  ⟨⟨thread3 0 (call3 0x01 [2 ^ 49, 4, 7]) none, routine_of (c := call3 0x01 [2 ^ 49, 4, 7]) (by decide +kernel) (by decide +kernel)⟩,
   ⟨thread3 0 (call3 0x02 [2 ^ 49, 2 ^ 49 + 64, 4]) none,
     routine_of (c := call3 0x02 [2 ^ 49, 2 ^ 49 + 64, 4]) (by decide +kernel) (by decide +kernel)⟩,
   ⟨thread3 0 (call3 0x03 [2 ^ 49, 2 ^ 49 + 64, 1, 4, 2 ^ 49 + 128]) none,
     routine_of (c := call3 0x03 [2 ^ 49, 2 ^ 49 + 64, 1, 4, 2 ^ 49 + 128]) (by decide +kernel) (by decide +kernel)⟩,
   ⟨thread3 0 (call3 0x04 [2 ^ 49, 2 ^ 49 + 64, 1, 4, 2 ^ 49 + 128]) none,
     routine_of (c := call3 0x04 [2 ^ 49, 2 ^ 49 + 64, 1, 4, 2 ^ 49 + 128]) (by decide +kernel) (by decide +kernel)⟩,
   ⟨thread3 0 (call3 0x20 [2 ^ 49, 4, 1]) none, routine_of (c := call3 0x20 [2 ^ 49, 4, 1]) (by decide +kernel) (by decide +kernel)⟩,
   ⟨thread3 0 (call3 0x21 [0]) none, routine_of (c := call3 0x21 [0]) (by decide +kernel) (by decide +kernel)⟩,
   ⟨thread3 0 (call3 0x22 [8]) none, routine_of (c := call3 0x22 [8]) (by decide +kernel) (by decide +kernel)⟩⟩

/-- The collectives of a group of two, and MBOX_POST of VF 1. -/
theorem test_witness_ResidentRoutinesRun_2 :
    (∃ s t, State.Routine s t 0 0x10 (planReduce [[5]] fun s c _ r => (s, writePieces (c.arg 0) (redOut (c.arg 2) r))))
    ∧ (∃ s t, State.Routine s t 0 0x11 (planReduce [[5, 6]] State.share))
    ∧ (∃ s t, State.Routine s t 0 0x12 (planBlocks 2 [[1, 2]] (fun _ => 1) blocksOut))
    ∧ (∃ s t, State.Routine s t 0 0x13 (planBroadcast [1, 2]))
    ∧ (∃ s t, State.Routine s t 0 0x14 (planBlocks 2 [[1, 2]] (fun g => g.members.length) blocksOut))
    ∧ (∃ s t, State.Routine s t 0 0x15 planBarrier) ∧ (∃ s t, State.Routine s t 0 0x30 planMbox) :=
  ⟨⟨thread3 0 (call3 0x10 [2 ^ 49, 1, 0xA, 0, 5]) none,
     routine_of (c := call3 0x10 [2 ^ 49, 1, 0xA, 0, 5]) (by decide +kernel) (by decide +kernel)⟩,
   ⟨thread3 0 (call3 0x11 [2 ^ 49, 2, 0xA, 0, 5, 2 ^ 49 + 64]) none,
     routine_of (c := call3 0x11 [2 ^ 49, 2, 0xA, 0, 5, 2 ^ 49 + 64]) (by decide +kernel) (by decide +kernel)⟩,
   ⟨thread3 0 (call3 0x12 [2 ^ 49, 2 ^ 49 + 64, 2, 0, 5]) none,
     routine_of (c := call3 0x12 [2 ^ 49, 2 ^ 49 + 64, 2, 0, 5]) (by decide +kernel) (by decide +kernel)⟩,
   ⟨thread3 0 (call3 0x13 [2 ^ 49, 2, 1, 0, 5]) none,
     routine_of (c := call3 0x13 [2 ^ 49, 2, 1, 0, 5]) (by decide +kernel) (by decide +kernel)⟩,
   ⟨thread3 0 (call3 0x14 [2 ^ 49, 2 ^ 49 + 64, 2, 0, 5]) none,
     routine_of (c := call3 0x14 [2 ^ 49, 2 ^ 49 + 64, 2, 0, 5]) (by decide +kernel) (by decide +kernel)⟩,
   ⟨thread3 0 (call3 0x15 [0, 0, 0, 0, 5]) none, routine_of (c := call3 0x15 [0, 0, 0, 0, 5]) (by decide +kernel) (by decide +kernel)⟩,
   ⟨thread3 1 (call3 0x30 [1, 0, 4]) none, routine_of (c := call3 0x30 [1, 0, 4]) (by decide +kernel) (by decide +kernel)⟩⟩

theorem test_witness_StagehandThreads :
    (({ up with sh := { callq := [call3 1 []] } } : State).thOf 223).call = none ∧ up.coreOn (223 / 7) = true
    ∧ (let s := thread3 0 (call3 1 []) (some (0, 7))
       (s.thOf 0).call = some (call3 1 []) ∧ (s.thOf 0).result = some (0, 7) ∧ s.acked 2000 1 = true
        ∧ (let t1 := (((s.setTh 0 {}).forget 2000).bump64 .stgh 0 0x060 1)
           (t1.storeWrite 0 0 (leBytes 4 0) false).2 = .ok []
            ∧ ((t1.storeWrite 0 0 (leBytes 4 0) false).1.storeWrite 0 8 (leBytes 8 7) false).2 = .ok []))
    ∧ up.coreOn 31 = true := by
  decide +kernel

theorem test_witness_RoutinePlans :
    8 < (call3 0x22 [9]).arg 0 ∧ (call3 0x22 [7]).arg 0 < 8 ∧ (call3 0x22 [8]).arg 0 = 8 ∧ (call3 0x21 [12]).arg 0 % 8 ≠ 0
      ∧ 3 < (call3 1 [2 ^ 49, 4, 7]).arg 1 := by decide

/-! ## Queues, tasks and the running order -/

def task4 (ty : Nat) (st : TState) : Task :=
  { ty := ty, cls := 0, flags := 0, succ := [], affinity := 0, entry := 2 ^ 49, seed := 0, scenes := 0, pfSrc := 0, pfBytes := 0,
    pfDst := 0, st := st, dep := 0 }
def item4 (x : Task) : Item := { fn := 0, queue := 0, seqNo := 9, tag := 0, kind := 2, mode := 0, desc := 0, gen := 1, tasks := [x] }
/-- Queue 0 of the PF enabled with rings of four, two entries posted, its completion ring in host memory. -/
def queue4 : State :=
  ((((((({ up with hst := { up.hst with fns := [(0, { fnReset 0 with qlim := [(0, 4)] })] } } : State).setRg
    (qreg 0 0 0) 0x101).setRg (qreg 0 0 0x10) 2).setRg (qreg 0 0 0x14) 2).setRg (qreg 0 0 0x28) 2).setRg
    (qreg 0 0 0x24) 0x20000).setRg (qreg 0 0 0x0C) 0x20000)
def compl4 : Compl :=
  { seqNo := 3, tag := 0, status := 0, cause := 0, fn := 0, queue := 0, gen := (queue4.fnOf 0).gen.toNat, task := 0, tDone := 0, flags := 0 }
def held4 : State := { queue4 with work := { held := [(0, [compl4])] } }
def copy4 : TailCopy := { seqNo := 5, tag := 0, fn := 0, queue := 0, desc := 0, gen := 1 }

/-- A doorbell that just fits and one that does not, both kinds of Q_CTRL write, a watchdog with work waiting, an entry that may be
accepted, a record with room and one with a full ring (and one behind an older item), and a report. -/
theorem test_witness_QueueCommands :
    (queue4.fnOf 0).st ≠ .striking ∧ queue4.shut 0 = false
    ∧ ((4 : BitVec 32) - queue4.rg (qreg 0 0 0x18)).toNat ≤ queue4.ringSize 0 0
    ∧ queue4.ringSize 0 0 < ((5 : BitVec 32) - queue4.rg (qreg 0 0 0x18)).toNat
    ∧ fld (queue4.rg (qreg 0 0 0)) 8 8 = fld (0x100 : Word) 8 8 ∧ fld (queue4.rg (qreg 0 0 0)) 8 8 ≠ fld (0 : Word) 8 8
    ∧ fld (queue4.rg (qreg 0 0 0)) 8 8 ≠ 0
    ∧ ({ queue4 with work := { items := [(0, item4 (task4 1 .ready))] } } : State).qDepth 0 0 ≠ 0
    ∧ queue4.mayAccept 0 0 = true ∧ queue4.pbFree ≠ 0
    ∧ (queue4.readEntry 0 0).2 = .ok (List.replicate 64 0)
    ∧ held4.heldOf 0 0 = [compl4] ∧ held4.smRuns = true ∧ compl4.gen = (held4.fnOf 0).gen.toNat ∧ held4.cqFull 0 0 = false
    ∧ (held4.ringWrite 0 0 (compl4.bytes compl4.gen)).isSome = true
    ∧ (let s := { queue4 with work := { reports := [copy4] } }
       firstReport s.work.reports = some copy4 ∧ fld (s.rg (qreg 0 0 0)) 0 1 = 1
        ∧ (s.ringWrite 0 0 (compl4.bytes 1)).isSome = true)
    ∧ (let s := held4.setRg (qreg 0 0 0x2C) 4
       s.cqSize 0 0 ≤ (s.rg (qreg 0 0 0x2C) - s.rg (qreg 0 0 0x30)).toNat ∧ s.flt.due = [])
    ∧ (let s := { held4 with work := { held4.work with items := [(0, { item4 (task4 1 .done) with seqNo := 2 })] } }
       ∃ p ∈ s.work.items, p.2.fn = 0 ∧ p.2.queue = 0 ∧ p.2.seqNo < compl4.seqNo) := by
  decide +kernel

/-- A stream task with its header in host memory, placed CUED on a LIT cluster; an accelerator task; ends OK and not OK. -/
def work4 (x : Task) : State :=
  { up with work := { items := [(0, item4 x)] }, time := { up.time with running := true },
            host := Memory.write [] 0 (leBytes 64 (2 ^ 8 * 1)),
            hst := { up.hst with fns := [(0, { fnReset 0 with cl := 1 })] } }

theorem test_witness_TasksPlayAndEnd :
    (let s := work4 (task4 1 .ready)
     s.taskOf 0 0 = some (task4 1 .ready) ∧ s.placeable (item4 (task4 1 .ready)) (task4 1 .ready) = true
      ∧ (s.pick (item4 (task4 1 .ready)) 0 0 (task4 1 .ready)).isSome = true
      ∧ (match s.pick (item4 (task4 1 .ready)) 0 0 (task4 1 .ready) with
         | some p => s.isFirst (item4 (task4 1 .ready)) (task4 1 .ready) 0 p
         | none => false) = true
      ∧ (s.readHdrs 0 [task4 1 .ready]).2.isSome = true)
    ∧ (let x := { task4 1 .cued with place := some (0, 0) }
       let s := { work4 x with cls := [(0, { pwr := .lit })] }
       s.taskOf 0 0 = some x ∧ s.smRuns = true ∧ (s.clOf 0).pwr = .lit ∧ (s.aheadOn 0 0 0 aheadFuel).2 = false)
    ∧ (let x := { task4 3 .cued with place := some (1, 1) }
       (work4 x).taskOf 0 0 = some x ∧ x.ty = 3 ∧ x.save = none)
    ∧ (let s := { work4 (task4 1 .playing) with work := { items := [(0, item4 (task4 1 .playing))], ends := [(0, 0, 0, 0, 0)] } }
       (s.work.ends.find? fun e => e.1 == 0 && e.2.1 == 0) = some (0, 0, 0, 0, 0) ∧ (s.writePlaybill 0 0 true).2 = true)
    ∧ (let x := { task4 1 .playing with entry := 5 * 2 ^ 50, place := some (0, 0) }
       let s := { work4 x with work := { items := [(0, { item4 x with playbill := true })], ends := [(0, 0, 0, 0, 0)] },
                               seqs := [(0, { running := true, lines := 1 })] }
       (s.work.ends.find? fun e => e.1 == 0 && e.2.1 == 0) = some (0, 0, 0, 0, 0) ∧ (s.writePlaybill 0 0 true).2 = false)
    ∧ (let s := { work4 (task4 1 .playing) with work := { items := [(0, item4 (task4 1 .playing))], ends := [(0, 0, 4, 1, 7)] } }
       (s.work.ends.find? fun e => e.1 == 0 && e.2.1 == 0) = some (0, 0, 4, 1, 7)) := by
  refine ⟨?_, ?_, ?_, ?_, ?_, ?_⟩ <;> decide +kernel

theorem test_witness_StageManagerControl : (0 : Nat) < 6 ∧ up.awake = true ∧ pageAddr .runord 0 + 0x040 ≠ pageAddr .stage 5 + 0x040 := by
  decide

theorem runList_replicate (a n : Nat) : runList (List.replicate (n + 1) a) = [(a, n + 1)] := by
  induction n with
  | zero => simp [runList]
  | succ n ih => rw [List.replicate_succ, runList, ih]; simp

/-- A commit of tables that give every scene to open work passes its checks. -/
theorem commit_of_open (s : State) (ho : ∀ b a k, s.roOwner b a k = 0x10) (hc : s.ro.lc = []) (ha : s.ro.la = []) :
    s.commitCause = none := by
  have own : ∀ b a n, s.ownersOf b a n = List.replicate n 0x10 := by
    intro b a n
    have e : s.roOwner b a = fun _ => 0x10 := funext (ho b a)
    rw [State.ownersOf, e, List.map_const', List.length_range]
  have runs : ∀ b n p, p < 16 → s.clRuns b n p = [] := by
    intro b n p hp
    cases n with
    | zero => simp [State.clRuns, own, cycRuns, runList]
    | succ n => simp [State.clRuns, own, cycRuns, runList_replicate]; intros; omega
  unfold State.commitCause lowestCause
  simp [own, ho, hc, ha, State.loadOf, maxBy]
  intro p hp
  rw [runs _ _ _ hp]

/-- A commit with an owner code that no one may hold fails. -/
theorem commit_of_reserved (s : State) (h : s.roOwner (1 - s.roBank) 0 0 = 0x12) : ∃ c, s.commitCause = some c := by
  have m : 0x12 ∈ s.ownersOf (1 - s.roBank) 0 (scenesOf s.ro.commitPer) := by
    rw [State.ownersOf, List.mem_map]
    refine ⟨0, List.mem_range.mpr ?_, h⟩
    unfold scenesOf
    split_ifs
    all_goals decide
  have c1 : (((List.range 272) ++ s.clArbs ++ (List.range 60).map (400 + ·)).any fun a =>
      (s.ownersOf (1 - s.roBank) a (scenesOf s.ro.commitPer)).any fun o =>
        decide (0x12 ≤ o) && decide (o ≤ 0x1E)) = true := by
    rw [List.any_eq_true]
    exact ⟨0, by simp, List.any_eq_true.mpr ⟨_, m, rfl⟩⟩
  refine ⟨1, ?_⟩
  unfold State.commitCause lowestCause
  simp only [c1]
  rfl

def ro5 (r : RoSt) : State := { up with time := { up.time with running := true }, ro := r }

theorem test_witness_PeriodsOfTheRunningOrder : up.flt.due = [] ∧ fld (6 : Word) 1 2 = 3 := by decide

/-- A scene within a period, a period's last scene with and without idle scenes due, a period over, a stretch, a commit asked
for at a period's start, aligned and not, and a copy. -/
theorem test_witness_ScenesAndCommits_1 :
    (let r := (ro5 {}).retryFallbacks.retryLate
     r.roIdle = false ∧ r.countScene.ro.scene + 1 < scenesOf r.ro.period)
    ∧ (let r := (ro5 { scene := scenesOf ({} : RoSt).period - 1 }).retryFallbacks.retryLate
       r.roIdle = false ∧ scenesOf r.ro.period ≤ r.countScene.ro.scene + 1
        ∧ (r.countScene.bump64 .runord 0 0x04C 1).ro.realignDue = false)
    ∧ (let r := (ro5 { scene := scenesOf ({} : RoSt).period - 1, realignDue := true, align := 1 }).retryFallbacks.retryLate
       r.roIdle = false ∧ scenesOf r.ro.period ≤ r.countScene.ro.scene + 1
        ∧ (r.countScene.bump64 .runord 0 0x04C 1).ro.realignDue = true
        ∧ (r.countScene.bump64 .runord 0 0x04C 1).aligned = false)
    ∧ (let s := ro5 { scene := scenesOf ({} : RoSt).period, realignDue := true }
       s.time.running = true ∧ s.ro.realign = false ∧ scenesOf s.ro.period ≤ s.ro.scene)
    ∧ (ro5 { realign := true }).ro.realign = true
    ∧ (let s := ro5 { commitReq := true }
       s.roIdle = false ∧ s.ro.realignDue = false ∧ s.ro.scene = 0)
    ∧ (ro5 { copying := true }).ro.copying = true
    ∧ (ro5 { commitReq := true }).aligned = true ∧ (ro5 { commitReq := true, align := 1 }).aligned = false := by
  refine ⟨?_, ?_, ?_, ?_, ?_, ?_, ?_, ?_, ?_⟩ <;> decide +kernel

/-- YIELD_LEAD at reset, and a track with one run of an owner there; a task of the PF on the cluster. -/
def lead5 : Nat := fld ((ro5 {}).pr .runord 0 0x040) 12 4
def run5 (o : Nat) (busy : Bool) : State :=
  { ro5 { track := [(lead5, o)] } with
    work := { items := [(0, item4 (task4 1 .playing))] }, cls := [(3, { placed := if busy then some (0, 0) else none })] }
def owns5 (s : State) (a : Nat) : Nat :=
  if s.stretchAhead && decide (scenesOf s.ro.period ≤ a) then 0x1F else s.roOwner s.roBank (arbCl 3) (a % scenesOf s.ro.period)

/-- A lead point at which nothing begins, of a radio run that no task claims, of a run of maintenance where open work plays, of
open scenes, and of a stretch of idle scenes. -/
theorem test_witness_ScenesAndCommits_2 :
    (let s := run5 3 false
     s.roOn = true ∧ s.roIdle = false ∧ s.physCl 3 = some 3 ∧ owns5 s (lead5 + 1) = owns5 s (lead5 + 2)
      ∧ owns5 s lead5 = 3 ∧ owns5 s (lead5 - 1) = 0x10
      ∧ ((s.leadOut 3 3 3 0x10).claimant 3 3).isSome = false ∧ ((s.leadOut 3 3 3 0x10).clOf 3).placed = none)
    ∧ (let s := run5 0x11 true
       owns5 s lead5 = 0x11 ∧ owns5 s (lead5 - 1) = 0x10 ∧ ((s.leadOut 3 3 0x11 0x10).clOf 3).placed = some (0, 0)
        ∧ ((s.leadOut 3 3 0x11 0x10).itemOf 0).map (·.owner) = some 0x10)
    ∧ (let s := ro5 { track := [(lead5 - 1, 3)] }
       owns5 s lead5 = 0x10 ∧ owns5 s (lead5 - 1) = 3)
    ∧ (let s := { run5 3 true with ro := { scene := scenesOf 1 - lead5, realignDue := true, align := 1 } }
       s.roOn = true ∧ s.roIdle = false ∧ owns5 s (s.ro.scene + lead5) = 0x1F ∧ owns5 s (s.ro.scene + lead5 - 1) = 0x10
        ∧ ((s.leadOut 3 3 0x1F 0x10).clOf 3).placed = some (0, 0)) := by
  refine ⟨?_, ?_, ?_, ?_⟩ <;> decide +kernel

/-- A graph of one radio task: placed on cluster 3 with a unit in a beat or without, on a core, ready; a curtain ahead. -/
def curt5 (x : Task) (at_ : Nat) (u : ChorusUnit) : State :=
  { up with work := { items := [(0, { item4 x with radio := true, owner := 3, curtain := at_ })] },
            cls := [(3, { placed := some (0, 0), units := [(0, u)] })] }

theorem test_witness_ScenesAndCommits_3 :
    (let s := curt5 (task4 1 .ready) 0 {}
     s.taskOf 0 0 = some (task4 1 .ready) ∧ s.pendEnd 0 0 = false ∧ 0 ≤ s.t64On 4 0 ∧ (task4 1 .ready).st = .ready)
    ∧ (let x := { task4 1 .playing with place := some (3, 3) }
       (((curt5 x 0 {}).curtainCl 3).clOf 3).unitsLanded = true
        ∧ (((curt5 x 0 { cur := some (desc2 0x10) }).curtainCl 3).clOf 3).unitsLanded = false)
    ∧ (let x := { task4 2 .playing with place := some (3, 3) }
       (curt5 x 0 {}).taskOf 0 0 = some x ∧ x.ty = 2 ∧ x.place = some (3, 3))
    ∧ (let s := curt5 (task4 1 .ready) (2 ^ 40) {}
       s.t64On ((s.itemOf 0).map (·.home)).get! 0 < 2 ^ 40)
    ∧ fld (0x100 : Word) 1 2 ≠ 3 ∧ fld (0x100 : Word) 8 1 = 1 ∧ fld (0 : Word) 8 1 = 0 := by
  refine ⟨?_, ?_, ?_, ?_, ?_⟩ <;> decide +kernel

/-- A commit that passes and one that fails. -/
theorem test_witness_Commits :
    (ro5 { commitReq := true }).commitCause = none ∧ (∃ c, (ro5 { commitReq := true, track := [(160000, 0x12)] }).commitCause = some c)
      ∧ (ro5 { commitReq := true }).commitWaits 0 = false :=
  ⟨commit_of_open _ (fun _ _ _ => rfl) rfl rfl, commit_of_reserved _ (by decide +kernel), by decide +kernel⟩

/-! ## The radio DSP -/

/-- Core `k` plays a bundle whose slot `slot` holds a syllable; the other slots hold NOP. -/
def core6 (k slot w : Nat) : State :=
  { up with dsp := [(k, { playing := true })], dspMem := (Memory.putNum [] (k * 0x80000 + 0x40000 + 4 * slot) 4 w) }

def issues6 (s : State) (k slot op : Nat) : Bool :=
  (s.coreOf k).runs && !(s.coreOf k).issued.getLsbD slot && s.boot.ready && !(s.bundleStop k).2
    && sOp ((s.bundleStop k).1.bundleSyl k slot) == op

theorem issues_of {s : State} {k slot op : Nat} (h : issues6 s k slot op = true) : s.Issues k slot op := by
  simp only [issues6, Bool.and_eq_true, Bool.not_eq_true', beq_iff_eq] at h
  exact ⟨h.1.1.1.1, h.1.1.1.2, h.1.1.2, h.1.2, h.2⟩

/-- Every vector syllable issues, in slot 0 and in slot 1 of the highest core. -/
theorem test_witness_DspVectorSyllables :
    ∀ op ∈ [0, 1, 2, 3, 4, 5, 6, 8, 9, 10, 11, 12, 13], (core6 271 0 (op * 2 ^ 26)).Issues 271 0 op
      ∧ (core6 271 1 (op * 2 ^ 26)).Issues 271 1 op := by
  have h : ∀ op ∈ [0, 1, 2, 3, 4, 5, 6, 8, 9, 10, 11, 12, 13], issues6 (core6 271 0 (op * 2 ^ 26)) 271 0 op = true
      ∧ issues6 (core6 271 1 (op * 2 ^ 26)) 271 1 op = true := by decide +kernel
  exact fun op m => ⟨issues_of (h op m).1, issues_of (h op m).2⟩

theorem test_witness_ConvergentRounding :
    (core6 0 1 (6 * 2 ^ 26)).Issues 0 1 6 ∧ (0 : Nat) < 1 ∧ cround 3 1 % 2 = 0 :=
  ⟨issues_of (by decide +kernel), by decide, by decide⟩

/-- A linear step of -1, a modulo buffer of eight bytes, bit-reversal of one and of 17 bits, and an LD whose M0 has LEN 0. -/
theorem test_witness_AddressModifiers :
    bits 0xFFFF 30 2 = 0 ∧ (bits (2 ^ 30 + 2 ^ 16) 30 2 = 1 ∧ 8 = 8 * bits (2 ^ 30 + 2 ^ 16) 16 14 ∧ (8 : Nat) ≤ 2 ^ 3 ∧ 2 ^ (3 - 1) < 8)
      ∧ (bits (2 ^ 31 + 17 * 2 ^ 16) 30 2 = 2 ∧ 17 = bits (2 ^ 31 + 17 * 2 ^ 16) 16 5)
      ∧ (let w := 0x10 * 2 ^ 26 + 2 * 2 ^ 11
         let s := { core6 0 2 w with dsp := [(0, { playing := true, m := [(0, 0x40000000)] })] }
         s.bundleSyl 0 2 = w ∧ 0x10 ≤ sOp w ∧ sOp w ≤ 0x13 ∧ sForm w = 2
          ∧ bits ((s.coreOf 0).mv (sMm w)) 30 2 = 1 ∧ bits ((s.coreOf 0).mv (sMm w)) 16 14 = 0) := by
  decide +kernel

theorem test_witness_DspMemoryAndAddressSyllables :
    ∀ op ∈ [0x10, 0x11, 0x12, 0x13, 0x14, 0x15, 0x16], (core6 0 2 (op * 2 ^ 26)).Issues 0 2 op
      ∧ (core6 271 3 (op * 2 ^ 26)).Issues 271 3 op := by
  have h : ∀ op ∈ [0x10, 0x11, 0x12, 0x13, 0x14, 0x15, 0x16], issues6 (core6 0 2 (op * 2 ^ 26)) 0 2 op = true
      ∧ issues6 (core6 271 3 (op * 2 ^ 26)) 271 3 op = true := by decide +kernel
  exact fun op m => ⟨issues_of (h op m).1, issues_of (h op m).2⟩

/-- BRKL within a loop, with COND 0; the others outside one. -/
theorem test_witness_DspControlSyllables :
    (∀ op ∈ [0x20, 0x21, 0x22, 0x24, 0x25, 0x26, 0x27, 0x28, 0x29, 0x2A, 0x2B],
      (core6 271 3 (op * 2 ^ 26)).Issues 271 3 op)
    ∧ (let s := { core6 0 3 (0x23 * 2 ^ 26) with dsp := [(0, { playing := true, loopFg := { active := [0] } })] }
       s.Issues 0 3 0x23 ∧ (s.coreOf 0).cond (0x23 * 2 ^ 26) = true)
    ∧ ((core6 0 3 0).coreOf 0).cond (0x24 * 2 ^ 26 + 2 ^ 25) = false := by
  have h : ∀ op ∈ [0x20, 0x21, 0x22, 0x24, 0x25, 0x26, 0x27, 0x28, 0x29, 0x2A, 0x2B],
      issues6 (core6 271 3 (op * 2 ^ 26)) 271 3 op = true := by decide +kernel
  exact ⟨fun op m => issues_of (h op m), ⟨issues_of (by decide +kernel), by decide +kernel⟩, by decide +kernel⟩

def task6 (st : TState) : Task :=
  { ty := 2, cls := 0, flags := 0, succ := [], affinity := 0, entry := 0x40, seed := 0, scenes := 0, pfSrc := 0, pfBytes := 0,
    pfDst := 0, st := st, dep := 0, place := some (0, 0) }
def playing6 (d : DspCore) (st : TState) : State :=
  { up with dsp := [(0, d)],
            work := { items := [(0, { fn := 0, queue := 0, seqNo := 9, tag := 0, kind := 2, mode := 0, desc := 0, gen := 1, tasks := [task6 st] })] } }
/-- A block-mover descriptor: host memory to X of core 0, four bytes, done word at X 0x100. -/
def raw6 : Nat := 2 ^ 49 + 4 * 2 ^ 96 + 0x100 * 2 ^ 160 + 7 * 2 ^ 192

/-- A bundle all of whose slots have issued, a halted core, a timer that its base has reached, a pending unmasked line, a CUED
task, a stopped core, positions of a word that fail, a queued and a running descriptor, and PMEM_DATA while idle and while
playing. -/
theorem test_witness_DspCoreEvents :
    (let s := playing6 { playing := true, issued := 15 } .playing
     let t := s.retireCycle 0
     (s.coreOf 0).playing = true ∧ (s.coreOf 0).issued = 15 ∧ t.2 = true ∧ (t.1.coreOf 0).target = none
      ∧ sOp (s.bundleSyl 0 3) ≠ 0x27 ∧ fld (t.1.pr .rdsp 0 0x044) 0 1 = 0)
    ∧ ((playing6 { playing := true, halted := true } .playing).coreOf 0).halted = true
    ∧ ((playing6 { playing := true } .playing).tcmpMet 0 = true
      ∧ ((playing6 { playing := true } .playing).setPr .rdsp 0 0x058 4).tcmpMet 0 = false)
    ∧ (let s := (playing6 { playing := true, imask := 0x80 } .playing).setPr .rdsp 0 0x054 0x80
       s.irqLine 0 = some 7 ∧ (s.coreOf 0).playing = true ∧ (s.coreOf 0).halted = false ∧ (s.coreOf 0).ending = none
        ∧ (s.coreOf 0).issued = 0 ∧ (s.coreOf 0).sh = false)
    ∧ (let s := playing6 {} .cued
       s.cuedOn 0 = some (0, 0) ∧ s.taskOf 0 0 = some (task6 .cued) ∧ s.smRuns = true ∧ (task6 .cued).entry % 16 = 0
        ∧ (task6 .cued).entry < 0x10000)
    ∧ ((playing6 { playing := true, stopping := true } .playing).coreOf 0).stopping = true
    ∧ (({ up with dspEcc := flipBits up.dspEcc (271 * 0x10000) [3, 5] } : State).dspCheck 271 (271 * 0x80000) 1).2 = false
    ∧ (let s := playing6 { playing := true, mover := [raw6] } .playing
       (s.coreOf 0).moverRun = none ∧ (s.coreOf 0).mover = [raw6])
    ∧ (let s := playing6 { playing := true, moverRun := some raw6 } .playing
       let m := s.moverCopy 0 { v := 0, org := 6000, x := 0, item := 0, task := 0 } raw6
       let u := (m.1.forget 6000).setCore 0 { m.1.coreOf 0 with moverWrote := true }
       (s.coreOf 0).moverRun = some raw6 ∧ (s.coreOf 0).moverWrote = false
        ∧ (match m.2 with
           | .ok _ => true
           | _ => false) = true
        ∧ u.acked 6000 0 = true ∧ (u.dspPut 0 (0 * 0x80000 + db raw6 20 4 % 0x20000) (leBytes 4 (db raw6 24 4))).2 = true
        ∧ ((u.dspPut 0 (0 * 0x80000 + db raw6 20 4 % 0x20000) (leBytes 4 (db raw6 24 4))).1.coreOf 0).playing = true)
    ∧ (up.coreOf 271).playing = false := by
  refine ⟨?_, ?_, ?_, ?_, ?_, ?_, ?_, ?_, ?_, ?_⟩ <;> decide +kernel

/-! ## Accelerators -/

/-- A job of a class on engine `eng` of tile 1: header of the class with COUNT 1, input in host memory, output and auxiliary
buffer behind it, and further fields. -/
def raw7 (cls f : Nat) : Nat :=
  (cls + 1) + 2 ^ 8 + 2 ^ 16 + 2 ^ 49 * 2 ^ 64 + (2 ^ 49 + 65536) * 2 ^ 128 + (2 ^ 49 + 131072) * 2 ^ 192 + f * 2 ^ 256
def job7 (cls f : Nat) : Job :=
  { sq := 145, fn := 0, owner := 3, wait := none, tile := 1, item := 0, task := 0, x := 1, line := 0, cls := cls, addr := 2 ^ 49, bytes := jobLen cls,
    raw := raw7 cls f, stat := 2 ^ 49 + 1024, sig := none, res := none, tStart := 0 }
def engine7 (eng : Nat) (j : Job) : State := { up with acc := [(1, { run := [(j.cls * 64 + eng, j)] })] }

def jobRuns7 (s : State) (e k eng : Nat) (kind : Nat → Bool) (f : State → Who → Job → State × JobPlan) : Bool :=
  match s.jobOn e k eng with
  | some j =>
    j.res.isNone && jobCause j eng == 0 && kind j.raw && j.plan.isNone &&
      (match f s (s.jobWho j eng) j with
       | (u, .ready ws r) =>
         (match ((u.forget (s.jobWho j eng).org).setJob e k eng { j with plan := some (ws, r) }).jobWrites e k eng (s.jobWho j eng)
             (ws.drop j.pos) with
          | (v, .ok _) => (v.jobOn e k eng).isSome
          | _ => false)
       | _ => false)
  | none => false

theorem jobRuns_of {s : State} {e k eng : Nat} {kind : Nat → Bool} {f : State → Who → Job → State × JobPlan}
    (h : jobRuns7 s e k eng kind f = true) : ∃ t, s.JobRuns t e k eng kind f := by
  unfold jobRuns7 at h
  split at h
  case h_2 => cases h
  rename_i j hj
  simp only [Bool.and_eq_true, beq_iff_eq, Option.isNone_iff_eq_none] at h
  obtain ⟨⟨⟨⟨h1, h2⟩, h3⟩, h4⟩, h5⟩ := h
  split at h5
  case h_2 => cases h5
  split at h5
  case h_2 => cases h5
  obtain ⟨i, hi⟩ := Option.isSome_iff_exists.mp h5
  exact ⟨_, j, i, _, _, _, _, _, hj, h1, h2, h3, h4, ‹_›, ‹_›, hi, rfl⟩

def fftRaw : Nat := 64 + 4 * 64 * 2 ^ 32 + 4 * 64 * 2 ^ 64
def crcRaw (m : Nat) : Nat := m + 3 * 2 ^ 8 + 64 * 2 ^ 32
def chirpRaw : Nat := 3 + 1024 * 2 ^ 32
def ldRaw (it : Nat) : Nat := 1 + it * 2 ^ 8 + 2 * 2 ^ 16 + 20 * 2 ^ 32 + 2 ^ 52 + 4 * 2 ^ 96 + 4 * 2 ^ 128
def poRaw (dir : Nat) : Nat := dir + 2 + 32 * 2 ^ 16 + 64 * 2 ^ 32

/-- A job of each kind on the last engine of its class. -/
theorem test_witness_AcceleratorJobsRun :
    (∃ s t, State.JobRuns s t 1 0 23 (fun _ => true) planFft)
    ∧ (∃ s t, State.JobRuns s t 1 1 31 (fun _ => true) planLdpcDecode)
    ∧ (∃ s t, State.JobRuns s t 1 2 15 (fun _ => true) planLdpcEncode)
    ∧ (∃ s t, State.JobRuns s t 1 3 7 (fun r => poDir r == 0) planPolarEncode)
    ∧ (∃ s t, State.JobRuns s t 1 3 7 (fun r => poDir r == 1) planPolarDecode)
    ∧ (∀ m ∈ [1, 2, 3, 4, 5], ∃ s t, State.JobRuns s t 1 4 7 (fun r => crMode r == m) planCrc)
    ∧ (∃ s t, State.JobRuns s t 1 5 3 (fun _ => true) planChirp) := by
  have h : ∀ m ∈ [1, 2, 3, 4, 5], jobRuns7 (engine7 7 (job7 4 (crcRaw m))) 1 4 7 (fun r => crMode r == m) planCrc = true := by
    decide +kernel
  exact ⟨⟨engine7 23 (job7 0 fftRaw), jobRuns_of (by decide +kernel)⟩, ⟨engine7 31 (job7 1 (ldRaw 1)), jobRuns_of (by decide +kernel)⟩,
    ⟨engine7 15 (job7 2 (ldRaw 0)), jobRuns_of (by decide +kernel)⟩, ⟨engine7 7 (job7 3 (poRaw 0)), jobRuns_of (by decide +kernel)⟩,
    ⟨engine7 7 (job7 3 (poRaw 1)), jobRuns_of (by decide +kernel)⟩,
    fun m hm => ⟨engine7 7 (job7 4 (crcRaw m)), jobRuns_of (h m hm)⟩, ⟨engine7 3 (job7 5 chirpRaw), jobRuns_of (by decide +kernel)⟩⟩

/-- Modes and generators of the CRC engine, and the recurrences' first values. -/
theorem test_witness_CrcAndScrambling :
    crcPoly 0 = some (24, 0x864CFB) ∧ crcPoly (db (crcRaw 1 * 2 ^ 256) 33 1) = some (16, 0x1021)
      ∧ crMode (crcRaw 5 * 2 ^ 256) = 5 ∧ crLen (crcRaw 5 * 2 ^ 256) = 64 := by decide +kernel

/-- An FFT job of a radio item of partition 3, queued on tile 1 whose FFT arbiter gives the first scenes to that partition. -/
def item7 : Item :=
  { fn := 0, queue := 0, seqNo := 9, tag := 0, kind := 2, mode := 0, desc := 0, gen := 1, owner := 3, radio := true,
    tasks := [] }
def start7 : State :=
  { up with acc := [(1, { queue := [{ job7 0 fftRaw with raw := 0 }] })], work := { items := [(0, item7)] },
            time := { up.time with running := true }, ro := { track := [(0, 3), (1, 3), (2, 3)] },
            host := Memory.write [] 0 (leBytes 48 (raw7 0 fftRaw)),
            hst := { up.hst with parts := [(3, { func := 0, valid := true, tile := 1, acc0 := 1 })] } }
def done7 : Job := { job7 0 fftRaw with res := some { status := 0, cause := 0, done := 1, failed := 0, summary := 0 } }

theorem test_witness_AcceleratorControl_1 :
    (let s := start7
     let j := { job7 0 fftRaw with raw := 0 }
     let r := s.gRead (s.jobWho j 23) j.addr (min j.bytes (jobLen 0)) false
     firstJob (s.jobMay 1 0) [] ((s.accOf 1).queue.filter fun j => j.cls == 0) = some j
      ∧ s.jobOn 1 0 23 = none ∧ s.engineOn 1 0 23 = true ∧ s.smRuns = true ∧ s.domOk (4 + 1) = true
      ∧ (match r.2 with
         | .ok b => leNat b == raw7 0 fftRaw
         | _ => false) = true
      ∧ 5 * engineTime (job7 0 fftRaw) 23 ≤ 6 * r.1.runLeft (400 + 6 * 1 + 0) 3)
    ∧ (let s := { start7 with acc := [(1, { queue := [{ job7 0 fftRaw with addr := 2 ^ 48 }] })] }
       let j := { job7 0 fftRaw with addr := 2 ^ 48 }
       (match (s.gRead (s.jobWho j 23) j.addr (min j.bytes (jobLen 0)) false).2 with
        | .fail _ => true
        | _ => false) = true)
    ∧ (let s := engine7 23 done7
       s.jobOn 1 0 23 = some done7 ∧ s.acked (s.jobWho done7 23).org 1 = true ∧ (104 : BitVec 32).toNat = engineTime done7 23
        ∧ done7.task ≠ 5000
        ∧ (match (s.gWrite (s.jobWho done7 23) done7.stat (jobRecord 1 23 { status := 0, cause := 0, done := 1, failed := 0, summary := 0 } 104
            done7.tStart (s.tsNow 5) (s.jobSummary 1 0 23 { status := 0, cause := 0, done := 1, failed := 0, summary := 0 })) false false).2 with
           | .ok _ => true
           | _ => false) = true)
    ∧ (up.engineOn 1 0 23 = true ∧ up.jobOn 1 0 23 = none ∧ (engine7 23 (job7 0 fftRaw)).jobOn 1 0 23 = some (job7 0 fftRaw))
    ∧ (bufferEcc [] = .good ∧ (bufferEcc [7]).fixed = true ∧ bufferEcc [7, 9] ≠ .good ∧ (bufferEcc [7, 9]).fixed = false) := by
  refine ⟨?_, ?_, ?_, ?_, ?_⟩ <;> decide +kernel

/-- Bank 3 of tile 1 with an enabled channel 127 and a chirp job with its samples taken. -/
def chirp7 (x : ChirpCh) : State :=
  ((({ up with acc := [(1, { run := [(5 * 64 + 3, { job7 5 chirpRaw with res := done7.res })] })] } : State).setPr .chirp 1 0xFFC 1).setBank
    1 3 { taken := 2 ^ 20 }).setChan 1 3 127 x

/-- A channel that searches, one whose sync is overdue and one whose is not, one with a candidate at its end and one with a
fresh one, a bank with a channel enabled and one without. -/
theorem test_witness_AcceleratorControl_2 :
    (let s := chirp7 {}
     let t := (s.chirpTimeout 1 3 127).chirpExpire 1 3 127
     let cfg := t.chCfg 1 3 127
     (s.bankJob 1 3).isSome = true ∧ fld cfg 0 1 = 1 ∧ (t.chanOf 1 3 127).next (t.bankOf 1 3) cfg ≤ (t.bankOf 1 3).taken
      ∧ (t.chirpWindow (job7 5 chirpRaw) 1 3 127 ((t.chanOf 1 3 127).next (t.bankOf 1 3) cfg)
          (windowOf (chips cfg) ((t.bankOf 1 3).window 127 (t.chanOf 1 3 127).gain (chips cfg)
            ((t.chanOf 1 3 127).next (t.bankOf 1 3) cfg - chipSamples * chips cfg)))).isSome = true)
    ∧ ({ phase := .sync false, last := some (2 ^ 30) } : ChirpCh).overdue 0 1 = true
    ∧ ({} : ChirpCh).overdue 0 1 = false
    ∧ ({ cand := some {}, last := some (2 ^ 30) } : ChirpCh).expires 0 1 = true
    ∧ ({ cand := some { at_ := 2 ^ 30 }, last := some (2 ^ 30) } : ChirpCh).expires 0x80 1 = false
    ∧ (chirp7 {}).bankOn 1 3 = true ∧ up.bankOn 1 3 = false
    ∧ ((up.storeAt (pageAddr .chirp 1 + 0x800 + 4 * (128 * 3 + 127)) 1).setChan 1 3 127 {}).bankOn 1 3 = true := by
  refine ⟨?_, ?_, ?_, ?_, ?_, ?_, ?_, ?_⟩ <;> decide +kernel

/-! ## Ethernet -/

/-- Port 15 in its default mode with sub-port 0 enabled and its link up, and transmit queue 31 open on it. -/
def port8 (e : EthSt) : State :=
  ((((({ up with eth := [(15, e)], time := { up.time with running := true } } : State).setPr .eth 15 0x040 0x10).setPr .eth 15 0x044
    0x11).setRg (txqReg 15 31 0) 1).setRg (txqReg 15 31 8) 0x20000).setRg (txqReg 15 31 0x0C) 4
/-- The same with receive queue 11 enabled, a ring of two slots of 2^11 bytes. -/
def recv8 (e : EthSt) : State :=
  (((port8 e).setRg (rxqReg 15 11 0) 1).setRg (rxqReg 15 11 8) 0x20000).setRg (rxqReg 15 11 0x0C) 0xB01
/-- A frame of an EtherType with zeros behind it. -/
def frame8 (ty n : Nat) : List (BitVec 8) := List.replicate 12 0 ++ [BitVec.ofNat 8 (ty / 256), BitVec.ofNat 8 ty] ++ List.replicate n 0
def rx8 : RxFrame :=
  { sp := 0, queue := 11, tb := 0, yellow := false, times := [0], eaxc := 0, msg := 0, bytes := frame8 0x0800 46 }

/-- The shortest frame of each kind, and a buffered frame with room and with a full ring. -/
theorem test_witness_EthernetReceive :
    (port8 {}).spUp 15 0 = true ∧ (frame8 0x8808 49).length < 64 ∧ 9216 < (frame8 0x8808 9203).length
    ∧ (∀ ty ∈ [0x8808, 0x88F7, 0x0800], 64 ≤ (frame8 ty 50).length ∧ (frame8 ty 50).length ≤ 9216 ∧ etherType (frame8 ty 50) = ty)
    ∧ ptpAt (frame8 0x88F7 46) ≠ none ∧ ptpAt (frame8 0x0800 46) = none
    ∧ (let s := (recv8 { buf := [rx8] }).meterFrames 15
       findFrom (fun f => s.rxMay 15 f) (s.ethOf 15).buf 0 = some 0 ∧ (s.ethOf 15).buf[0]? = some rx8
        ∧ fld (s.rg (rxqReg 15 11 0)) 0 1 = 1
        ∧ (s.rg (rxqReg 15 11 0x10) - s.rg (rxqReg 15 11 0x14)).toNat ≠ 2 ^ fld (s.rg (rxqReg 15 11 0x0C)) 0 5
        ∧ (s.rxRecord 15 rx8).2 = false ∧ isEcpri rx8.bytes = false
        ∧ (match (s.gWrite { v := 0, org := 8015, x := 0, item := 0, task := 0 } (s.rxSlot 15 11) (s.rxRecord 15 rx8).1 false false).2 with
           | .ok _ => true
           | _ => false) = true)
    ∧ (let s := ((recv8 { buf := [rx8] }).setRg (rxqReg 15 11 0x10) 2).meterFrames 15
       findFrom (fun f => s.rxMay 15 f) (s.ethOf 15).buf 0 = some 0
        ∧ (s.rg (rxqReg 15 11 0x10) - s.rg (rxqReg 15 11 0x14)).toNat = 2 ^ fld (s.rg (rxqReg 15 11 0x0C)) 0 5) := by
  refine ⟨?_, ?_, ?_, ?_, ?_, ?_, ?_, ?_⟩ <;> decide +kernel

theorem test_witness_EthernetControl :
    fld ((up.setPr .eth 15 0x040 0).rg (pageAddr .eth 15 + 0x040)) 4 4 = 0 ∧ fld (2 : Word) 0 2 ≠ 3
    ∧ fld ((port8 {}).rg (pageAddr .eth 15 + 0x040)) 4 4 ≠ 0 ∧ fld (0xF0 : Word) 4 4 = 15
    ∧ (port8 {}).spOn 15 0 = true ∧ ((port8 {}).ethOf 15).refLost = false ∧ (port8 {}).spUp 15 0 = true
    ∧ (∀ w v, (w, v) ∈ [(1, (7 : Word)), (2, 8), (3, 9)] →
        Tbl.look ((port8 { staged := [(509, 7), (510, 8), (511, 9)] }).ethOf 15).staged (4 * 127 + w) = some v) := by
  refine ⟨?_, ?_, ?_, ?_, ?_, ?_, ?_, ?_⟩
  case refine_8 =>
    intro w v h
    simp only [List.mem_cons, Prod.mk.injEq, List.not_mem_nil, or_false] at h
    rcases h with ⟨rfl, rfl⟩ | ⟨rfl, rfl⟩ | ⟨rfl, rfl⟩ <;> decide +kernel
  all_goals decide +kernel

def tx8 : TxFrame :=
  { queue := 31, idx := 0, bytes := frame8 0x0800 46, win := false, winStart := 0, winEnd := 0, tsReq := false, status := 0 }
/-- The descriptor of a 60-byte immediate frame, at the head of the ring in host memory. -/
def send8 : State :=
  { (port8 {}).setRg (txqReg 15 31 0x10) 1 with host := Memory.write [] 0 (leBytes 32 (2 ^ 49 + 4096 + 60 * 2 ^ 64)) }

/-- A descriptor with a length and flags whose data is at an address. -/
def post8 (ga len flags : Nat) : State :=
  { (port8 {}).setRg (txqReg 15 31 0x10) 1 with
    host := Memory.write [] 0 (leBytes 32 (ga + len * 2 ^ 64 + flags * 2 ^ 80)) }
def read8 (s : State) : State × Got := s.gRead (s.txWho 15 31) (s.txDesc 15 31 0) 32 false

/-- Doorbells of an empty queue and of one that is not; an immediate frame at the head, one whose length breaks the rules, one
whose data cannot be read, a windowed frame and one behind the head; a frame that starts and one on the wire. -/
theorem test_witness_EthernetTransmit :
    (port8 {}).rg (txqReg 15 31 0x10) = (port8 {}).rg (txqReg 15 31 0x14) ∧ send8.rg (txqReg 15 31 0x10) ≠ send8.rg (txqReg 15 31 0x14)
    ∧ (send8.txOn 15 31 = true ∧ 0 < (send8.rg (txqReg 15 31 0x10) - send8.rg (txqReg 15 31 0x14)).toNat
      ∧ (send8.ethOf 15).has 31 (send8.rg (txqReg 15 31 0x14) + BitVec.ofNat 32 0).toNat = false
      ∧ (send8.txFetchOne 15 31 (send8.rg (txqReg 15 31 0x14) + BitVec.ofNat 32 0).toNat).2 = true)
    ∧ (∀ s ∈ [send8, post8 (2 ^ 49) 59 0, post8 (2 ^ 49) 16385 2, post8 (2 ^ 49) 9213 0, post8 (2 ^ 49) 60 1, post8 (2 ^ 48) 60 0],
        s.mayCross 15 (s.txDesc 15 31 0) 32 false (fld (s.txCtl 15 31) 6 1 == 1) (fld (s.txCtl 15 31) 12 4) = true
        ∧ (match (read8 s).2 with
           | .ok _ => true
           | _ => false) = true)
    ∧ (send8.rg (txqReg 15 31 0x14)).toNat = 0 ∧ (1000 * fld (send8.pr .tmgr 15 0x040) 24 8 : Nat) < send8.ahead 15 31 (2 ^ 30)
    ∧ send8.ahead 15 31 0 ≤ (1000 * fld (send8.pr .tmgr 15 0x040) 24 8 : Nat)
    ∧ (let t := (read8 send8).1
       t.mayCross 15 (2 ^ 49 + 4096) 60 false false (fld (send8.txCtl 15 31) 12 4) = true
        ∧ (match (t.gRead (send8.txWho 15 31) (2 ^ 49 + 4096) 60 false).2 with
           | .ok _ => true
           | _ => false) = true
        ∧ (match (t.gRead (send8.txWho 15 31) (2 ^ 48) 60 false).2 with
           | .fail st => st == stAccess
           | _ => false) = true)
    ∧ (let s := port8 { fetched := [tx8] }
       let t := (List.range 32).foldl (fun s q => s.txSettle 15 q 4) s
       s.spUp 15 0 = true ∧ Tbl.get none (s.ethOf 15).onWire 0 = none ∧ t.txPick 15 0 = some tx8)
    ∧ (let f := { tx8 with win := true, winStart := 0, winEnd := 1 }
       let s := port8 { fetched := [f] }
       let t := (List.range 32).foldl (fun s q => s.txSettle 15 q 4) s
       t.ahead 15 31 1 < t.serial 15 f.bytes.length)
    ∧ (let s := port8 { onWire := [(0, some tx8)] }
       Tbl.get none (s.ethOf 15).onWire 0 = some tx8
        ∧ (s.txEnd 15 tx8 1 (stampNs (nth (0, 0, 0) tx8.stamp (fld (s.txCtl 15 31) 8 3)))).isSome = true) := by
  refine ⟨?_, ?_, ?_, ?_, ?_, ?_, ?_, ?_, ?_, ?_, ?_⟩ <;> decide +kernel

/-! ## Time -/

def time9 (t : TimeSt) : State := { up with time := { t with running := true } }

theorem test_witness_TickOfABase :
    (let x : TBase := { sec := 2 ^ 48 - 1, ns := 999999999, frac := 2 ^ 32 - 1, inc := 0x110000000 }
     x.ns < 1000000000 ∧ x.frac < 2 ^ 32 ∧ x.sec < 2 ^ 48 ∧ x.inc.toNat < 2 ^ 33)
    ∧ (time9 {}).time.running = true ∧ (time9 {}).time.pend = [] ∧ (time9 {}).time.bases.length = 8 := by decide

/-- Increment words at both bounds and just outside them. -/
theorem test_witness_IncrementCommit :
    (let w := fun (lo : Word) (hi : BitVec 32) =>
       ((Tbl.get none ({ up with staged := [(pairKey .fw (tbReg 7 0x10), some lo)] } : State).staged
         (pairKey .fw (tbReg 7 0x10))).getD 0).toNat + 2 ^ 32 * (hi.toNat % 256)
     w 0xF0000000 0 = 0xF0000000 ∧ w 0x10000000 1 = 0x110000000 ∧ w 0xEFFFFFFF 0 < 0xF0000000 ∧ 0x110000000 < w 0x10000001 1) := by
  decide +kernel

theorem test_witness_TimeCommands_1 :
    (let s := time9 { pend := [(7, .setTo 5 6, 64)] }
     s.time.running = true ∧ s.time.bases.length = 8 ∧ s.time.pend = [(7, .setTo 5 6, 64)] ∧ s.flt.due = []
      ∧ (time9 { pend := [(0, .step (-1), 1)] }).time.pend = [(0, .step (-1), 1)])
    ∧ (time9 {}).cmdPending 7 = false
    ∧ ((time9 {}).setRg (tbReg 7 0x20) 999999999).rg (tbReg 7 0x20) < 1000000000
    ∧ 1000000000 ≤ ((time9 {}).setRg (tbReg 7 0x20) 1000000000).rg (tbReg 7 0x20) := by
  decide +kernel

/-- A die whose copy of the time unit agrees, one whose copy has just come to differ, and one that waits for its reload. -/
theorem test_witness_TimeCommands_3 :
    (let l := (time9 { bases := [{}] }).time.bases
     flipTime l [] = l ∧ flipTime l [7] ≠ l
      ∧ crc32c ((flipTime l [7]).flatMap TBase.bytes) ≠ crc32c (l.flatMap TBase.bytes)
      ∧ Tbl.get none (time9 { bases := [{}] }).time.copies 5 = none
      ∧ Tbl.get none (time9 { bases := [{}], copies := [(5, some (flipTime l [7], 3))] }).time.copies 5 = some (flipTime l [7], 3)) := by
  refine ⟨?_, ?_, ?_, ?_, ?_⟩ <;> decide +kernel

/-- A pulse that is due, a pulse that is high, an edge within 16 ns of the last, one past it with room and with a full FIFO, and
both FIFOs with an entry. -/
theorem test_witness_TimeCommands_2 :
    ((time9 { tpo := [(15, { armed := true, next := 0 })] }).tpoOf 15 = { armed := true, next := 0 }
      ∧ 0 ≤ ((time9 {}).base (fld ((time9 {}).rg (tpoReg 15 0)) 4 3)).total)
    ∧ (((time9 { tpo := [(15, { high := true })] }).tpoOf 15).high = true ∧ fld ((time9 {}).rg (tpoReg 15 0)) 0 1 = 0
      ∧ 0 ≤ ((time9 {}).base (fld ((time9 {}).rg (tpoReg 15 0)) 4 3)).total)
    ∧ (let s := fun (t : TimeSt) => (time9 t).setRg (tciReg 7 0) 5
       fld ((s {}).rg (tciReg 7 0)) 0 1 = 1 ∧ fld ((s {}).rg (tciReg 7 0)) 1 2 = 2
        ∧ Tbl.get none (s { lastEdge := [(7, some 0)], clk := 16 }).time.lastEdge 7 = some 0
        ∧ (s { lastEdge := [(7, some 0)], clk := 16 }).time.clk ≤ 0 + 16
        ∧ Tbl.get none (s { clk := 17 }).time.lastEdge 7 = none ∧ ((s {}).tciOf 7).length < 16
        ∧ 16 ≤ ((s { tci := [(7, List.replicate 16 ⟨0, 0, 0, true⟩)] }).tciOf 7).length)
    ∧ (time9 { tci := [(7, [⟨1, 2, 3, true⟩])] }).tciOf 7 = [⟨1, 2, 3, true⟩]
    ∧ (time9 { txts := [⟨15, 31, 255, 7, 1, 2, 3⟩] }).time.txts = [⟨15, 31, 255, 7, 1, 2, 3⟩] := by
  decide +kernel

/-! ## Memory -/

theorem test_witness_ChannelMap :
    hbmSize - 1 < hbmSize ∧ (255 : Nat) < 256 ∧ 0xBFFFFFFF < 0xC0000000 ∧ 0xBFFFFF < 0xC00000 := by decide

/-- The last line of the window, up and sound, with one erring bit, two adjacent ones and two others, poisoned, and whole and
partial writes; a line that waits for its write-back. -/
theorem test_witness_LineOutcomes :
    up.lineUp (hbmSize / 64 - 1) = true ∧ up.lineUp 0 = true ∧ up.stackFault (hbmInst 0) = false ∧ up.poison.contains 0 = false
    ∧ (∀ i, i < 8 → Tbl.get [] up.ecc (8 * 0 + i) = [])
    ∧ (let s := { up with ecc := [(7, [71])] }
       Tbl.get [] s.ecc (8 * 0 + 7) = [71] ∧ ∀ i, i < 8 → i ≠ 7 → Tbl.get [] s.ecc (8 * 0 + i) = [])
    ∧ Tbl.get [] ({ up with ecc := [(0, [3, 4])] } : State).ecc 0 = [3, 3 + 1]
    ∧ Tbl.get [] ({ up with ecc := [(0, [3, 5])] } : State).ecc 0 = [3, 5] ∧ 5 ≠ 3 + 1
    ∧ ({ up with poison := [0] } : State).poison.contains 0 = true ∧ up.ownerOf (64 * 0) = none
    ∧ 56 + [1, 2, 3, 4, 5, 6, 7, (8 : Nat)].length ≤ 64 ∧ partWords 56 8 = [] ∧ partWords 56 7 ≠ []
    ∧ ({ up with wb := [0] } : State).wb.contains 0 = true ∧ up.wb.contains 0 = false
    ∧ (up.setPr .fault 0 0x048 0x40).stackFault (hbmInst 0) = true := by
  decide +kernel

theorem test_witness_MemoryMaintenance :
    up.hbmUp 255 = true ∧ up.fullWipe = false ∧ up.maintOff = false ∧ up.stackFault 255 = false
    ∧ up.poison.contains (hbmOffset 255 (64 * ((up.hcOf 255).scrub % chanLines)) / 64) = false
    ∧ (up.clOf 143).pwr ≠ .dark ∧ up.rst.warm = false ∧ up.rst.doms.contains (143 / 36) = false
    ∧ up.csPoison.contains (143 * 49152 + (up.clOf 143).scrub % 49152) = false
    ∧ (let s := { up with hc := [(255, { repair := some ⟨7, false⟩ })], time := { up.time with running := true },
                          ro := { track := [(0, 0x11)] } }
       (s.hcOf 255).repair = some ⟨7, false⟩ ∧ s.ownerNow (16 + 255) = 0x11)
    ∧ (let s := { up with hc := [(255, { repair := some ⟨7, true⟩ })] }
       (s.hcOf 255).repair = some ⟨7, true⟩ ∧ Tbl.get 0 (s.hcOf 255).used (bankOf 7) < spareRows)
    ∧ (let s := { up with hc := [(255, { repair := some ⟨7, true⟩, used := [(bankOf 7, spareRows)] })] }
       spareRows ≤ Tbl.get 0 (s.hcOf 255).used (bankOf 7))
    ∧ ({ up with boot := { up.boot with phase := 4 } } : State).boot.phase = 4 ∧ ({ up with wipes := [.full] } : State).fullWipe = true
    ∧ ({ up with hst := { up.hst with fns := [(255, { fnReset 255 with st := .striking, wiping := true })] } } : State).wipeDue 255 = true
    ∧ ({ up with wipes := [.strike 255] } : State).wipes.contains (.strike 255) = true
    ∧ (up.takePair .pcie0 0x300040 0).2 < hbmSize := by
  refine ⟨?_, ?_, ?_, ?_, ?_, ?_, ?_, ?_, ?_, ?_, ?_, ?_, ?_, ?_, ?_, ?_, ?_⟩ <;> decide +kernel

/-! ## Links -/

def link9 (x : Link) : State := { up with links := [(47, x)] }

/-- A link that has been in a state for a time. -/
def since9 (st : LinkState) (ns : Nat) : State := { link9 { st := st } with time := { up.time with clk := ns } }

/-- A link in each state, with a training, a retrain and a pause at their bounds, five and four lanes, and a penalty below and at 750. -/
theorem test_witness_LinkStates :
    (link9 {}).linkOk 47 = true ∧ ((link9 {}).linkOf 47).st = .disabled ∧ ((link9 {}).linkOf 47).st ≠ .active
    ∧ 5 ≤ lanesIn ((link9 {}).inService 47 (0x1F : BitVec 10).toNat) ∧ lanesIn ((link9 {}).inService 47 (0xF : BitVec 10).toNat) < 5
    ∧ (∀ st ∈ [LinkState.detect, .train, .config, .active, .retrain, .down, .damped], ((link9 { st := st }).linkOf 47).st = st)
    ∧ (since9 .train 50000000).time.clk - ((since9 .train 50000000).linkOf 47).since = 50000000
    ∧ (since9 .retrain 100000).time.clk - ((since9 .retrain 100000).linkOf 47).since = 100000
    ∧ (since9 .down 1000000).time.clk - ((since9 .down 1000000).linkOf 47).since = 1000000
    ∧ penNow (link9 {}).time.clk ((link9 { pen := (749, 0) }).linkOf 47).pen < 750
    ∧ 750 ≤ penNow (link9 {}).time.clk ((link9 { pen := (750, 0) }).linkOf 47).pen ∧ (link9 {}).flt.due = [] := by
  decide +kernel

def flit9 (n : Nat) (ok : Bool) : Flit := ⟨.data, BitVec.ofNat 12 n, 0, [0, 0, 0, 0], ok, [], false, none⟩

/-- A flit in sequence (across the wrap), one out of sequence, one with a bad CRC, a NAK, a lock loss below and at 3,000, a lane
without lock, and a lane map with and without a spare. -/
theorem test_witness_FlitsAndLanes :
    (let s := link9 { st := .active, txNext := 1 }
     s.linkActive 47 = true ∧ (flit9 0 true).uncorrectable = false ∧ (flit9 0 true).crcOk = true ∧ (flit9 0 true).ty = .data
      ∧ (flit9 0 true).fseq.toNat = ((s.linkOf 47).rxSeq + 1) % 4096 ∧ (flit9 1 true).fseq.toNat ≠ ((s.linkOf 47).rxSeq + 1) % 4096
      ∧ (s.linkOf 47).nakSent = false ∧ 0 < (s.linkOf 47).unacked ∧ (flit9 0 false).crcOk = false
      ∧ (s.linkOf 47).txAcked = (4095 : BitVec 12).toNat ∧ (s.linkOf 47).replays = [])
    ∧ (addPen (link9 {}).time.clk (1999, 0) 1000).1 < 3000 ∧ 3000 ≤ (addPen (link9 {}).time.clk (2000, 0) 1000).1
    ∧ (Tbl.get 0 ((link9 { noLock := [(9, 1)] }).linkOf 47).noLock 9 = 0 + 1 ∧ 0 + 10000 ≤ ({ link9 {} with time := { up.time with clk := 10000 } } : State).time.clk)
    ∧ fld ((link9 {}).laneMap 47) 0 1 = 1 ∧ fld ((link9 {}).laneMap 47) 10 4 < 10 ∧ fld ((link9 {}).laneMap 47) 9 1 = 0
    ∧ (let s := (link9 {}).setLaneMap 47 (setFld ((link9 {}).laneMap 47) 10 4 0xF)
       10 ≤ fld (s.laneMap 47) 10 4 ∧ fld (s.laneMap 47) 0 1 = 1) := by
  decide +kernel

/-! ## Fabric and pairing -/

/-- Node 0 with fabric and forwarding enabled; VF 1, of FPID 7, owns the first extent; link 0 is ACTIVE and leads to node 2. -/
def node9 : State :=
  { up.setPr .fabric 0 0x044 7 with
    hst := { up.hst with exts := [(0, some (1, false))], fns := [(1, { fnReset 1 with st := .live, fpid := 7 })] },
    links := [(0, { st := .active, credit := fullCredit })], fab := { up.fab with route := [(2, 0)] } }
/-- The request a row of a kind carries in the tests below. -/
def reqOf9 (kind : Nat) : FabReq :=
  { src := 1, dst := 0, seqNo := 0, epoch := 0, attempt := 0, fpid := 7, off := 0, bytes := 7, rid := 0, spec := false,
    poison := false, tag := none, aopc := 0, w64 := true,
    data := if kind = tyWr ∨ kind = tyMirw then List.replicate 8 1 else if kind = tyAtom then List.replicate 16 1 else [] }

/-- A request of each kind is in order, a copy, for a node behind a link; a read of granted pages sound and poisoned; a refused
write; a repeated tag. -/
theorem test_witness_RequestsArrive :
    (∀ kind ∈ [tyRd, tyWr, tyAtom, tyTagrel, tyMirw, tyMirc],
      (let r := reqOf9 kind
       let h := node9.hear 1
       let t := h.setDstPair 1 { h.dstPair 1 with held := [(kind, r)] }
       let a := t.applyReq kind r
       node9.pairOf 1 0 = 1 ∧ fld (node9.pr .fabric 0 0x044) 0 1 = 1 ∧ node9.isMine 0 = true ∧ node9.rst.warm = false
        ∧ (h.dstPair 1).epoch = r.epoch ∧ r.seqNo.toNat = (h.dstPair 1).expect ∧ (h.dstPair 1).held = []
        ∧ (match a.2 with
           | .done => true
           | _ => false) = true
        ∧ (a.1.dstPair 1).held = [(kind, r)] ∧ (a.1.dstPair 1).flushes = [] ∧ (a.1.dstPair 1).sinceAck + 1 < 64))
    ∧ seqLe (({} : PairDst)).expect 0xFFFFFFFF = false
    ∧ node9.isMine 2 = false ∧ node9.linkFor 2 0 7 0 = some 0 ∧ fld (node9.pr .fabric 0 0x044) 2 1 = 1
    ∧ node9.fpOk 7 0 8 false = true ∧ node9.hbmWaits 0 8 = false
    ∧ (node9.hbmRead 0 8 false).2.isSome = true ∧ (({ node9 with poison := [0] } : State).hbmRead 0 8 false).2 = none
    ∧ node9.fpOk 8 0 8 true = false
    ∧ (let g : EffTag := ⟨1, 0, 0, 0, 0⟩
       ({ node9 with fab := { node9.fab with tags := [⟨1, g, 0, 0, 0⟩] } } : State).tagRec 1 0 g = some ⟨1, g, 0, 0, 0⟩) := by
  decide +kernel

/-- A pair with one unacknowledged write, a read and an atomic outstanding, and what the timers wait for. -/
def un9 (sends link : Nat) (busy : Bool) : Unacked :=
  { seqNo := 5, attempt := 0, sends := sends, link := link, req := reqOf9 tyWr, kind := tyWr, busy := busy, origin := none }
def pair9 (u : Unacked) : State :=
  { node9 with fab := { node9.fab with
      src := [(1, { seqNo := 6, unacked := [u] })], reads := [⟨3, 1, 0, 0, false⟩, ⟨4, 1, 0, 0, true⟩],
      dst := [(1, { sinceAck := 1 })], lost := [9] } }

theorem test_witness_FabricResponses :
    (let s := pair9 (un9 1 0 false)
     let h := s.hear 1
     h.readOf 1 3 false = some ⟨3, 1, 0, 0, false⟩ ∧ h.readOf 1 4 true = some ⟨4, 1, 0, 0, true⟩
      ∧ (h.srcPair 1).epoch = 0 ∧ (h.srcPair 1).epoch ≠ 1 ∧ h.und.outq = []
      ∧ (h.srcPair 1).unacked.find? (fun u => u.seqNo == 5) = some (un9 1 0 false) ∧ tyWr ≠ tyRd ∧ tyWr ≠ tyAtom
      ∧ s.unackedOf 1 5 = some (un9 1 0 false) ∧ (un9 1 0 false).sends ≤ fld (s.pr .fabric 0 0x04C) 0 4
      ∧ s.heldBack 1 < (s.dstPair 1).sinceAck ∧ ((s.sendAck 1).dstPair (1 + 16384)).sinceAck = 0
      ∧ s.unreachable 3 = true ∧ 3 ≠ s.node ∧ s.fab.lost.contains 9 = true ∧ s.fab.lost.contains 8 = false)
    ∧ (pair9 (un9 1 63 true)).unackedOf 1 5 = some (un9 1 63 true)
    ∧ fld ((pair9 (un9 15 0 false)).pr .fabric 0 0x04C) 0 4 < (un9 15 0 false).sends
    ∧ Tbl.get none ({ node9 with staged := [(pairKey .fw 0x430060, some 7)] } : State).staged (pairKey .fw 0x430060) = some 7
    ∧ (0 : Word).toNat = sumBy (fun b => if (pair9 (un9 1 0 false)).fab.lost.contains (32 * 1 + b) then 2 ^ b else 0) (List.range 32)
    ∧ (let s := { node9 with hbm := Memory.write [] 0 (leBytes 4 (0 + 2 * 65536)) }
       let u := ((s.setRg 0x430404 0).setRg 0x430408 0).setRg 0x430400 2
       (s.takePair .fw 0x430404 0).2 = 0 ∧ fld (u.rg (0x430400 + 0x10 * 0)) 0 15 = 2 ∧ 0 / 2 ^ 50 = u.node ∧ 0 % 2 ^ 50 + 2 * 2 ≤ hbmSize
        ∧ (match (u.hbmRead 0 4 false).2 with
           | some l => (List.range 2).map (fun i => fb l (2 * i) 2) == [0, 2]
           | none => false) = true
        ∧ [0, 2].Nodup ∧ findFrom (· == u.node) [0, 2] 0 = some 0) := by
  refine ⟨?_, ?_, ?_, ?_, ?_, ?_⟩ <;> decide +kernel

/-- The understudy (ROLE 2) or the lead (ROLE 1) of VF 1, paired with node 2, with both witnesses configured or none. -/
def und9 (role wit : Nat) (u : UndSt) : State :=
  { ((node9.setPr .chip 0 0x094 (BitVec.ofNat 32 (role + 256))).setPr .chip 0 0x098 2).setPr .fabric 0 0x054 (BitVec.ofNat 32 wit)
      with und := u }

theorem test_witness_UnderstudyPairing :
    ((und9 2 0 {}).und.st = .none ∧ (und9 2 0 {}).undRole = 2 ∧ (und9 1 0 {}).compareOnly (und9 1 0 {}).undFn = false)
    ∧ (und9 2 0 { st := .syncing }).undRole = 2 ∧ (und9 1 0 { st := .syncing }).undRole ≠ 2
    ∧ (und9 1 0 { st := .syncing, synced := 2 ^ 26 }).synced = true
    ∧ (let s := und9 2 0 { st := .mirroring, current := true, lead := [(7, 4095, 5)], own := [(7, 4095, 5)] }
       let t := { s with und := { s.und with lead := [], own := [] } }
       let u := (t.bump .chip 0 0x0A4 1).bump .chip 0 0x0AC 1
       s.compareOnly s.undFn = true ∧ s.und.lead = [((7 : BitVec 64).toNat, 4095, 5)] ∧ s.undRole = 2 ∧ s.und.current = true
        ∧ ((u.pr .chip 0 0x0A4).toNat < (u.pr .chip 0 0x0A0).toNat ∨ (u.pr .chip 0 0x0A0).toNat ≤ (u.pr .chip 0 0x0A4).toNat)
        ∧ s.und.st ≠ .none ∧ s.und.st ≠ .abandoned)
    ∧ (und9 2 0 { st := .broken }).und.current = false
    ∧ (und9 2 0 {}).witness 1 = none ∧ (und9 2 0x8003 {}).witness 0 = some 3 ∧ (und9 2 0x8003 {}).witness 1 = none
    ∧ ((und9 2 0x80048003 { st := .mirroring, suspect := true }).witness 1).isSome = true
    ∧ (let s := und9 2 0x80048003 { st := .mirroring, current := true, suspect := true, answers := [(0, false), (1, false)] }
       s.allSilent = true ∧ s.undRole = 2 ∧ s.und.current = true)
    ∧ fld (node9.pr .fabric 0 0x044) 1 1 = 1 ∧ node9.fab.takeovers.contains (5, 6) = false := by
  refine ⟨?_, ?_, ?_, ?_, ?_, ?_, ?_, ?_, ?_, ?_, ?_, ?_, ?_⟩ <;> decide +kernel

theorem test_witness_OpticalModules :
    (let s := up.setPr .optm 47 0x040 1
     s.modOn 47 = true ∧ (s.modOf 47).present = false ∧ ((s.setMod 47 { present := true }).setPr .optm 47 0x044 1).modOn 47 = true
      ∧ ((s.setMod 47 { present := true }).modOf 47).present = true
      ∧ (((s.keepLaser (s.modIdent 47) (s.modOf 47).laser).setMod 47 {}).setPr .optm 47 0x044 0).modOn 47 = true) := by
  decide +kernel

/-- A fabric that is off, a device in a warm reset; a request ahead of its turn, one of an older and one of a newer epoch; a sound
write and atomic; a mirrored write of the lead. -/
theorem test_witness_RequestsArrive_2 :
    fld ((node9.setPr .fabric 0 0x044 0).pr .fabric 0 0x044) 0 1 = 0
    ∧ (let s := { node9 with rst := { node9.rst with warm := true } }
       s.isMine 0 = true ∧ s.rst.warm = true ∧ fld (s.pr .fabric 0 0x044) 0 1 = 1)
    ∧ (let p := (node9.hear 1).dstPair 1
       seqLe p.expect 5 = true ∧ 5 ≠ p.expect ∧ p.held = [] ∧ (node9.hear 1).reorder < 16384
        ∧ 128 ≤ ((255 : BitVec 8) - p.epoch).toNat ∧ 0 < ((127 : BitVec 8) - p.epoch).toNat ∧ ((127 : BitVec 8) - p.epoch).toNat ≤ 127)
    ∧ (node9.hbmWrite 0 (List.replicate 8 1) false).2 = true
    ∧ node9.fpOk 7 0 8 true = true
    ∧ (node9.hbmAtom 1 0 0 8 1 1 f32add none).2.1 = 0
    ∧ (node9.hbmAtom 1 4 0 8 1 1 f32add none).2.1 ≠ 0
    ∧ (let s := und9 2 0 { st := .mirroring }
       s.compareOnly s.undFn = true ∧ s.undPeer = 2 ∧ s.ownsHbm s.undFn 0 8 = true ∧ s.hbmWaits 0 8 = false
        ∧ (s.hbmWrite 0 (List.replicate 8 1) false).2 = true) := by
  refine ⟨?_, ?_, ?_, ?_, ?_, ?_, ?_, ?_⟩ <;> decide +kernel

/-- Headers of this node and of another behind a link; timers that have come due; a lost node with work that waits for it. -/
theorem test_witness_FabricResponses_2 :
    (node9.isMine 0 = true ∧ node9.isMine 2 = false ∧ node9.linkFor 2 0 0 0 = some 0)
    ∧ (let s := fun (u : Unacked) => { pair9 u with time := { up.time with clk := 10 ^ 9 } }
       ((s { un9 1 0 true with busyAt := 5 }).unackedOf 1 5 = some { un9 1 0 true with busyAt := 5 } ∧ 5 + 1000 ≤ 10 ^ 9)
        ∧ (s (un9 1 0 false)).time.clk = 10 ^ 9
        ∧ (un9 1 0 false).sentAt + 1000 * fld ((s (un9 1 0 false)).pr .fabric 0 0x048) 0 8 ≤ 10 ^ 9
        ∧ ((s (un9 1 0 false)).dstPair 1).firstAt + 200 ≤ 10 ^ 9
        ∧ (s (un9 1 63 false)).unreachable 1 = true ∧ (s (un9 1 63 false)).unreachSince 1 + 100000 ≤ 10 ^ 9
        ∧ ((s (un9 1 63 false)).srcPair 1).unacked ≠ [])
    ∧ (let h := (pair9 { un9 1 0 false with kind := tyRd, req := { reqOf9 tyRd with rid := 3 } }).hear 1
       h.fab.reads.find? (fun o => o.rid == (3 : BitVec 16).toNat && o.dst == 1) = some ⟨3, 1, 0, 0, false⟩)
    ∧ ((und9 1 0 { st := .mirroring }).undRole = 1 ∧ (und9 1 0 { st := .mirroring }).undPeer = 2
        ∧ (und9 1 0 { st := .mirroring }).und.st ≠ .none)
    ∧ node9.routeEntry % 2 ^ 30 < 2 ^ 30 := by
  refine ⟨?_, ?_, ?_, ?_, ?_⟩ <;> decide +kernel

/-- A lead that starts a pairing, one that compares and may go on, one that has been silent, and one heard of just now. -/
theorem test_witness_UnderstudyPairing_2 :
    ((und9 2 0 {}).setPr .chip 0 0x0A4 0).undRole = 2
    ∧ (let s := und9 1 0 {}
       let t := ({ s with und := { st := .syncing, current := true } } : State).setPr .chip 0 0x0A4 0
       s.und.st = .none ∧ s.undRole = 1 ∧ t.undRole = 1)
    ∧ (let s := und9 2 0x80048003 { st := .mirroring }
       let t := { s with und := { s.und with suspect := true, answers := [] } }
       s.compareOnly s.undFn = true ∧ s.heardFrom s.undPeer = false ∧ t.witness 0 = some 3
        ∧ ((t.note 1 3 t.node t.undPeer).witness 1).isSome = true)
    ∧ (let s := und9 2 0x8003 { st := .mirroring }
       let t := { s with und := { s.und with suspect := true, answers := [] } }
       ((t.note 1 3 t.node t.undPeer).witness 1) = none)
    ∧ ({ node9 with fab := { node9.fab with takeovers := [(5, 6)] } } : State).fab.takeovers.contains (5, 6) = true := by
  refine ⟨?_, ?_, ?_, ?_, ?_⟩ <;> decide +kernel

/-! ## Tenants -/

/-- A device whose VF 255 is selected and in a state. -/
def fn9 (f : Fn) : State :=
  { up.setPr .host 0 0x044 255 with hst := { up.hst with fns := [(255, f)] } }

/-- The shortest image: a header whose eight sections are empty, and its digest. -/
def head9 : List Byte :=
  leBytes 64 (0x31474D49 + 2 ^ 32 + 288 * 2 ^ 64) ++ (List.range 8).flatMap (fun i => leBytes 16 (i + 1 + 256 * 2 ^ 64)) ++ List.replicate 64 0
def image9 : List Byte := head9 ++ digBytes (sha3 head9)

theorem test_image_ok : imageOk image9 = true := by decide +kernel

/-- The image in host memory for a function in SETTING that may be restored. -/
def img9 (exts : List (Nat × Option (Nat × Bool))) (b : List Byte) : State :=
  { (fn9 { st := .setting }).setPr .host 0 0x054 0x20000 with
    host := Memory.write [] 0 b, hst := { up.hst with fns := [(255, { st := .setting })], exts := exts } }

/-- What RESTORE asks of an image in memory: what it reads, whether it is valid, and whether it fits. -/
def restore9 (s : State) : Option (Bool × Bool) :=
  match s.gRead (s.smWho 0 0 0) s.imgAddr 256 false with
  | (t, .ok h) =>
    if fb h 0 4 = 0x31474D49 ∧ fb h 4 2 = 1 ∧ 288 ≤ fb h 8 8 ∧ fb h 8 8 ≤ 2 ^ 41 then
      (match t.gRead (t.smWho 0 0 0) t.imgAddr (fb h 8 8) false with
       | (u, .ok b) => some (b == image9 || imageOk b, (u.forget 7000).imageFits 255 (sectionAt b 6))
       | _ => none)
    else none
  | _ => none

/-- A valid image that fits, one that does not fit, and one whose digest is wrong. -/
theorem test_witness_Restore :
    restore9 (img9 [] image9) = some (true, true) ∧ restore9 (img9 [(0, some (255, false))] image9) = some (true, false)
      ∧ (restore9 (img9 [] (image9.set 287 (image9.getD 287 0 + 1)))).map (·.1) = some false ∧ imageOk image9 = true :=
  ⟨by decide +kernel, by decide +kernel, by decide +kernel, test_image_ok⟩

theorem test_witness_FunctionStates :
    (fn9 {}).vfSel = 255 ∧ ((fn9 {}).fnOf 255).st = .dark
    ∧ (∀ st ∈ [FnState.dark, .setting, .live, .intermission, .striking], ((fn9 { st := st }).fnOf 255).st = st)
    ∧ (fn9 { st := .setting }).grantsOk 255 = true ∧ ((fn9 { st := .setting, cl := 1 }).fnOf 255).cl ≠ 0
    ∧ ((fn9 { st := .setting }).fnOf 255).cl = 0 ∧ (fn9 { st := .setting }).partsOf 255 = []
    ∧ (fn9 { st := .setting, qlim := [(0, 262145)] }).grantsOk 255 = false
    ∧ (let s := fn9 { st := .live }
       let t := { s with hst := { s.hst with parts := [(3, { func := 255, valid := true })] } }
       t.partsOf 255 = [3] ∧ (s.fnOf 255).freezing = false
        ∧ ∀ k, k < 144 → (((s.setFn 255 { s.fnOf 255 with freezing := true }).vfResult 0).clOf k).placed = none)
    ∧ (let s := fn9 { st := .live, freezing := true }
       (s.fnOf 255).freezing = true ∧ s.fnQuiet 255 = true)
    ∧ (let s := fn9 { st := .striking }
       (s.fnOf 255).wiping = false ∧ s.fnAcked 255 = true ∧ s.work.items = [])
    ∧ ((fn9 { st := .striking, wiping := true, wiped := true }).fnOf 255).wiped = true := by
  decide +kernel

/-- An image of a function without grants is written for the PF, to an address that takes it and to one that does not. -/
theorem test_witness_Save :
    (let s := (fn9 { st := .intermission }).setPr .host 0 0x054 0x20000
     let r := s.image 255
     (match (r.1.gWrite (r.1.smWho 0 0 0) r.1.imgAddr (List.replicate 288 1) false false).2 with
      | .ok _ => true
      | _ => false) = true)
    ∧ (let s := fn9 { st := .intermission }
       (match (s.gWrite (s.smWho 0 0 0) s.imgAddr (List.replicate 288 1) false false).2 with
        | .fail _ => true
        | _ => false) = true) := by
  decide +kernel

theorem test_witness_GrantsMailboxesPorts :
    (let s := up.setPr .host 0 0x068 12255
     fld (s.pr .host 0 0x068) 0 14 = 12255 ∧ s.takesGrants s.vfSel = true ∧ s.extent 12255 = none)
    ∧ 12256 ≤ fld ((up.setPr .host 0 0x068 12256).pr .host 0 0x068) 0 14
    ∧ (let s := { up with hst := { up.hst with exts := [(0, some (7, true))] } }
       s.extent 0 = some (7, true) ∧ 7 ≠ s.vfSel)
    ∧ (let s := (fn9 { st := .live }).setPr .mbox 0 0x040 255
       (s.fnOf 255).st ≠ .striking ∧ (s.fnOf 255).mb.tmPend = false ∧ (s.fnOf 255).mb.ttPend = false ∧ s.mbSel = 255)
    ∧ ((fn9 { st := .live, mb := { tmPend := true, ttPend := true } }).fnOf 255).mb.tmPend = true
    ∧ 6 ≤ up.boot.phase ∧ Tbl.get false ({ up with hst := { up.hst with linkUp := [(1, true)] } } : State).hst.linkUp 1 = true
    ∧ up.boot.ready = true ∧ ({ up with sec := { up.sec with sessions := [(0, true)] } } : State).sec.sessions.any (·.2) = true
    ∧ Tbl.get .none ({ up with hst := { up.hst with ide := [(9, .secure)] } } : State).hst.ide (5 * 1 + 4) ≠ .none := by
  decide +kernel

/-- A VF without partitions that is asked to freeze and that is asked again; one whose image is sent in part; one that has no job
and no mover left. -/
theorem test_witness_FunctionStates_2 :
    ((fn9 { st := .live }).partsOf 255 = [] ∧ ((fn9 { st := .live, freezing := true }).fnOf 255).freezing = true)
    ∧ ((fn9 { st := .intermission, saved := 3 }).fnOf 255).saved = 3
    ∧ (fn9 { st := .striking }).fnIdle 255 = true ∧ ((fn9 { st := .striking }).fnOf 255).wiping = false := by
  decide +kernel

/-! ## Faults, the life log and power -/

def fq9 : FqEntry := { src := 0x0201, sev := 1, change := true, page := 0, info := 0, time := 0 }
def flt9 (f : FaultSt) : State := { up with flt := f }

/-- A page with a latched error of a mild source, a queued fault, samples at each limit and just below, and the budget of actions
with room and full. -/
theorem test_witness_FaultsAndMonitors :
    pageOf (0x912F10 : BitVec 28).toNat = some (pageAt .optm 47, 0x10)
    ∧ up.severe (pageAt .optm 47) (fld (up.rg ((pageAt .optm 47).base + 0x010)) 0 5) = false
    ∧ up.domFault (pageDomain .optm 47) = false ∧ PageKind.optm ≠ .hbmc ∧ up.flt.fq = [] ∧ (flt9 { fq := [fq9] }).flt.fq = [fq9]
    ∧ ((0 : BitVec 16).toInt ≤ signed 16 (fld (up.pr .fault 0 0x08C) 0 16) ∧ Tbl.get 0 up.flt.trips 87 = 0
        ∧ (0 : BitVec 16).toInt < 4 * (fld (up.pr .fault 0 0x084) 0 8 : Int)
        ∧ (0 : BitVec 16).toInt < 4 * (fld (up.pr .fault 0 0x088) 0 8 : Int))
    ∧ (let s := (up.setPr .fault 0 0x084 10).setPr .fault 0 0x08C 40
       4 * (fld (s.pr .fault 0 0x084) 0 8 : Int) ≤ (40 : BitVec 16).toInt
        ∧ (40 : BitVec 16).toInt ≤ signed 16 (fld (s.pr .fault 0 0x08C) 0 16))
    ∧ 2 ≤ Tbl.get 0 (flt9 { trips := [(87, 2)] }).flt.trips 87
    ∧ 4 * (fld (up.pr .fault 0 0x088) 0 8 : Int) ≤ 480 ∧ 143 / 36 = 191 / 48 ∧ 20 ≤ (20 : BitVec 8).toNat ∧ (19 : BitVec 8).toNat < 20
    ∧ (let l := fun (s : State) => s.flt.actions.filter (fun x => decide (s.time.clk < x + fld (s.pr .fault 0 0x078) 0 16 * 60000000000))
       (l up).length < fld (up.pr .fault 0 0x074) 0 8
        ∧ fld (up.pr .fault 0 0x074) 0 8 ≤ (l (flt9 { actions := List.replicate 255 0 })).length) := by
  decide +kernel

def ev9 : EvRec := { src := 0x0201, kind := 1, sev := 1, info := 0, page := 0, count := 1, detail := 0, time := 0 }
def life9 (l : LifeSt) : State := { up with life := l }

/-- A record that waits with fewer than 16 of its source in the last second and with 16, a first and a last retry, both services. -/
theorem test_witness_LifeLog :
    (let s := life9 { pend := [ev9] }
     s.life.pend = [ev9] ∧ ((Tbl.get [] s.life.recent 0x0201).filter fun t => decide (s.time.clk < t + 1000000000)).length < 16
      ∧ s.life.retries < 2 ∧ (s.recordBytes ev9).length = 64)
    ∧ (let s := life9 { pend := [ev9], recent := [(0x0201, List.replicate 16 0)], retries := 2 }
       16 ≤ ((Tbl.get [] s.life.recent 0x0201).filter fun t => decide (s.time.clk < t + 1000000000)).length ∧ 2 ≤ s.life.retries)
    ∧ 0x1000000 ≤ ((up.setPr .life 0 0x060 0x1000000).pr .life 0 0x060).toNat ∧ up.mctpLog = true ∧ up.mctpAll = true
    ∧ 0x1000000 ≤ (0x7FFFFFF : BitVec 27).toNat := by
  decide +kernel

theorem open_quarter (s : State) (ho : ∀ b a k, s.roOwner b a k = 0x10) (q : Nat) : s.radioQ q = false := by
  have e : ∀ b a, s.roOwner b a = fun _ => 0x10 := fun b a => funext (ho b a)
  simp [State.radioQ, State.boundQ, State.boundCl, State.ownersOf, e, List.map_const']

def pwr9 (ceil op stat : Nat) (p : PwrSt) : State :=
  { (((up.setPr .pwr 0 0x060 (BitVec.ofNat 32 ceil)).setPr .pwr 0 0x058 (BitVec.ofNat 32 op)).setPr .pwr 0 0x044 (BitVec.ofNat 32 stat))
      with pwr := p }

/-- Samples at and above EDC_W, every lever's condition, a step in progress, and a cluster in each power state. -/
theorem test_witness_PowerManagement :
    (pwr9 0x8888 0 0 {}).pwrBit 0 = false ∧ up.edcW < (0xFFFF : BitVec 16).toNat ∧ (0 : BitVec 16).toNat ≤ up.edcW
    ∧ (let s := pwr9 0x8888 0 0 {}
       s.budgetOn = true ∧ 1 < s.ceil 3 ∧ ∀ j, j < 4 → s.ceil j ≤ s.ceil 3)
    ∧ (let s := pwr9 0x7777 0 0 { calm := 1000 }
       s.ceil 3 < 8 ∧ s.pwr.edcUntil ≤ s.time.clk ∧ s.mayRelease = true ∧ s.pwrBit 3 = false ∧ ∀ j, j < 4 → s.opOf j = 0 ∧ s.ceil 3 ≤ s.ceil j)
    ∧ (let s := (pwr9 0x1111 0 0 {}).setPr .pwr 0 0x05C 3
       Tbl.get 0 s.pwr.stepping 3 = 0 ∧ s.ceil 3 = 1 ∧ s.opOf 3 < fld (s.pr .pwr 0 0x05C) 0 3)
    ∧ (pwr9 0x8888 0x1111 0 { calm := 1000 }).opOf 3 ≠ 0
    ∧ (let s := { pwr9 0x1111 0 8 {} with ro := { track := [(0, 3)] } }
       s.opsExhausted = true ∧ s.pwrBit 3 = true ∧ s.pwrBit 2 = false)
    ∧ ({ pwr9 0x1111 0 0 {} with ro := { track := [(0, 3)] } } : State).opsExhausted = true
    ∧ ((pwr9 0x1111 0 8 {}).setPr .pwr 0 0x048 0xFFFF).overBudget = true
    ∧ ((pwr9 0x1111 0 8 { calm := 1000 }).mayRelease = true ∧ (pwr9 0x1111 0 8 {}).pwrBit 3 = true)
    ∧ Tbl.get 0 (pwr9 0 0 0 { stepping := [(3, 1)] }).pwr.stepping 3 ≠ 0
    ∧ (up.clOf 107).force = 0 ∧ (up.clOf 107).placed = none ∧ fld ((up.setPr .pwr 0 0x040 0xF).pr .pwr 0 0x040) 2 2 = 3
    ∧ (({ up with cls := [(107, { pwr := .dark })] } : State).clOf 107).pwr = .dark
    ∧ (({ up with cls := [(107, { pwr := .lit })] } : State).clOf 107).pwr = .lit
    ∧ (up.clOf 107).units = [] ∧ up.bringing clsCluster 107 = false ∧ up.granted 107 = false
    ∧ ({ up with hst := { up.hst with fns := [(255, { cl := 1 <<< 96 })] } } : State).granted 108 = true
    ∧ fld ((up.setPr .pwr 0 0x0A0 107).pr .pwr 0 0x0A0) 0 8 = 107 := by
  refine ⟨?_, ?_, ?_, ?_, ?_, ?_, ?_, ?_, ?_, ?_, ?_, ?_, ?_, ?_, ?_, ?_, ?_, ?_, ?_, ?_, ?_, ?_⟩ <;> decide +kernel

theorem test_witness_OpenQuarter : (pwr9 0x1111 0 0 {}).radioQ 3 = false ∧ up.radioCl 107 = false :=
  ⟨open_quarter _ (fun _ _ _ => rfl) 3, by decide +kernel⟩

/-- A bucket and a pulse that are over and ones that are not, a cause that persists, wear at its limit, levers at their pace. -/
theorem test_witness_TimedConditions :
    (let s := { up with time := { up.time with clk := 2 ^ 60 } }
     s.bucketDue (pageAt .optm 47) = true ∧ s.flt.pulseAt + 1000 * fld (s.pr .fault 0 0x040) 1 7 ≤ s.time.clk
      ∧ s.pwr.leverAt + 100000 ≤ s.time.clk)
    ∧ (let s := ({ up with flt := { up.flt with pulseAt := 1 } } : State).setRg ((pageAt .optm 47).base + 0x034) 1
       s.bucketDue (pageAt .optm 47) = false ∧ s.time.clk < s.flt.pulseAt + 1000 * fld (s.pr .fault 0 0x040) 1 7)
    ∧ ({ up with flt := { up.flt with exhausted := true } } : State).condition (pageAt .fault 0) 9 0 = true
    ∧ up.condition (pageAt .optm 47) 1 0 = false
    ∧ ((9 : Nat) < 10 ∧ up.life.wear ≤ 90) ∧ 90 < (life9 { wear := 91 }).life.wear
    ∧ (({} : PwrSt).winLen = ({} : PwrSt).win.length ∧ ({} : PwrSt).winSum = ({} : PwrSt).win.sum ∧ ({} : PwrSt).winLen ≤ 100000) := by
  refine ⟨?_, ?_, ?_, ?_, ?_, ?_, ?_⟩ <;> decide +kernel

/-! ## Resets, boot and security -/

def rst9 (r : RstSt) (b : BootSt) : State := { up with rst := r, boot := b }
def on9 : RstSt := { cold := false, sysResetN := true }

/-- Supplies and pins up and down, every kind of reset running, a domain that must wait and one that need not, a page that may
be reset and one that may not. -/
theorem test_witness_Resets :
    up.rst.sysResetN = true ∧ up.flt.aonTrip = false ∧ ({ up with flt := { up.flt with aonTrip := true } } : State).flt.aonTrip = true
    ∧ (State.reset.rst.cold = true ∧ State.reset.rst.vinOk = true ∧ State.reset.rst.aonOk = true ∧ State.reset.flt.thermTrip = false
        ∧ State.reset.rst.sysResetN = false)
    ∧ ((rst9 { cold := true, sysResetN := true } {}).rst.cold = true ∧ (rst9 { cold := true, sysResetN := true } {}).rst.sysResetN = true)
    ∧ coldKeeps (pageAddr .chip 0 + 0x108) = false ∧ up.bigReset = false
    ∧ up.rst.doms.contains 25 = false ∧ up.rst.domWait.contains 25 = false ∧ up.domMustWait 25 = false
    ∧ (rst9 { on9 with doms := [7] } up.boot).domMustWait 0 = true ∧ (rst9 { on9 with doms := [0] } up.boot).domMustWait 7 = true
    ∧ pageOf ((0x100 : BitVec 16).toNat * 4096) = some (pageAt .clus 0, 0) ∧ unitClass .clus = true
    ∧ up.rst.units.contains ((pageAt .clus 0).base / 256) = false
    ∧ (rst9 { on9 with warm := true } up.boot).bigReset = true ∧ (rst9 { on9 with warm := true } up.boot).awake = true
    ∧ (rst9 { on9 with doms := [13] } up.boot).rst.doms.contains 13 = true
    ∧ pageOf ((0 : BitVec 16).toNat * 4096) = some (pageAt .chip 0, 0) ∧ unitClass .chip = false
    ∧ (rst9 { on9 with units := [0x1000] } up.boot).rst.units.contains (16 * (0x100 : BitVec 16).toNat) = true := by
  decide +kernel

def sec9 (phase : Nat) (x : SecSt) : State := { up with boot := { phase := phase }, sec := x }
def good9 : FwImage := { sigOk := true, slot := 0, version := 0, svn := 1, len := 0x2000000 }

theorem test_witness_Boot :
    (∀ p ∈ [1, 2, 3, 4, 5, 6, 7], (sec9 p {}).boot.phase = p) ∧ (sec9 1 {}).awake = true ∧ (sec9 1 {}).boot.recovery = false
    ∧ (sec9 2 {}).bankOk (sec9 2 {}).sec.nextBank = true ∧ (sec9 2 {}).sec.lc ≠ 4
    ∧ ((sec9 2 { flashA := none, flashB := some good9 }).bankOk 0 = false ∧ (sec9 2 { flashA := none, flashB := some good9 }).bankOk 1 = true)
    ∧ ((sec9 2 { flashA := some { good9 with len := 0x2000001 } }).bankOk 0 = false ∧ (sec9 2 { flashA := none }).bankOk 1 = false)
    ∧ (sec9 4 {}).fullWipe = false ∧ ({ sec9 4 {} with wipes := [.full] } : State).fullWipe = true
    ∧ (sec9 7 {}).boot.ready = false ∧ (sec9 7 {}).boot.wasRecovery = false
    ∧ (0 < unitsOf clsCluster ∧ (sec9 7 {}).unitSt clsCluster 0 = .active)
    ∧ (sec9 7 { debugOpen := true }).sec.debugOpen = true ∧ (sec9 7 {}).sec.debugOpen = false := by
  decide +kernel

/-- A token of Prewen for the transition from PROVISIONED to FIELD, with the nonce and the identity of a device at reset. -/
def token9 : List Byte :=
  leBytes 8 (0x544B434C + 2 * 2 ^ 32) ++ uidBytes ++ List.replicate 12 0 ++ List.replicate 224 0

theorem test_token_accepted : up.lcCheck token9 true = 1 := by
  have l : uidBytes.length = 12 := rfl
  have h1 : up.lcBusy = false := by decide +kernel
  have h2 : (token9.drop 32).take 32 = leBytes 32 up.sec.nonce.toNat := rfl
  have h3 : (token9.drop 8).take 12 = uidBytes := rfl
  have h4 : token9.length = 256 := by decide +kernel
  have h5 : leNat (token9.take 4) = 0x544B434C := rfl
  have h6 : leNat ((token9.drop 4).take 1) = 2 := rfl
  simp [State.lcCheck, h1, h2, h3, h4, h5, h6]
  decide

theorem test_witness_SecurityServices :
    up.mctpAll = true ∧ up.lcCheck token9 true = 1 ∧ up.sec.lc ≠ 3 ∧ up.lcCheck [] true ≠ 1 ∧ up.lcBusy = false
    ∧ ({ up with sec := { up.sec with staging := true } } : State).lcBusy = true
    ∧ (match (({ up with latch := up.latch } : State).setRg 0x0F4 0x20000).gRead (up.smWho 0 0 0)
          ((up.setRg 0x0F4 0x20000).pair 0x0F0) 256 false with
       | (_, .ok _) => true
       | _ => false) = true
    ∧ ({ up with sec := { up.sec with nextLc := some 2 } } : State).sec.nextLc = some 2
    ∧ (up.setPr .chip 0 0x108 0x2000000).pr .chip 0 0x108 = 0x2000000 ∧ 0x2000000 < ((up.setPr .chip 0 0x108 0x2000001).pr .chip 0 0x108).toNat
    ∧ fld ((up.setPr .chip 0 0x110 0x10).pr .chip 0 0x110) 4 1 = 1
    ∧ (let s := { up with sec := { up.sec with running := some good9 } }
       s.sec.running = some good9 ∧ s.sec.svnMin < good9.svn)
    ∧ up.spdmOn = true ∧ up.sec.spdmStage < 3 ∧ 3 ≤ ({ up with sec := { up.sec with spdmStage := 3 } } : State).sec.spdmStage
    ∧ (let s := { up with sec := { up.sec with sessions := [(1, false), (2, true)] } }
       Tbl.look s.sec.sessions 1 = some false ∧ Tbl.look s.sec.sessions 2 = some true) := by
  refine ⟨?_, test_token_accepted, ?_, ?_, ?_, ?_, ?_, ?_, ?_, ?_, ?_, ?_, ?_, ?_, ?_, ?_⟩ <;> decide +kernel

/-- A device that may open its debug port, and domains in reset. -/
theorem test_witness_Resets_2 :
    ({ up with sec := { up.sec with lc := 3 } } : State).sec.lc = 3
    ∧ (rst9 { on9 with doms := [5] } up.boot).rst.doms.contains 5 = true ∧ (rst9 on9 up.boot).rst.doms.contains 5 = false
    ∧ (rst9 on9 up.boot).rst.warm = false := by
  decide +kernel


/-! ## The manual's worked examples -/

/-- 12_memory.md, the offset 0x12_3456_7890 and the next granule. -/
theorem test_spec_hbm_map :
    hbmInst 0x1234567890 = 0 * 32 + 1 ∧ hbmLa 0x1234567890 = 0x12345690 ∧ hbmInst 0x1234567990 = 1 * 32 + 1
      ∧ bits (hbmLa 0x1234567890) 15 17 = 9320 := by decide

/-- 08_radio_dsp.md, RND with SH = 8. -/
theorem test_spec_rnd :
    cround 2688 8 = 10 ∧ cround 2944 8 = 12 ∧ cround (-2688) 8 = -10 ∧ sat16 (cround 0x800000 8) = (32767, true) := by decide

/-- 08_radio_dsp.md, the bit-reversed walk with K = 5 and INC = 16. -/
theorem test_spec_bit_reversed :
    modUpdate 0 0x80050010 = 16 ∧ modUpdate 16 0x80050010 = 8 ∧ modUpdate 8 0x80050010 = 24 ∧ modUpdate 24 0x80050010 = 4 := by
  decide

/-- 02_number_formats.md, an S16 block of E2M1 elements (NCW: FMT 9, CONT 4, RNE). -/
theorem test_spec_soloist_block :
    let v := ([0x42C80000, 0x3FA66666, 0xBF333333, 0x3E4CCCCD, 0x3C23D70A] ++ List.replicate 11 0).map ofF32
    let b := encodeBlock (ncwOf 0x49) (fun _ => 0) v
    b.scale = 0x7D ∧ b.word = 0x01005640 ∧ b.codes.take 5 = [0, 7, 0xD, 2, 0] ∧ (b.flags.filter (· == .fbs)).length = 1 := by
  set_option maxRecDepth 4000 in decide

/-- 02_number_formats.md, the same values in a B16 block: scale 0x84, and FBS rises by 4. -/
theorem test_spec_plain_block :
    let v := ([0x42C80000, 0x3FA66666, 0xBF333333, 0x3E4CCCCD, 0x3C23D70A] ++ List.replicate 11 0).map ofF32
    let b := encodeBlock (ncwOf 0x29) (fun _ => 0) v
    b.scale = 0x84 ∧ nth 0 b.codes 0 = 5 ∧ (b.flags.filter (· == .fbs)).length = 4 := by
  set_option maxRecDepth 4000 in decide

/-- 02_number_formats.md, stochastic rounding of 0x3F80_6000 to BF16 with the draws 0x5555 and 0xA000. -/
theorem test_spec_stochastic :
    (convert (fmtOf 3) 2 true 0x5555 (ofF32 0x3F806000)).1 = 0x3F80
      ∧ (convert (fmtOf 3) 2 true 0xA000 (ofF32 0x3F806000)).1 = 0x3F81 := by decide

/-- 07_determinism.md, the sum of 2^24, 1, 1, -2^24 and 1. -/
theorem test_spec_reduction_tree :
    redTree 0 0 [0x4B800000, 0x3F800000, 0x3F800000, 0xCB800000, 0x3F800000] = 0x40000000 := by decide

/-- 10_fronthaul.md, a compressed PRB of samples 3,000, -1,000, 7 and -24. -/
theorem test_spec_compression :
    (compressPrb 9 ([3000, -1000, 7, -24] ++ List.replicate 20 0)).1 = 4
      ∧ (compressPrb 9 ([3000, -1000, 7, -24] ++ List.replicate 20 0)).2.1.take 4 = [188, -62, 0, -2] := by decide

/-- 19_register_pages.md, the page of an offset: RDSP[1][130], OPTM[45] and VF[242]. -/
theorem test_spec_pages :
    (pageOf 0x68A000).map (fun p => (p.1.kind, p.1.inst)) = some (.rdsp, 0x10A)
      ∧ (pageOf 0x912D00).map (fun p => (p.1.kind, p.1.inst)) = some (.optm, 45)
      ∧ (pageOf 0x902D00).map (fun p => (p.1.kind, p.1.inst)) = some (.vf, 242)
      ∧ (pageOf 0x2B4000).map (fun p => (p.1.kind, p.1.inst)) = some (.hbmc, 0xB4) := by decide

end Sys2Proof.Tests
end

section
/-! SUPPORT. Rules of the register file and of the byte memories, and the statement that they read back what was stored. -/

namespace Sys2Proof.Machine

/-! ## Canonical tables are equal when they read equally -/

/-- A key at or below the bound of a canonical table reads its default. -/
theorem Tbl.get_of_le_bound {α : Type} [DecidableEq α] (d : Nat → α) (t : Tbl α) {i k : Nat}
    (h : Tbl.above d (some i) t = true) (hk : k ≤ i) : Tbl.get (d k) t k = d k := by
  induction t generalizing i with
  | nil => rfl
  | cons e t ih =>
    obtain ⟨j, v⟩ := e
    obtain ⟨hj, -, ht⟩ := (Tbl.above_cons d (some i) j v t).1 h
    have hij : i < j := hj i rfl
    rw [Tbl.get, if_neg (by omega), ih ht (by omega)]

/-- A canonical table that reads a value other than the default at `i` begins at or below `i`. -/
theorem Tbl.head_le_of_get_ne {α : Type} [DecidableEq α] (d : Nat → α) {b : Option Nat} {t : Tbl α} {i : Nat}
    (h : Tbl.above d b t = true) (hi : Tbl.get (d i) t i ≠ d i) : ∃ j w u, t = (j, w) :: u ∧ j ≤ i := by
  cases t with
  | nil => exact absurd rfl hi
  | cons e u =>
    obtain ⟨j, w⟩ := e
    obtain ⟨-, -, hu⟩ := (Tbl.above_cons d b j w u).1 h
    refine ⟨j, w, u, rfl, Nat.le_of_not_lt fun hlt => hi ?_⟩
    rw [Tbl.get, if_neg (by omega), Tbl.get_of_le_bound d u hu (by omega)]

/-- Two canonical tables that read equally at every key are one table. -/
theorem Tbl.ext_of_above {α : Type} [DecidableEq α] (d : Nat → α) (t u : Tbl α) (b c : Option Nat)
    (ht : Tbl.above d b t = true) (hu : Tbl.above d c u = true) (h : ∀ k, Tbl.get (d k) t k = Tbl.get (d k) u k) :
    t = u := by
  induction t generalizing u b c with
  | nil =>
    cases u with
    | nil => rfl
    | cons e u =>
      obtain ⟨-, hne, -⟩ := (Tbl.above_cons d c e.1 e.2 u).1 hu
      exact absurd (by simpa [Tbl.get] using (h e.1).symm) hne
  | cons e t ih =>
    obtain ⟨i, v⟩ := e
    obtain ⟨-, hv, htt⟩ := (Tbl.above_cons d b i v t).1 ht
    have hi : Tbl.get (d i) u i = v := by simpa [Tbl.get] using (h i).symm
    obtain ⟨j, w, u, rfl, hji⟩ := Tbl.head_le_of_get_ne d hu (hi ▸ hv)
    obtain ⟨-, hw, huu⟩ := (Tbl.above_cons d c j w u).1 hu
    have hj : Tbl.get (d j) ((i, v) :: t) j = w := by simpa [Tbl.get] using h j
    obtain ⟨_, _, _, he, hij⟩ := Tbl.head_le_of_get_ne d ht (hj ▸ hw)
    obtain rfl : i = j := by simp only [List.cons.injEq, Prod.mk.injEq] at he; omega
    obtain rfl : v = w := by simpa [Tbl.get] using hj
    refine congrArg _ (ih u _ _ htt huu fun k => ?_)
    by_cases hk : i = k
    · subst hk
      rw [Tbl.get_of_le_bound d t htt (Nat.le_refl i), Tbl.get_of_le_bound d u huu (Nat.le_refl i)]
    · simpa [Tbl.get, hk] using h k

/-! ## Byte memories -/

theorem Memory.byte_put (m : Memory) (a b : Nat) (x : Byte) : (m.put a x).byte b = if b = a then x else m.byte b := by
  split
  · next h => exact h ▸ m.byte_put_self a x
  · next h => exact m.byte_put_other x h

theorem Memory.byte_write_after (m : Memory) {a b : Nat} (l : List Byte) (h : a + l.length ≤ b) :
    (m.write a l).byte b = m.byte b := by
  induction l generalizing m a with
  | nil => rfl
  | cons x l ih =>
    rw [List.length_cons] at h
    exact (ih (m.put a x) (a := a + 1) (by omega)).trans (m.byte_put_other x (by omega))

theorem Memory.read_write_self (m : Memory) (a : Nat) (l : List Byte) : (m.write a l).read a l.length = l := by
  induction l generalizing m a with
  | nil => rfl
  | cons x l ih =>
    have hx : ((m.put a x).write (a + 1) l).byte a = x :=
      ((m.put a x).byte_write_before l (Nat.lt_succ_self a)).trans (m.byte_put_self a x)
    exact congrArg₂ _ hx (ih (m.put a x) (a + 1))

theorem Memory.byte_zero (m : Memory) (a n b : Nat) : (m.zero a n).byte b = if a ≤ b ∧ b < a + n then 0 else m.byte b := by
  refine (Tbl.get_filter_key 0 (fun i => !(decide (a ≤ i) && decide (i < a + n))) m b).trans ?_
  by_cases h : a ≤ b ∧ b < a + n
  · simp [h]
  · simp only [Memory.byte, if_neg h, Bool.not_eq_true', Bool.and_eq_false_iff, decide_eq_false_iff_not]
    rw [if_pos (by omega)]

/-- Equal data are one memory, in canonical form. -/
theorem Memory.ext_of_wf {m n : Memory} (hm : m.wf = true) (hn : n.wf = true) (h : ∀ a, m.byte a = n.byte a) : m = n :=
  Tbl.ext_of_above (fun _ => (0 : Byte)) m n none none hm hn h

/-! ## The register file -/

theorem State.setRg_rg_apply (s : State) (a b : Nat) (v : Word) : (s.setRg a v).rg b = if b = a then v else s.rg b := by
  split
  · next h => exact h ▸ s.setRg_rg a v
  · next h => exact s.setRg_rg_other v h

theorem State.setPair_pair (s : State) (a x : Nat) (h : x < 2 ^ 64) : (s.setPair a x).pair a = x := by
  have hlo : (s.setPair a x).rg a = BitVec.ofNat 32 x :=
    (State.setRg_rg_other _ _ (by omega)).trans (s.setRg_rg a _)
  have hhi : (s.setPair a x).rg (a + 4) = BitVec.ofNat 32 (x / 2 ^ 32) := State.setRg_rg _ _ _
  rw [State.pair, hlo, hhi, BitVec.toNat_ofNat, BitVec.toNat_ofNat]
  omega

theorem satAdd_toNat (r : Word) (n : Nat) (h : n < 2 ^ 32) : (satAdd r n).toNat = min (r.toNat + n) (2 ^ 32 - 1) := by
  unfold satAdd
  split
  · rw [BitVec.toNat_add, BitVec.toNat_ofNat]
    omega
  · rw [BitVec.toNat_allOnes]
    omega

/-- One bit of what a write stores (R10). -/
theorem RegSpec.store_getLsbD (r : RegSpec) (old v : Word) (i : Fin 32) : (r.store old v).getLsbD i.val =
    (old.getLsbD i.val && !r.rw.getLsbD i.val && !(r.w1c.getLsbD i.val && v.getLsbD i.val)
      || v.getLsbD i.val && r.rw.getLsbD i.val) := by
  simp [RegSpec.store]

theorem State.storeAt_rg (s : State) {a : Nat} (v : Word) {r : RegSpec} (h : regAt a = some r) :
    (s.storeAt a v).rg a = r.store (s.rg a) v := by
  simp [State.storeAt, h]

theorem State.storeAt_undefined (s : State) {a : Nat} (v : Word) (h : regAt a = none) : s.storeAt a v = s := by
  simp [State.storeAt, h]

/-- What a write makes of a bit of a register, by the bit's access (R10). -/
theorem State.storeAt_bit (s : State) (a : Nat) (v : Word) (r : RegSpec) (h : regAt a = some r) (i : Fin 32) :
    (r.rw.getLsbD i.val = true → r.w1c.getLsbD i.val = false → ((s.storeAt a v).rg a).getLsbD i.val = v.getLsbD i.val)
    ∧ (r.w1c.getLsbD i.val = true → r.rw.getLsbD i.val = false →
        ((s.storeAt a v).rg a).getLsbD i.val = ((s.rg a).getLsbD i.val && !v.getLsbD i.val))
    ∧ (r.w1c.getLsbD i.val = false → r.rw.getLsbD i.val = false →
        ((s.storeAt a v).rg a).getLsbD i.val = (s.rg a).getLsbD i.val) := by
  rw [s.storeAt_rg v h, RegSpec.store_getLsbD]
  refine ⟨fun hrw hw1c => ?_, fun hw1c hrw => ?_, fun hw1c hrw => ?_⟩ <;> rw [hrw, hw1c] <;> simp

/-- Settles O6, from the rules above: the register file's, the byte memories', and canonical tables that read equally. -/
theorem storesReadBack : Obligations.StoresReadBack := by
  refine ⟨State.setRg_rg_apply, fun _ _ _ => rfl, State.setPair_pair, State.storeAt_bit,
    fun s _ v => s.storeAt_undefined v, ?_, Memory.byte_put, Memory.read_write_self, ?_, Memory.byte_zero, ?_,
    fun _ _ => Memory.ext_of_wf⟩
  · intro s k i off n h
    rw [State.bump_pr, satAdd_toNat _ n h]
  · rintro m a b l (h | h)
    · exact m.byte_write_before l h
    · exact m.byte_write_after l h
  · exact fun m a n x l h => ⟨m.put_keeps_wf a x h, m.write_keeps_wf a l h, m.zero_keeps_wf a n h⟩

end Sys2Proof.Machine
end

section
/-! SUPPORT. What each form of a register access does, by the requestor, the page, the register and the width, and the
statements about undefined offsets, pairs and the four register commands. -/

namespace Sys2Proof.Machine

/-! ## The latches and staged halves of pairs (R12, R464) -/

theorem reqIdx_inj {r r' : Requestor} (h : reqIdx r' = reqIdx r) : r' = r := by
  cases r <;> cases r' <;> simp_all [reqIdx]

/-- Every requestor has a key of its own for every pair of BAR0. -/
theorem pairKey_inj {r r' : Requestor} {a a' : Nat} (ha : a < 2 ^ 28) (ha' : a' < 2 ^ 28)
    (h : pairKey r' a' = pairKey r a) : r' = r ∧ a' = a := by
  unfold pairKey at h
  exact ⟨reqIdx_inj (by omega), by omega⟩

theorem State.readLo_rdata (s : State) (r : Requestor) (a x : Nat) :
    (s.readLo r a x).rdata = BitVec.ofNat 64 (x % 2 ^ 32) :=
  BitVec.eq_of_toNat_eq (by simp only [State.readLo, State.answer, BitVec.toNat_setWidth, BitVec.toNat_ofNat])

theorem State.readLo_readHi_rdata (s : State) (r : Requestor) (a x : Nat) :
    ((s.readLo r a x).readHi r a).rdata = BitVec.ofNat 64 (x / 2 ^ 32 % 2 ^ 32) :=
  BitVec.eq_of_toNat_eq (by
    simp only [State.readHi, State.readLo, State.answer, Tbl.get_set_self, BitVec.toNat_setWidth, BitVec.toNat_ofNat])

/-- A latch is its requestor's own, and its pair's. -/
theorem State.readLo_readHi_other (s : State) {r r' : Requestor} {a a' : Nat} (x : Nat) (ha : a < 2 ^ 28)
    (ha' : a' < 2 ^ 28) (h : ¬(r' = r ∧ a' = a)) :
    ((s.readLo r a x).readHi r' a').rdata = (s.readHi r' a').rdata := by
  simp only [State.readHi, State.readLo, State.answer, Tbl.get_set_other _ _ _ fun hk => h (pairKey_inj ha ha' hk)]

theorem State.stageLo_takePair_snd (s : State) (r : Requestor) (a : Nat) (lo hi : Word) :
    ((s.stageLo r a lo).takePair r a hi).2 = lo.toNat + 2 ^ 32 * hi.toNat := by
  simp [State.takePair, State.stageLo]

theorem State.takePair_snd_of_unstaged (s : State) (r : Requestor) (a : Nat) (hi : Word)
    (h : Tbl.get none s.staged (pairKey r a) = none) : (s.takePair r a hi).2 = (s.rg a).toNat + 2 ^ 32 * hi.toNat := by
  simp [State.takePair, h]

theorem State.takePair_unstages (s : State) (r : Requestor) (a : Nat) (hi : Word) :
    Tbl.get none (s.takePair r a hi).1.staged (pairKey r a) = none :=
  Tbl.get_set_self none s.staged (pairKey r a) none

/-! ## Reads and writes at an offset of a page -/

section
variable (s : State) (req : Requestor) {p : Page} {off : Nat} {r : RegSpec}

theorem State.pageRead_undefined (h : regSpec p.kind off = none) : s.pageRead req p off = s.answer 0 := by
  simp [State.pageRead, h]

/-- A header register, and one whose read changes nothing, is read without an effect. -/
theorem State.readEffect_eq_none (h : off < 0x40 ∨ s.readActs p off = none) :
    (if off < 0x40 then none else s.readActs p off) = none := by
  rcases h with h | h <;> simp [h]

theorem State.pageRead_plain (h : regSpec p.kind off = some r) (hact : off < 0x40 ∨ s.readActs p off = none)
    (hpair : r.pair = .none) : s.pageRead req p off = s.answer (s.regVal p off) := by
  simp [State.pageRead, h, s.readEffect_eq_none hact, hpair]

theorem State.pageRead_lo (h : regSpec p.kind off = some r) (hact : off < 0x40 ∨ s.readActs p off = none)
    (hpair : r.pair = .lo) : s.pageRead req p off
      = s.readLo req (p.base + off) ((s.regVal p off).toNat + 2 ^ 32 * (s.regVal p (off + 4)).toNat) := by
  simp [State.pageRead, h, s.readEffect_eq_none hact, hpair]

theorem State.pageRead_hi (h : regSpec p.kind off = some r) (hact : off < 0x40 ∨ s.readActs p off = none)
    (hpair : r.pair = .hi) : s.pageRead req p off = s.readHi req (p.base + off - 4) := by
  simp [State.pageRead, h, s.readEffect_eq_none hact, hpair]

theorem State.pageWrite_undefined (v : Word) (h : regSpec p.kind off = none) : s.pageWrite req p off v = s := by
  simp [State.pageWrite, h]

theorem State.pageWrite_header (v : Word) (h : regSpec p.kind off = some r) (ho : off < 0x40) :
    s.pageWrite req p off v = s.writeHeader p off v := by
  simp [State.pageWrite, h, ho]

/-- A write past the header, at a register that no enabled queue locks, goes by the register's place in a pair. -/
theorem State.pageWrite_unlocked (v : Word) (h : regSpec p.kind off = some r) (ho : 0x40 ≤ off)
    (hl : s.ringLocked p off = false) :
    (r.pair = .none → s.pageWrite req p off v = s.writePlain p off v)
    ∧ (r.pair = .lo → r.rw ≠ 0 → s.pageWrite req p off v = s.stageLo req (p.base + off) v)
    ∧ (r.pair = .hi → r.rw ≠ 0 → s.pageWrite req p off v = s.writeHi req p off v) := by
  have hoff : ¬off < 0x40 := Nat.not_lt.2 ho
  refine ⟨fun hp => ?_, fun hp hrw => ?_, fun hp hrw => ?_⟩
  · simp [State.pageWrite, h, hoff, hl, hp]
  · simp only [State.pageWrite, h, hl, hp, if_neg hoff, if_neg hrw, Bool.false_eq_true, if_false]
  · simp only [State.pageWrite, h, hl, hp, if_neg hoff, if_neg hrw, Bool.false_eq_true, if_false]

end

/-! ## Reads and writes at a BAR0 address -/

section
variable {s : State} {req : Requestor} {a : Nat} {p : Page} {off : Nat}

theorem State.reaches_eq_false (hb : s.boot.ready = false) (hq : req ≠ .fw) : s.reaches req = false := by
  simp [State.reaches, hb, hq]

theorem State.regRead_unreached (h : s.reaches req = false) : s.regRead req a = s := by
  simp [State.regRead, h]

theorem State.regRead_open (h : s.reaches req = true) (hp : pageOf (a / 4 * 4) = some (p, off))
    (hs : s.pageShut p = false) : s.regRead req a = s.pageRead req p off := by
  simp [State.regRead, h, hp, hs]

theorem State.regRead_shut (h : s.reaches req = true) (hp : pageOf (a / 4 * 4) = some (p, off))
    (hs : s.pageShut p = true) : s.regRead req a = s.answer (BitVec.allOnes 32) := by
  simp [State.regRead, h, hp, hs]

theorem State.regRead_hole (h : s.reaches req = true) (hp : pageOf (a / 4 * 4) = none) :
    s.regRead req a = s.hole false := by
  simp [State.regRead, h, hp]

theorem State.regWrite_unreached (v : Word) (h : s.reaches req = false) : s.regWrite req a v = s := by
  simp [State.regWrite, h]

theorem State.regWrite_open (v : Word) (h : s.reaches req = true) (hp : pageOf (a / 4 * 4) = some (p, off))
    (hs : s.pageShut p = false) : s.regWrite req a v = s.pageWrite req p off v := by
  simp [State.regWrite, h, hp, hs]

theorem State.regWrite_shut (v : Word) (hp : pageOf (a / 4 * 4) = some (p, off)) (hs : s.pageShut p = true) :
    s.regWrite req a v = s := by
  simp [State.regWrite, hp, hs]

theorem State.regWrite_hole (v : Word) (h : s.reaches req = true) (hp : pageOf (a / 4 * 4) = none) :
    s.regWrite req a v = s.hole true := by
  simp [State.regWrite, h, hp]

theorem State.narrowWrite_unreached (h : s.reaches req = false) : s.narrowWrite req a = s := by
  simp [State.narrowWrite, h]

theorem State.narrowWrite_undefined (hp : pageOf (a / 4 * 4) = some (p, off)) (hu : regSpec p.kind off = none) :
    s.narrowWrite req a = s := by
  simp [State.narrowWrite, hp, hu]

theorem State.narrowWrite_shut (hp : pageOf (a / 4 * 4) = some (p, off)) (hs : s.pageShut p = true) :
    s.narrowWrite req a = s := by
  simp [State.narrowWrite, hp, hs]

theorem State.narrowWrite_register {r : RegSpec} (h : s.reaches req = true) (hp : pageOf (a / 4 * 4) = some (p, off))
    (hs : s.pageShut p = false) (hr : regSpec p.kind off = some r) : s.narrowWrite req a
      = ({ s with free := s.free + 1 } : State).raise p 0 (s.accessInfo req p off (Config.freeWord s.free)) := by
  simp [State.narrowWrite, h, hp, hs, hr]

theorem State.hole_read (s : State) (h : s.rst.warm = false) : s.hole false
    = ({ s with free := s.free + 1, rdata := 0 } : State).raise (pageAt .chip 0) 1 (Config.freeWord s.free) := by
  simp [State.hole, h, State.answer]

theorem State.hole_write (s : State) (h : s.rst.warm = false) : s.hole true
    = ({ s with free := s.free + 1 } : State).raise (pageAt .chip 0) 1 (Config.freeWord s.free) := by
  simp [State.hole, h]

/-! ## Accesses of every width (R7) -/

theorem State.busRead_w8 (h : s.reaches req = true) : s.busRead req .w8 a =
    { s.regRead req a with rdata := BitVec.ofNat 64 (bits (s.regRead req a).rdata.toNat (8 * (a % 4)) 8) } := by
  simp [State.busRead, h, addressed]

theorem State.busRead_w16 (h : s.reaches req = true) : s.busRead req .w16 a =
    { s.regRead req a with rdata := BitVec.ofNat 64 (bits (s.regRead req a).rdata.toNat (8 * (a % 4)) 16) } := by
  simp [State.busRead, h, addressed]

theorem State.busRead_w64 (h : s.reaches req = true) : s.busRead req .w64 a =
    { (s.regRead req a).regRead req (a / 4 * 4 + 4) with
      rdata := ((s.regRead req a).regRead req (a / 4 * 4 + 4)).rdata <<< 32 ||| (s.regRead req a).rdata } := by
  simp [State.busRead, h]

theorem State.busRead_w32 : s.busRead req .w32 a = s.regRead req a := by
  simp [State.busRead]

theorem State.busWrite_w32 (v : BitVec 64) : s.busWrite req .w32 a v = s.regWrite req a (v.truncate 32) := rfl

theorem State.busWrite_narrow {w : Width} (v : BitVec 64) (hw : w = .w8 ∨ w = .w16) :
    s.busWrite req w a v = s.narrowWrite req a := by
  rcases hw with rfl | rfl <;> rfl

theorem State.busRead_unreached (w : Width) (h : s.reaches req = false) : s.busRead req w a = s := by
  simp [State.busRead, h, State.regRead_unreached h]

theorem State.busWrite_unreached (w : Width) (v : BitVec 64) (h : s.reaches req = false) :
    s.busWrite req w a v = s := by
  cases w <;> simp [State.busWrite, State.narrowWrite_unreached h, State.regWrite_unreached _ h]

theorem State.busWrite_shut (w : Width) (v : BitVec 64) (hp : pageOf (a / 4 * 4) = some (p, off))
    (hs : s.pageShut p = true) (hw : w ≠ .w64) : s.busWrite req w a v = s := by
  cases w with
  | w8 | w16 => exact State.narrowWrite_shut hp hs
  | w32 => exact State.regWrite_shut _ hp hs
  | w64 => exact absurd rfl hw

end

/-! ## At an undefined offset (R9) -/

/-- Addressed bytes of a word of zeros. -/
theorem addressed_zero (a n : Nat) : addressed 0#64 a n = 0#64 := by
  simp [addressed, bits]

section
variable {s : State} {req : Requestor} {a : Nat} {p : Page} {off : Nat} {w : Width}
variable (h : s.reaches req = true) (hp : pageOf (a / 4 * 4) = some (p, off)) (hs : s.pageShut p = false)
  (hu : regSpec p.kind off = none)
  (hu64 : w = .w64 → pageOf (a / 4 * 4 + 4) = some (p, off + 4) ∧ regSpec p.kind (off + 4) = none)
include h hp hs hu

theorem State.regRead_undefined : s.regRead req a = s.answer 0 := by
  rw [State.regRead_open h hp hs, s.pageRead_undefined req hu]

theorem State.regWrite_undefined (v : Word) : s.regWrite req a v = s := by
  rw [State.regWrite_open v h hp hs, s.pageWrite_undefined req v hu]

include hu64

theorem State.busRead_undefined : s.busRead req w a = s.answer 0 := by
  have hlow : s.regRead req a = s.answer 0 := State.regRead_undefined h hp hs hu
  cases w with
  | w8 | w16 => simp [State.busRead, h, hlow, State.answer, addressed_zero]
  | w32 => exact State.busRead_w32.trans hlow
  | w64 =>
    obtain ⟨hp4, hu4⟩ := hu64 rfl
    have hhigh : (s.answer 0).regRead req (a / 4 * 4 + 4) = (s.answer 0).answer 0 :=
      State.regRead_undefined h (by rwa [show (a / 4 * 4 + 4) / 4 * 4 = a / 4 * 4 + 4 by omega]) hs hu4
    rw [State.busRead_w64 h, hlow, hhigh]
    simp [State.answer]

theorem State.busWrite_undefined (v : BitVec 64) : s.busWrite req w a v = s := by
  cases w with
  | w8 | w16 => exact State.narrowWrite_undefined hp hu
  | w32 => exact State.regWrite_undefined h hp hs hu _
  | w64 =>
    obtain ⟨hp4, hu4⟩ := hu64 rfl
    have hhigh (v : Word) : s.regWrite req (a / 4 * 4 + 4) v = s :=
      State.regWrite_undefined h (by rwa [show (a / 4 * 4 + 4) / 4 * 4 = a / 4 * 4 + 4 by omega]) hs hu4 v
    simp only [State.busWrite, State.regWrite_undefined h hp hs hu, hhigh]

end

/-! ## The commands -/

section
variable {s : State} (req : Requestor) (w : Width) (addr : BitVec 28)

/-- A command that only answers. -/
theorem finish_answer (h : s.Settled) (v : Word) : s.finish (s.answer v) = s.answer v :=
  finish_of_settled s (s.answer v) h

theorem exec_registerPairLoRead (h : s.awake = true) :
    exec (.registerPairLoRead req w addr) s = .next (s.finish (s.busRead req w addr.toNat)) :=
  (show exec (.registerPairLoRead req w addr) s = execRegisterPairLoRead req w addr s from rfl).trans (perform_awake h)

theorem exec_registerWrite (h : s.awake = true) (v : BitVec 64) :
    exec (.registerWrite req w addr v) s = .next (s.finish (s.busWrite req w addr.toNat v)) :=
  (show exec (.registerWrite req w addr v) s = execRegisterWrite req w addr v s from rfl).trans (perform_awake h)

theorem exec_registerPairHiWrite (h : s.awake = true) (v : Word) :
    exec (.registerPairHiWrite req addr v) s = .next (s.finish (s.regWrite req addr.toNat v)) :=
  (show exec (.registerPairHiWrite req addr v) s = execRegisterPairHiWrite req addr v s from rfl).trans (perform_awake h)

theorem exec_holeAccess_page (h : s.awake = true) (write : Bool) (v : Word) {x : Page × Nat}
    (hp : pageOf (addr.toNat / 4 * 4) = some x) : exec (.holeAccess req write addr v) s = .next (s.finish s) := by
  refine (show exec (.holeAccess req write addr v) s = execHoleAccess req write addr v s from rfl).trans
    ((perform_awake h).trans ?_)
  simp [hp]

theorem exec_holeAccess_hole (h : s.awake = true) (write : Bool) (v : Word) (hp : pageOf (addr.toNat / 4 * 4) = none)
    (hr : s.reaches req = true) : exec (.holeAccess req write addr v) s = .next (s.finish (s.hole write)) := by
  refine (show exec (.holeAccess req write addr v) s = execHoleAccess req write addr v s from rfl).trans
    ((perform_awake h).trans ?_)
  cases write <;> simp [hp, State.regRead_hole hr hp, State.regWrite_hole _ hr hp]

end

/-! ## The statements -/

/-- Settles O7: an access of any width to an undefined offset answers 0 or leaves the state, and a settled state has nothing
to settle after it. -/
theorem undefinedOffsets : Obligations.UndefinedOffsets := by
  intro s req addr val p off hawake hset hr hp hs hu w hu64
  constructor
  · rw [exec_registerPairLoRead req w addr hawake, State.busRead_undefined hr hp hs hu hu64, finish_answer hset]
  · rw [exec_registerWrite req w addr hawake, State.busWrite_undefined hr hp hs hu hu64, finish_self s hset]

/-- Settles O8, by the keys of the latches and staged halves and by what a read of each half does. -/
theorem pairsLatch : Obligations.PairsLatch := by
  refine ⟨fun s r a x => ⟨s.readLo_rdata r a x, s.readLo_readHi_rdata r a x,
      fun r' a' ha ha' hne => s.readLo_readHi_other x ha ha' hne⟩,
    fun r a => rfl,
    fun s r a lo hi => ⟨s.stageLo_takePair_snd r a lo hi, s.takePair_snd_of_unstaged r a hi, s.takePair_unstages r a hi,
      rfl⟩,
    fun s req p off r _ hact h => ⟨s.pageRead_lo req h (.inr hact), s.pageRead_hi req h (.inr hact)⟩,
    by decide⟩

/-- Settles O9: each row is the access it stands for, and the rules above say what that access does by requestor, page,
register and width. -/
theorem registerCommands : Obligations.RegisterCommands := by
  intro s req addr val v64 hawake
  have hread (w : Width) := exec_registerPairLoRead req w addr hawake
  have hwrite (w : Width) := exec_registerWrite req w addr hawake v64
  refine ⟨fun hr p off hp => ⟨fun hs r h => ⟨fun hact => ⟨fun hpair => ?_, fun _ hpair => ?_⟩, fun ho => ?_,
      fun ho hl => ?_, ?_⟩, fun hs hset => ⟨?_, fun w hw => ?_⟩, fun hset b => ?_⟩,
    fun hr => ⟨?_, ?_, ?_⟩, hwrite .w64, fun hr hwarm hp => ⟨?_, ?_⟩, fun hb hq hset w => ⟨?_, ?_⟩⟩
  -- a register of an open page
  · rw [hread, State.busRead_w32, State.regRead_open hr hp hs, s.pageRead_plain req h hact hpair]
  · rw [hread, State.busRead_w32, State.regRead_open hr hp hs, s.pageRead_lo req h hact hpair]
  · rw [hwrite, State.busWrite_w32, State.regWrite_open _ hr hp hs, s.pageWrite_header req _ h ho]
  · have hhi := exec_registerPairHiWrite req addr hawake val
    rw [hwrite, hhi, State.busWrite_w32, State.regWrite_open _ hr hp hs, State.regWrite_open _ hr hp hs]
    obtain ⟨hplain, hlo, -⟩ := s.pageWrite_unlocked req (v64.truncate 32) h ho hl
    obtain ⟨-, -, hhi⟩ := s.pageWrite_unlocked req val h ho hl
    exact ⟨fun hpair => by rw [hplain hpair], fun hpair hrw => by rw [hlo hpair hrw], fun hpair hrw => by rw [hhi hpair hrw]⟩
  · intro w hw
    rw [hwrite, State.busWrite_narrow v64 hw, State.narrowWrite_register hr hp hs h]
  -- a shut page, and an address that is no hole
  · rw [hread, State.busRead_w32, State.regRead_shut hr hp hs]
    exact congrArg _ (finish_answer hset _)
  · rw [hwrite, State.busWrite_shut w v64 hp hs hw, finish_self s hset]
  · rw [exec_holeAccess_page req addr hawake b val hp, finish_self s hset]
  -- the other widths of a read
  · rw [hread, State.busRead_w8 hr]
  · rw [hread, State.busRead_w16 hr]
  · rw [hread, State.busRead_w64 hr]
  -- a hole
  · rw [exec_holeAccess_hole req addr hawake false val hp hr, s.hole_read hwarm]
  · rw [exec_holeAccess_hole req addr hawake true val hp hr, s.hole_write hwarm]
  -- a PCIe port before READY
  · rw [hread, State.busRead_unreached w (State.reaches_eq_false hb hq), finish_self s hset]
  · rw [hwrite, State.busWrite_unreached w v64 (State.reaches_eq_false hb hq), finish_self s hset]

end Sys2Proof.Machine
end

section
/-! SUPPORT. What each command of a boot does in its phase, and the statement about the phases of a boot. -/

namespace Sys2Proof.Machine

/-! ## Phases (R435, R437) -/

theorem State.inPhase_of_phase {s : State} {n : Nat} (hr : s.boot.recovery = false) (hp : s.boot.phase = n) :
    s.inPhase n = true := by
  simp [State.inPhase, hr, hp]

theorem State.nextPhase_of_phase {s : State} {n : Nat} (hp : s.boot.phase = n) :
    s.nextPhase = { s with boot := { s.boot with phase := n + 1 } } := by
  rw [State.nextPhase, hp]

/-! ## The image that the ROM takes (R439, R442) -/

section
variable {s : State}

theorem State.bootLoad_retired (hlc : s.sec.lc = 4) : s.bootLoad = s := by
  simp [State.bootLoad, hlc]

theorem State.bootLoad_active (hlc : s.sec.lc ≠ 4) (ha : s.bankOk s.sec.nextBank = true) :
    s.bootLoad = (s.runBank s.sec.nextBank).nextPhase := by
  simp [State.bootLoad, hlc, ha]

theorem State.bootLoad_fallback (hlc : s.sec.lc ≠ 4) (ha : s.bankOk s.sec.nextBank = false)
    (hb : s.bankOk (1 - s.sec.nextBank) = true) : s.bootLoad =
      (({ s.runBank (1 - s.sec.nextBank) with
          boot := { (s.runBank (1 - s.sec.nextBank)).boot with fallback := true } } : State).raise (pageAt .chip 0) 0x18
        (s.bootInfo 0)).nextPhase := by
  simp only [State.bootLoad, hlc, ha, hb, Bool.false_eq_true, if_false, if_true]
  rfl

theorem State.bootLoad_recover (hlc : s.sec.lc ≠ 4) (ha : s.bankOk s.sec.nextBank = false)
    (hb : s.bankOk (1 - s.sec.nextBank) = false) :
    s.bootLoad = ({ s with boot := { s.boot with bank := s.sec.nextBank } } : State).recover := by
  simp [State.bootLoad, hlc, ha, hb]

/-! ## The map and the units' self-tests (R26, R437) -/

variable (s) in
theorem State.applyMap_applied : s.applyMap.map.applied = true := rfl

theorem State.failTest_active {cls i : Nat} (hi : i < unitsOf cls) (ha : s.unitSt cls i = .active) :
    s.failTest cls i = (s.retire cls i).raise (pageAt .chip 0) 0x1C (s.bootInfo 0) := by
  simp [State.failTest, Nat.not_le.2 hi, ha]

end

/-! ## READY (R30, R300, R405, R445) -/

/-- What READY does before a recorded trip and a recovery are reported. -/
def State.makeReady (s : State) (ms : BitVec 16) : State :=
  (({ s with
      boot := { s.boot with ready := true, wasRecovery := false }, time := { s.time with running := true },
      sec := { s.sec with meas5 := mapDigest s.sec.variant s.curMap } } : State).latchSnap.setPr .chip 0 0x0C8
    (BitVec.ofNat 32 ms.toNat)).logEvent (pageAt .chip 0) 0 0x0D 0 0 0

/-- The end of a recovery is reported (R449). -/
def State.reportRecovery (s : State) (was : Bool) : State :=
  if was then s.raise (pageAt .chip 0) 0x19 (s.bootInfo 0) else s

theorem State.reportTrip_of_no_trip {s : State} (h : s.flt.aonTrip = false) : s.reportTrip = s := by
  simp [State.reportTrip, h]

/-! ## The commands of a boot -/

section
variable {s : State} (h : s.awake = true)
include h

theorem exec_bootRomComplete (hp : s.inPhase 1 = true) : exec .bootRomComplete s = .next (s.finish s.nextPhase) := by
  refine (show exec .bootRomComplete s = execBootRomComplete s from rfl).trans ((perform_awake h).trans ?_)
  rw [if_pos hp]

theorem exec_bootLoadComplete (hp : s.inPhase 2 = true) : exec .bootLoadComplete s = .next (s.finish s.bootLoad) := by
  refine (show exec .bootLoadComplete s = execBootLoadComplete s from rfl).trans ((perform_awake h).trans ?_)
  rw [if_pos hp]

theorem exec_bootFirmwareComplete (hp : s.inPhase 3 = true) :
    exec .bootFirmwareComplete s = .next (s.finish s.nextPhase) := by
  refine (show exec .bootFirmwareComplete s = execBootFirmwareComplete s from rfl).trans ((perform_awake h).trans ?_)
  rw [if_pos hp]

theorem exec_bootMemoryComplete (hp : s.inPhase 4 = true) (hw : s.fullWipe = false) (failed : List (Fin 8)) :
    exec (.bootMemoryComplete failed) s = .next (s.finish (if failed.isEmpty then s.nextPhase
      else (failed.foldl (fun s m => s.domEnter (6 + m.val)) s).recover)) := by
  refine (show exec (.bootMemoryComplete failed) s = execBootMemoryComplete failed s from rfl).trans
    ((perform_awake h).trans ?_)
  rw [if_neg (by simp [hp, hw])]

/-- While the full wipe runs training ends nothing. -/
theorem exec_bootMemoryComplete_wiping (hw : s.fullWipe = true) (failed : List (Fin 8)) :
    exec (.bootMemoryComplete failed) s = .next (s.finish s) := by
  refine (show exec (.bootMemoryComplete failed) s = execBootMemoryComplete failed s from rfl).trans
    ((perform_awake h).trans ?_)
  rw [if_pos (.inr hw)]

theorem exec_bootSerdesComplete (hp : s.inPhase 5 = true) (refOk : Bool) :
    exec (.bootSerdesComplete refOk) s = .next (s.finish
      (if refOk then (List.range 12).foldl State.startGroup s.nextPhase else s.recover)) := by
  refine (show exec (.bootSerdesComplete refOk) s = execBootSerdesComplete refOk s from rfl).trans
    ((perform_awake h).trans ?_)
  rw [if_neg (by simp [hp])]

theorem exec_bootMapComplete (hp : s.inPhase 6 = true) (failed : List (Fin 6 × Nat)) :
    exec (.bootMapComplete failed none) s
      = .next (s.finish (failed.foldl (fun s u => s.failTest u.1.val u.2) s.applyMap).nextPhase) := by
  refine (show exec (.bootMapComplete failed none) s = execBootMapComplete failed none s from rfl).trans
    ((perform_awake h).trans ?_)
  rw [if_neg (by simp [hp])]

theorem exec_bootMapComplete_wholeDie (hp : s.inPhase 6 = true) (failed : List (Fin 6 × Nat)) (d : Fin 6) :
    exec (.bootMapComplete failed (some d)) s = .next (s.finish
      ((failed.foldl (fun s u => s.failTest u.1.val u.2) s.applyMap).domEnter d.val).recover) := by
  refine (show exec (.bootMapComplete failed (some d)) s = execBootMapComplete failed (some d) s from rfl).trans
    ((perform_awake h).trans ?_)
  rw [if_neg (by simp [hp])]

theorem exec_bootReady (hp : s.inPhase 7 = true) (hr : s.boot.ready = false) (ms : BitVec 16) :
    exec (.bootReady ms) s = .next (s.finish ((s.makeReady ms).reportTrip.reportRecovery s.boot.wasRecovery)) := by
  refine (show exec (.bootReady ms) s = execBootReady ms s from rfl).trans ((perform_awake h).trans ?_)
  rw [if_neg (by simp [hp, hr])]
  rfl

/-! ## The debug port (R472) -/

theorem exec_tapInstruction_bypass (hlc : s.sec.lc ≠ 4) :
    exec (.tapInstruction .bypass) s = .next (s.finish (s.tapSelect .bypass)) := by
  refine (show exec (.tapInstruction .bypass) s = execTapInstruction .bypass s from rfl).trans ((perform_awake h).trans ?_)
  rw [if_neg hlc]

theorem exec_tapInstruction_other (hlc : s.sec.lc ≠ 4) (c : BitVec 16) : exec (.tapInstruction (.other c)) s = .next (s.finish
    (if s.sec.debugOpen then s.tapSelect (.other c)
     else ((s.tapSelect .bypass).bump .dbg 0 0x044 1).raise (pageAt .dbg 0) 1 0)) := by
  refine (show exec (.tapInstruction (.other c)) s = execTapInstruction (.other c) s from rfl).trans
    ((perform_awake h).trans ?_)
  rw [if_neg hlc]

end

/-! ## The statement -/

/-- What the load comes to in each case, with what the fallback raises in phase 2 (R449). -/
theorem State.bootLoad_cases {s : State} (hp : s.boot.phase = 2) (hlc : s.sec.lc ≠ 4) :
    (s.bankOk s.sec.nextBank = true → s.bootLoad = { s with
      sec := { s.sec with running := s.bankImage s.sec.nextBank },
      boot := { s.boot with bank := s.sec.nextBank, phase := 3 } })
    ∧ (s.bankOk s.sec.nextBank = false → s.bankOk (1 - s.sec.nextBank) = true →
      s.bootLoad = (({ s with
        sec := { s.sec with running := s.bankImage (1 - s.sec.nextBank) },
        boot := { s.boot with bank := 1 - s.sec.nextBank, fallback := true } } : State).raise (pageAt .chip 0) 0x18
          (BitVec.ofNat 32 32)).nextPhase)
    ∧ (s.bankOk s.sec.nextBank = false → s.bankOk (1 - s.sec.nextBank) = false → s.bootLoad = { s with
      boot := { s.boot with bank := s.sec.nextBank, recovery := true, wasRecovery := true } }) := by
  have hinfo : s.bootInfo 0 = BitVec.ofNat 32 32 := by rw [State.bootInfo, hp]
  refine ⟨fun ha => ?_, fun ha hb => ?_, fun ha hb => ?_⟩
  · rw [State.bootLoad_active hlc ha, State.nextPhase_of_phase (s := s.runBank s.sec.nextBank) (n := 2) hp]
    rfl
  · rw [State.bootLoad_fallback hlc ha hb, hinfo]
    rfl
  · rw [State.bootLoad_recover hlc ha hb]
    rfl

/-- Settles O59: each command of a boot in its phase, by the rules above. -/
theorem boot : Obligations.Boot := by
  intro s h hr
  have hphase {n : Nat} (hp : s.boot.phase = n) : s.inPhase n = true := State.inPhase_of_phase hr hp
  refine ⟨fun hp => ?_, fun hp hlc => ?_, fun hp hlc hset => ?_, fun hp => ?_, fun hp hw => ⟨?_, ?_⟩,
    fun _ hw hset l => ?_, fun hp => ⟨?_, ?_⟩, ?_, s.applyMap_applied, fun _ _ => State.failTest_active, ?_, ?_⟩
  -- the ROM, the firmware's load and its start
  · rw [exec_bootRomComplete h (hphase hp), State.nextPhase_of_phase hp]
  · obtain ⟨hactive, hother, hnone⟩ := State.bootLoad_cases hp hlc
    rw [exec_bootLoadComplete h (hphase hp)]
    refine ⟨fun ha => by rw [hactive ha], ?_, fun ha hb => by rw [hnone ha hb]⟩
    rintro ha hb t u rfl rfl
    rw [hother ha hb]
    rfl
  · rw [exec_bootLoadComplete h (hphase hp), State.bootLoad_retired hlc, finish_self s hset]
  · rw [exec_bootFirmwareComplete h (hphase hp), State.nextPhase_of_phase hp]
  -- memory training
  · rw [exec_bootMemoryComplete h (hphase hp) hw, State.nextPhase_of_phase hp]
    rfl
  · rintro m t rfl
    rw [exec_bootMemoryComplete h (hphase hp) hw]
    rfl
  · rw [exec_bootMemoryComplete_wiping h hw, finish_self s hset]
  -- SERDES
  · rintro t rfl
    rw [exec_bootSerdesComplete h (hphase hp), State.nextPhase_of_phase hp]
    rfl
  · rw [exec_bootSerdesComplete h (hphase hp)]
    rfl
  -- the map and the self-tests
  · rintro hp failed t rfl
    refine ⟨exec_bootMapComplete h (hphase hp) failed, ?_⟩
    rintro d u rfl
    exact exec_bootMapComplete_wholeDie h (hphase hp) failed d
  -- READY
  · rintro hp hready hwas htrip ms t rfl
    have hquiet : (s.makeReady ms).reportTrip = s.makeReady ms := State.reportTrip_of_no_trip htrip
    rw [exec_bootReady h (hphase hp) hready, hquiet, hwas]
    rfl
  -- the debug port
  · rintro hlc t rfl
    refine ⟨exec_tapInstruction_bypass h hlc, fun c hopen => ?_, fun c hshut => ?_⟩
    · rw [exec_tapInstruction_other h hlc, if_pos hopen]
      rfl
    · rw [exec_tapInstruction_other h hlc, hshut]
      rfl

end Sys2Proof.Machine
end

section
/-! SUPPORT. The registers of a snapshot of the in-service map, and the statement that a snapshot is consistent. -/

namespace Sys2Proof.Machine

/-! ## What registers read -/

/-- A register whose bits are all read-write stores what is written (R10). -/
theorem RegSpec.store_of_all_rw {r : RegSpec} (h : r.rw = BitVec.allOnes 32) (old v : Word) : r.store old v = v := by
  rw [RegSpec.store, h, BitVec.and_allOnes]
  simp

/-- A register reads the same in two states that drive it alike and store the same in it. -/
theorem State.regVal_congr {s t : State} {p : Page} {off : Nat} (hd : t.driven p off = s.driven p off)
    (hr : t.rg (p.base + off) = s.rg (p.base + off)) : t.regVal p off = s.regVal p off := by
  unfold State.regVal
  rw [hd, hr]

theorem State.driven_chip (s : State) {off : Nat} (h : 0x40 ≤ off) : s.driven (pageAt .chip 0) off = s.chipVal off := by
  rw [State.driven, if_neg (Nat.not_lt.2 h)]
  rfl

/-! ## The registers of the map (R29) -/

theorem State.storeAt_dmapAddr (s : State) (v : Word) : s.storeAt 0x048 v = s.setRg 0x048 v := by
  have hr : regAt 0x048 = some ⟨0x048, 1, 4, 0xFFFFFFFF, 0, 0, .none⟩ := by decide
  rw [State.storeAt, hr]
  exact congrArg (s.setRg 0x048) (RegSpec.store_of_all_rw (by decide) _ _)

theorem State.chipVal_dmapData (s : State) :
    s.chipVal 0x04C = some (imageWord s.sec.variant s.map.snap (s.rg 0x048).toNat) := rfl

theorem State.chipVal_dmapSnapGen (s : State) : s.chipVal 0x050 = none := rfl

theorem State.chipVal_dmapDigest (s : State) {off : Nat} (h : 0x060 ≤ off ∧ off < 0x080) : s.chipVal off
    = some (w32 (bits (mapDigest s.sec.variant s.map.snap).toNat (8 * (off - 0x060)) 32)) := by
  rw [State.chipVal, if_neg (by omega), if_neg (by omega), if_neg (by omega), if_neg (by omega), if_neg (by omega),
    if_pos h]

/-- `DMAP_GEN` reads the count of changes that it stores. -/
theorem State.regVal_dmapGen (s : State) : s.regVal (pageAt .chip 0) 0x044 = s.rg 0x044 := by
  have hr : regSpec .chip 0x044 = some ⟨0x044, 1, 4, 0, 0, 0, .none⟩ := by decide
  simp only [State.regVal, pageAt, hr]
  rfl

theorem imageWord_past_end (v : Nat) (m : DMap) {off : Nat} (h : 0x404C ≤ off) : imageWord v m off = 0 :=
  if_neg (Nat.not_lt.2 h)

/-! ## Changes of the map and snapshots (R30) -/

theorem State.latchSnap_snap (s : State) : s.latchSnap.map.snap = s.curMap := rfl

theorem State.latchSnap_snapGen (s : State) : s.latchSnap.rg 0x050 = s.rg 0x044 := State.setRg_rg _ _ _

/-- A change of the map counts in `DMAP_GEN`. -/
theorem State.withMap_dmapGen (s : State) (m : DMap) : (s.withMap m).rg 0x044 = s.rg 0x044 + 1 := State.setRg_rg _ _ _

/-- A change of the map stores in no other register. -/
theorem State.withMap_rg_other (s : State) (m : DMap) {a : Nat} (h : a ≠ 0x044) : (s.withMap m).rg a = s.rg a :=
  State.setRg_rg_other _ _ (by simpa [pageAddr] using h)

@[simp] theorem State.withMap_snap (s : State) (m : DMap) : (s.withMap m).map.snap = s.map.snap := rfl

@[simp] theorem State.withMap_sec (s : State) (m : DMap) : (s.withMap m).sec = s.sec := rfl

/-- A change of the map leaves what the snapshot's registers show. -/
theorem State.withMap_chipVal (s : State) (m : DMap) {off : Nat}
    (h : off = 0x04C ∨ off = 0x050 ∨ (0x060 ≤ off ∧ off < 0x080)) : (s.withMap m).chipVal off = s.chipVal off := by
  obtain rfl | rfl | h := h
  · rw [State.chipVal_dmapData, State.chipVal_dmapData, s.withMap_rg_other m (by decide), s.withMap_sec m, s.withMap_snap m]
  · rw [State.chipVal_dmapSnapGen, State.chipVal_dmapSnapGen]
  · rw [State.chipVal_dmapDigest _ h, State.chipVal_dmapDigest _ h, s.withMap_sec m, s.withMap_snap m]

theorem State.withMap_regVal (s : State) (m : DMap) {off : Nat}
    (h : off = 0x04C ∨ off = 0x050 ∨ (0x060 ≤ off ∧ off < 0x080)) :
    (s.withMap m).regVal (pageAt .chip 0) off = s.regVal (pageAt .chip 0) off := by
  refine State.regVal_congr ?_ (s.withMap_rg_other m (by simp [pageAt, pageAddr]; omega))
  rw [State.driven_chip _ (by omega), State.driven_chip _ (by omega), s.withMap_chipVal m h]

/-! ## The end of a boot -/

@[simp] theorem State.raise_map (s : State) (p : Page) (i : Nat) (info : Word) : (s.raise p i info).map = s.map := by
  rw [State.reports_raise s p i info]

@[simp] theorem State.reportTrip_map (s : State) : s.reportTrip.map = s.map := by
  unfold State.reportTrip
  split
  · rfl
  · exact State.raise_map _ _ _ _

@[simp] theorem State.reportRecovery_map (s : State) (was : Bool) : (s.reportRecovery was).map = s.map := by
  cases was with
  | false => rfl
  | true => exact State.raise_map _ _ _ _

@[simp] theorem State.makeReady_snap (s : State) (ms : BitVec 16) : (s.makeReady ms).map.snap = s.curMap := rfl

/-! ## The statement -/

theorem exec_dmapSnapshotLatch {s : State} (h : s.awake = true) (v : Word) :
    exec (.dmapSnapshotLatch v) s = .next (s.finish (s.writeDmapAddr v)) :=
  (show exec (.dmapSnapshotLatch v) s = execDmapSnapshotLatch v s from rfl).trans (perform_awake h)

theorem exec_dmapDataRead {s : State} (h : s.awake = true) : exec .dmapDataRead s = .next (s.finish s.readDmapData) :=
  (show exec .dmapDataRead s = execDmapDataRead s from rfl).trans (perform_awake h)

/-- Settles O12: a change of the map touches `DMAP_GEN` alone, and READY's reports leave the snapshot it latched. -/
theorem mapSnapshot : Obligations.MapSnapshot := by
  refine ⟨fun s val h => ⟨?_, exec_dmapDataRead h⟩, fun v m _ => imageWord_past_end v m,
    fun s => ⟨s.latchSnap_snap, s.latchSnap_snapGen⟩, fun s m off ho => ⟨s.withMap_regVal m ho, ?_⟩,
    fun s ms h hp hr => ⟨_, exec_bootReady h hp hr ms, ?_⟩⟩
  · rw [exec_dmapSnapshotLatch h, State.writeDmapAddr, State.storeAt_dmapAddr]
  · rw [State.regVal_dmapGen, State.regVal_dmapGen, State.withMap_dmapGen]
  · rw [State.reportRecovery_map, State.reportTrip_map, State.makeReady_snap]

end Sys2Proof.Machine
end

section
/-! SUPPORT. Which waiting retirement is served and how a bring-in starts and ends, and the statement about spares that stand
in. -/

namespace Sys2Proof.Machine

/-! ## The waiting retirement that is served (R24) -/

/-- Of the lowest waiting retirement so far and the next one, the one of lower physical index; of equal ones the older. -/
def lowerWaiting (b : Option (Nat × Nat × Nat)) (x : Nat × Nat × Nat) : Option (Nat × Nat × Nat) :=
  match b with
  | none => some x
  | some y => if x.2.1 < y.2.1 then some x else some y

theorem nextWaiting_eq_foldl (l : List (Nat × Nat × Nat)) (die : Nat) :
    nextWaiting l die = (l.filter fun x => unitDie x.1 x.2.1 == die).foldl lowerWaiting none := rfl

section
variable {w : Nat × Nat × Nat}

theorem lowerWaiting_eq_or (b : Option (Nat × Nat × Nat)) (x : Nat × Nat × Nat) :
    lowerWaiting b x = some x ∨ lowerWaiting b x = b := by
  cases b with
  | none => exact .inl rfl
  | some y => exact ite_eq_or_eq ..

/-- The strictly lowest of two stays or comes to be the lowest. -/
theorem lowerWaiting_of_lowest {b : Option (Nat × Nat × Nat)} {x : Nat × Nat × Nat}
    (hb : ∀ y, b = some y → y ≠ w → w.2.1 < y.2.1) (hx : x ≠ w → w.2.1 < x.2.1) (h : b = some w ∨ x = w) :
    lowerWaiting b x = some w := by
  cases b with
  | none => simpa [lowerWaiting] using h
  | some y =>
    by_cases hxw : x = w
    · subst hxw
      by_cases hy : y = x
      · simp [lowerWaiting, hy]
      · simp [lowerWaiting, hb y rfl hy]
    · obtain rfl : y = w := by simpa [hxw] using h
      simp [lowerWaiting, Nat.not_lt.2 (Nat.le_of_lt (hx hxw))]

theorem foldl_lowerWaiting {l : List (Nat × Nat × Nat)} {b : Option (Nat × Nat × Nat)}
    (hb : ∀ y, b = some y → y ≠ w → w.2.1 < y.2.1) (hl : ∀ x ∈ l, x ≠ w → w.2.1 < x.2.1) (hw : b = some w ∨ w ∈ l) :
    l.foldl lowerWaiting b = some w := by
  induction l generalizing b with
  | nil => simpa using hw
  | cons x l ih =>
    have hx : x ≠ w → w.2.1 < x.2.1 := hl x (List.mem_cons_self ..)
    refine ih (fun y hy => ?_) (fun z hz => hl z (List.mem_cons_of_mem x hz)) ?_
    · rcases lowerWaiting_eq_or b x with e | e
      · obtain rfl : x = y := Option.some.inj (e.symm.trans hy)
        exact hx
      · exact hb y (e.symm.trans hy)
    · rcases hw with hw | hw
      · exact .inl (lowerWaiting_of_lowest hb hx (.inl hw))
      · rcases List.mem_cons.1 hw with hw | hw
        · exact .inl (lowerWaiting_of_lowest hb hx (.inr hw.symm))
        · exact .inr hw

/-- A die's waiting retirement whose physical index is below those of its others is the next one. -/
theorem nextWaiting_of_lowest {l : List (Nat × Nat × Nat)} {die : Nat} (hw : w ∈ l) (hd : unitDie w.1 w.2.1 = die)
    (hlow : ∀ x ∈ l, unitDie x.1 x.2.1 = die → x ≠ w → w.2.1 < x.2.1) : nextWaiting l die = some w := by
  rw [nextWaiting_eq_foldl]
  refine foldl_lowerWaiting (by simp) (fun x hx => ?_) (.inr ?_)
  · obtain ⟨hxl, hxd⟩ := List.mem_filter.1 hx
    exact hlow x hxl (by simpa using hxd)
  · exact List.mem_filter.2 ⟨hw, by simpa using hd⟩

end

/-! ## The states of a bring-in -/

/-- The state in which no bring-in of the die runs. -/
def State.stopBringIn (s : State) (die : Nat) : State :=
  { s with map := { s.map with running := Tbl.del s.map.running die } }

/-- The state in which a spare's bring-in has begun, before the spare is lit. -/
def State.runBringIn (s : State) (die : Nat) (b : BringIn) : State :=
  { s with map := { s.map with running := Tbl.put s.map.running die b } }

/-- The state in which a spare that failed its self-test is RETIRED and recorded. -/
def State.retireSpare (s : State) (b : BringIn) : State :=
  (s.withMap (s.curMap.setSt s.sec.variant b.cls b.spare .retired)).logEvent (unitPage b.cls b.spare) 0 4 0 0
    (b.cls + 256 * b.spare + 2 ^ 32 * 0xFFFF)

/-- `PG_ERR_INFO` of a spare's failed self-test on a CLUS page: the chorus unit and voice of its class, none of their bits
where the class has none (R92). -/
def failInfo (b : BringIn) : Word :=
  BitVec.ofNat 32
    ((if b.cls = clsUnit then b.spare % 13 else if b.cls = clsVoice then b.spare / 33 % 13 else 0xF)
      + 16 * (if b.cls = clsVoice then b.spare % 33 else 0x3F) + 0x3F * 1024)

/-- A failed cluster names no chorus unit and no voice. -/
theorem failInfo_cluster {b : BringIn} (h : b.cls = clsCluster) : failInfo b = 0xFFFF := by
  have hunit : b.cls ≠ clsUnit := by simp [h, clsCluster, clsUnit]
  have hvoice : b.cls ≠ clsVoice := by simp [h, clsCluster, clsVoice]
  rw [failInfo, if_neg hunit, if_neg hvoice, if_neg hvoice]
  decide

theorem unitPage_cluster {cls : Nat} (h : cls = clsCluster) (i : Nat) : unitPage cls i = pageAt .clus i := if_pos h

/-! ## Starting a bring-in (R24) -/

section
variable {s : State} {die : Nat}

theorem State.tryBringIn_of_spare {cls i sp : Nat} (pos : Nat) (h : s.curMap.spareFor s.sec.variant cls i = some sp) :
    s.tryBringIn die cls i pos
      = some ((s.runBringIn die { cls := cls, unit := i, pos := pos, spare := sp }).lightSpare cls sp) := by
  rw [State.tryBringIn, h]
  rfl

/-- Nothing starts while a bring-in of the die runs. -/
theorem State.startBringIn_running {b : BringIn} (h : Tbl.look s.map.running die = some b) : s.startBringIn die = s := by
  simp [State.startBringIn, State.nextBringIn, h]

/-- The next waiting retirement leaves the list and its bring-in begins, where a spare stands in its scope. -/
theorem State.startBringIn_next {w : Nat × Nat × Nat} {sp : Nat} (hrun : Tbl.look s.map.running die = none)
    (hnext : nextWaiting s.map.waiting die = some w) (hsp : s.curMap.spareFor s.sec.variant w.1 w.2.1 = some sp) :
    s.startBringIn die = (({ s with map := { s.map with waiting := dropFirst w s.map.waiting } } : State).runBringIn die
      { cls := w.1, unit := w.2.1, pos := w.2.2, spare := sp }).lightSpare w.1 sp := by
  have htry := State.tryBringIn_of_spare (s := { s with map := { s.map with waiting := dropFirst w s.map.waiting } })
    (die := die) w.2.2 hsp
  rw [State.startBringIn, State.nextBringIn, hrun, hnext]
  exact congrArg (Option.getD · _) htry

/-! ## The end of an attempt (R23, R24) -/

/-- A spare that passes is ACTIVE at the position, and the die's next bring-in starts. -/
theorem State.endBringIn_pass {b : BringIn} (h : Tbl.look s.map.running die = some b) : s.endBringIn die true =
    (((s.stopBringIn die).withMap
      ((s.curMap.setSt s.sec.variant b.cls b.spare .active).setLog s.sec.variant b.cls b.pos (spareIdx b))).logEvent
        (unitPage b.cls b.spare) 0 5 0 0 (b.cls + 256 * b.spare + 2 ^ 32 * b.pos)).startBringIn die := by
  rw [State.endBringIn, h]
  rfl

/-- A spare outside the DSP cores that fails is RETIRED with its page's source, and the same bring-in tries the next one. -/
theorem State.endBringIn_fail {b : BringIn} {u : State} (h : Tbl.look s.map.running die = some b) (hc : b.cls ≠ clsDsp)
    (hu : u = (s.retireSpare b).raise (unitPage b.cls b.spare) 7 (failInfo b)) : s.endBringIn die false =
      ((u.stopBringIn die).tryBringIn die b.cls b.unit b.pos).getD
        (((u.stopBringIn die).escalate b.cls b.unit).startBringIn die) := by
  subst hu
  simp only [State.endBringIn, h, if_neg hc, Bool.false_eq_true, if_false]
  rfl

/-- The next spare of its scope takes a failed cluster's place. -/
theorem State.endBringIn_fail_cluster {b : BringIn} {u : State} {sp : Nat} (h : Tbl.look s.map.running die = some b)
    (hc : b.cls = clsCluster) (hu : u = (s.retireSpare b).raise (pageAt .clus b.spare) 7 0xFFFF)
    (hsp : u.curMap.spareFor u.sec.variant b.cls b.unit = some sp) : s.endBringIn die false =
      ((u.stopBringIn die).runBringIn die { b with spare := sp }).lightSpare b.cls sp := by
  have htry := State.tryBringIn_of_spare (s := u.stopBringIn die) (die := die) b.pos hsp
  have hdsp : b.cls ≠ clsDsp := by simp [hc, clsCluster, clsDsp]
  rw [← unitPage_cluster hc, ← failInfo_cluster hc] at hu
  rw [State.endBringIn_fail h hdsp hu, htry, Option.getD_some]

end

/-! ## The commands -/

section
variable {s : State} (h : s.awake = true)
include h

theorem exec_bringInStart (die : Fin 6) :
    exec (.bringInStart die) s = .next (s.finish (if s.servesDie die.val then s.startBringIn die.val else s)) :=
  (show exec (.bringInStart die) s = execBringInStart die s from rfl).trans (perform_awake h)

theorem exec_bringInAttemptComplete (die : Fin 6) (hs : s.servesDie die.val = true) (pass : Bool) :
    exec (.bringInAttemptComplete die pass) s = .next (s.finish (s.endBringIn die.val pass)) := by
  refine (show exec (.bringInAttemptComplete die pass) s = execBringInAttemptComplete die pass s from rfl).trans
    ((perform_awake h).trans ?_)
  rw [if_pos hs]

theorem exec_bringInResumeAfterReset :
    exec .bringInResumeAfterReset s = .next (s.finish ((List.range 6).foldl State.bringIn s)) :=
  (show exec .bringInResumeAfterReset s = execBringInResumeAfterReset s from rfl).trans (perform_awake h)

end

/-- Settles O11: the lowest waiting retirement starts, an attempt ends by its self-test, and a die that does not serve or
serves one already starts nothing. -/
theorem sparesStandIn : Obligations.SparesStandIn := by
  intro s die h
  refine ⟨fun hs => ⟨?_, ?_, ?_, ?_⟩, exec_bringInResumeAfterReset h, fun hs hset => ?_⟩
  · rintro c u p sp t hw hd hlow hrun hsp rfl
    rw [exec_bringInStart h, if_pos hs, State.startBringIn_next hrun (nextWaiting_of_lowest hw hd hlow) hsp]
    rfl
  · intro b hrun hset
    rw [exec_bringInStart h, if_pos hs, State.startBringIn_running hrun, finish_self s hset]
  · rintro b t hrun rfl
    rw [exec_bringInAttemptComplete h die hs, State.endBringIn_pass hrun]
    rfl
  · rintro b t u sp hrun hc rfl hu hsp
    rw [exec_bringInAttemptComplete h die hs, State.endBringIn_fail_cluster hrun hc hu hsp]
    rfl
  · rw [exec_bringInStart h, if_neg (by simp [hs]), finish_self s hset]

end Sys2Proof.Machine
end

section
/-! SUPPORT. What one product does to each field of the exact accumulator, which exponents the values of a format have, and
the statement that exact sums do not depend on their order. -/

namespace Sys2Proof.Machine

/-! ## The exponents of a format's values (R33 to R35, R53) -/

/-- The exponent of the least place that a finite value of the format has. -/
def Fmt.leastExp (f : Fmt) : Int := if f.isInt then 0 else 1 - f.bias - f.sigW

/-- Every finite value of a format but E8M0 is a multiple of the format's least place. -/
theorem leastExp_le_of_decodeFmt {f : Fmt} (hf : f.code ≠ 15) {code m : Nat} {n : Bool} {e : Int}
    (h : decodeFmt f code = .fin n m e) : f.leastExp ≤ e := by
  cases hint : f.isInt with
  | true =>
    have he : e = 0 := by
      simp only [decodeFmt, hint, Val.ofInt, if_true] at h
      split at h <;> cases h <;> rfl
    simp [Fmt.leastExp, hint, he]
  | false =>
    simp only [Fmt.leastExp, hint, Bool.false_eq_true, if_false]
    simp only [decodeFmt, hint, hf, Bool.false_eq_true, if_false] at h
    split_ifs at h with _ _ _ hsub
    -- a subnormal number has the least exponent itself
    · cases h
      exact le_rfl
    -- a normal one has a biased exponent of at least 1
    · cases h
      omega

theorem Factor.whole_decodeFmt {g fmt : Nat} (x : Int) (code : Nat) (hcode : (fmtOf fmt).code ≠ 15)
    (hq : (factorOf g).1 = (fmtOf fmt).leastExp) : Factor.Whole ⟨g, x, decodeFmt (fmtOf fmt) code⟩ := by
  cases h : decodeFmt (fmtOf fmt) code with
  | nan => trivial
  | inf _ => trivial
  | fin n m e => exact .inr (hq ▸ leastExp_le_of_decodeFmt hcode h)

/-- R53's qmin of a narrow format is the exponent of its least place. -/
theorem factorOf_narrow {fmt : Nat} (h : isNarrow fmt = true) :
    (fmtOf fmt).code ≠ 15 ∧ (factorOf fmt).1 = (fmtOf fmt).leastExp := by
  have hmem : fmt ∈ [5, 6, 7, 8, 9, 12, 14] := by simpa [isNarrow] using h
  exact (by decide : ∀ f ∈ [5, 6, 7, 8, 9, 12, 14], (fmtOf f).code ≠ 15 ∧ (factorOf f).1 = (fmtOf f).leastExp) fmt hmem

/-! ## Products (R54) -/

/-- L of a product (R54). -/
def Factor.low (a b : Factor) : Int := a.x + b.x + (factorOf a.fmt).1 + (factorOf b.fmt).1

/-- The top of a product (R54). -/
def Factor.top (a b : Factor) : Int := a.low b + ((factorOf a.fmt).2 + (factorOf b.fmt).2 : Nat)

/-- A finite product as a multiple of 2^s modulo 2^96. A product that is no number adds nothing (log 32). -/
def Factor.term (a b : Factor) (s : Int) : BitVec 96 :=
  match a.v.mul b.v with
  | .fin n m e => BitVec.ofInt 96 (scaledTo n m (e + a.x + b.x) s)
  | _ => 0

theorem Val.mul_eq_fin {v w : Val} {n : Bool} {m : Nat} {e : Int} (h : v.mul w = .fin n m e) :
    ∃ n₁ m₁ e₁ n₂ m₂ e₂, v = .fin n₁ m₁ e₁ ∧ w = .fin n₂ m₂ e₂ ∧ m = m₁ * m₂ ∧ e = e₁ + e₂ := by
  cases v <;> cases w <;> simp only [Val.mul, reduceCtorEq] at h
  case inf.fin => split at h <;> cases h
  case fin.inf => split at h <;> cases h
  case fin.fin =>
    cases h
    exact ⟨_, _, _, _, _, _, rfl, rfl, rfl, rfl⟩

/-- A finite product of whole factors is an integer multiple of 2^L. -/
theorem Factor.low_le_of_whole {a b : Factor} (ha : a.Whole) (hb : b.Whole) {n : Bool} {m : Nat} {e : Int}
    (h : a.v.mul b.v = .fin n m e) : m = 0 ∨ a.low b ≤ e + a.x + b.x := by
  obtain ⟨n₁, m₁, e₁, n₂, m₂, e₂, hav, hbv, rfl, rfl⟩ := Val.mul_eq_fin h
  simp only [Factor.Whole, hav] at ha
  simp only [Factor.Whole, hbv] at hb
  obtain rfl | ha := ha
  · exact .inl (Nat.zero_mul _)
  obtain rfl | hb := hb
  · exact .inl (Nat.mul_zero _)
  right
  unfold Factor.low
  omega

/-- Scaling to a lower exponent multiplies by the power of two between them. -/
theorem scaledTo_lower {n : Bool} {m : Nat} {e t s : Int} (h : m = 0 ∨ t ≤ e) (hs : s ≤ t) :
    scaledTo n m e t * 2 ^ (t - s).toNat = scaledTo n m e s := by
  obtain rfl | h := h
  · simp [scaledTo]
  · have hexp : (e - s).toNat = (e - t).toNat + (t - s).toNat := by omega
    cases n <;> simp [scaledTo, hexp, pow_add, mul_assoc]

/-- Shifting a two's-complement integer multiplies it by the power of two. -/
theorem ofInt_shiftLeft (w k : Nat) (z : Int) : BitVec.ofInt w z <<< k = BitVec.ofInt w (z * 2 ^ k) := by
  have hpow : BitVec.ofInt w (2 ^ k) = BitVec.twoPow w k := by
    apply BitVec.eq_of_toNat_eq
    rw [BitVec.toNat_ofInt, BitVec.toNat_twoPow]
    norm_cast
  rw [BitVec.shiftLeft_eq_mul_twoPow, BitVec.ofInt_mul, hpow]

/-- A product of whole factors, brought to a lower scale, is its term there. -/
theorem Factor.term_lower {a b : Factor} (ha : a.Whole) (hb : b.Whole) {t s : Int}
    (ht : (a.v.mul b.v).isFin = true → t ≤ a.low b) (hs : s ≤ t) : a.term b t <<< (t - s).toNat = a.term b s := by
  cases h : a.v.mul b.v with
  | nan => simp [Factor.term, h]
  | inf _ => simp [Factor.term, h]
  | fin n m e =>
    have hlow : t ≤ a.low b := ht (by rw [h]; rfl)
    have hwhole : m = 0 ∨ t ≤ e + a.x + b.x := (Factor.low_le_of_whole ha hb h).imp_right hlow.trans
    simp only [Factor.term, h, ofInt_shiftLeft, scaledTo_lower hwhole hs]

/-! ## One product in the exact accumulator (R54) -/

/-- A as a multiple of 2^s modulo 2^96, for s no larger than T. -/
def Acc.scaledA (c : Acc) (s : Int) : BitVec 96 := c.a <<< (c.t - s).toNat

theorem Acc.scaledA_self (c : Acc) : c.scaledA c.t = c.a := by simp [Acc.scaledA]

theorem Acc.scaledA_lower {c : Acc} {t s : Int} (ht : t ≤ c.t) (hs : s ≤ t) : c.scaledA t <<< (t - s).toNat = c.scaledA s := by
  have hexp : (c.t - s).toNat = (c.t - t).toNat + (t - s).toNat := by omega
  rw [Acc.scaledA, Acc.scaledA, hexp, BitVec.shiftLeft_add]

/-- Accumulators are equal when every other field is and A, as a multiple of 2^T. -/
theorem Acc.eq_of_scaledA {c d : Acc} (ha : c.scaledA c.t = d.scaledA c.t) (ht : c.t = d.t) (hh : c.h = d.h) (hn : c.n = d.n)
    (hp : c.pinf = d.pinf) (hi : c.ninf = d.ninf) (hnan : c.nan = d.nan) : c = d := by
  rw [c.scaledA_self, ht, d.scaledA_self] at ha
  cases c
  cases d
  exact Acc.mk.injEq .. ▸ ⟨ha, ht, hh, hn, hp, hi, hnan⟩

section
variable (c : Acc) (a b : Factor)

theorem Acc.addExact_n : (c.addExact a b).n = min (c.n + 1) 0xFFFFFFFF := by
  cases h : a.v.mul b.v <;> simp only [Acc.addExact, h]

theorem Acc.addExact_nan : (c.addExact a b).nan = (c.nan || decide (a.v.mul b.v = .nan)) := by
  cases h : a.v.mul b.v <;> simp [Acc.addExact, h]

theorem Acc.addExact_pinf : (c.addExact a b).pinf = (c.pinf || decide (a.v.mul b.v = .inf false)) := by
  cases h : a.v.mul b.v <;> simp [Acc.addExact, h]

theorem Acc.addExact_ninf : (c.addExact a b).ninf = (c.ninf || decide (a.v.mul b.v = .inf true)) := by
  cases h : a.v.mul b.v <;> simp [Acc.addExact, h]

theorem Acc.addExact_t : (c.addExact a b).t = if (a.v.mul b.v).isFin then min c.t (a.low b) else c.t := by
  cases h : a.v.mul b.v <;> simp [Acc.addExact, h, Val.isFin, Factor.low]

theorem Acc.addExact_h : (c.addExact a b).h = if (a.v.mul b.v).isFin then max c.h (a.top b) else c.h := by
  cases h : a.v.mul b.v <;> simp [Acc.addExact, h, Val.isFin, Factor.low, Factor.top]

theorem Acc.addExact_t_le : (c.addExact a b).t ≤ c.t := by
  rw [Acc.addExact_t]
  split
  · exact min_le_left _ _
  · exact le_rfl

theorem Acc.addExact_t_le_low (h : (a.v.mul b.v).isFin = true) : (c.addExact a b).t ≤ a.low b := by
  rw [Acc.addExact_t, if_pos h]
  exact min_le_right _ _

/-- A is brought to the new T, and the product's multiple of 2^T is added. -/
theorem Acc.addExact_a : (c.addExact a b).a = c.scaledA (c.addExact a b).t + a.term b (c.addExact a b).t := by
  cases h : a.v.mul b.v with
  | nan => simp [Acc.addExact, Factor.term, Acc.scaledA, h]
  | inf _ => simp [Acc.addExact, Factor.term, Acc.scaledA, h]
  | fin n m e =>
    have hbase : (if a.low b < c.t then c.a <<< (c.t - a.low b).toNat else c.a) = c.scaledA (min c.t (a.low b)) := by
      split
      next hlt => rw [Acc.scaledA, min_eq_right hlt.le]
      next hge => rw [min_eq_left (not_lt.1 hge), Acc.scaledA_self]
    rw [Acc.addExact_t, h, Val.isFin, if_pos rfl, ← hbase]
    simp only [Acc.addExact, Factor.term, h]
    rfl

end

/-- At every scale no larger than the new T, adding a product adds its term to A. -/
theorem Acc.scaledA_addExact (c : Acc) {a b : Factor} (ha : a.Whole) (hb : b.Whole) {s : Int} (hs : s ≤ (c.addExact a b).t) :
    (c.addExact a b).scaledA s = c.scaledA s + a.term b s := by
  have hlow : (a.v.mul b.v).isFin = true → (c.addExact a b).t ≤ a.low b := c.addExact_t_le_low a b
  rw [Acc.scaledA, Acc.addExact_a, BitVec.shiftLeft_add_distrib, Acc.scaledA_lower (c.addExact_t_le a b) hs,
    Factor.term_lower ha hb hlow hs]

/-- Two products may change places. -/
theorem Acc.addExact_right_comm (c : Acc) {p q : Factor × Factor} (hp : p.1.Whole ∧ p.2.Whole) (hq : q.1.Whole ∧ q.2.Whole) :
    (c.addExact p.1 p.2).addExact q.1 q.2 = (c.addExact q.1 q.2).addExact p.1 p.2 := by
  have ht : ((c.addExact p.1 p.2).addExact q.1 q.2).t = ((c.addExact q.1 q.2).addExact p.1 p.2).t := by
    simp only [Acc.addExact_t]
    split_ifs <;> simp only [min_right_comm]
  refine Acc.eq_of_scaledA ?_ ht ?_ ?_ ?_ ?_ ?_
  -- A, at the T that both products leave
  · have hpq := (c.addExact p.1 p.2).addExact_t_le q.1 q.2
    have hqp := (c.addExact q.1 q.2).addExact_t_le p.1 p.2
    rw [Acc.scaledA_addExact _ hq.1 hq.2 le_rfl, Acc.scaledA_addExact _ hp.1 hp.2 hpq,
      Acc.scaledA_addExact _ hp.1 hp.2 ht.le, Acc.scaledA_addExact _ hq.1 hq.2 (ht.trans_le hqp), add_right_comm]
  · simp only [Acc.addExact_h]
    split_ifs <;> simp only [max_right_comm]
  · simp only [Acc.addExact_n]
  · simp only [Acc.addExact_pinf, Bool.or_right_comm]
  · simp only [Acc.addExact_ninf, Bool.or_right_comm]
  · simp only [Acc.addExact_nan, Bool.or_right_comm]

/-- Settles O19: any two products may change places, since at every scale each adds a fixed term to A, and T, Htop, N and the
flags gather a minimum, a maximum, a count and disjunctions. Products that are no number leave A, T and Htop (log 32). -/
theorem exactSumsCommute : Obligations.ExactSumsCommute := by
  refine ⟨fun l m c hperm hwhole => ?_, fun f code x hf _ => ?_, fun code _ => ?_⟩
  · exact hperm.foldl_eq' (fun p hp q hq c => c.addExact_right_comm (hwhole p hp) (hwhole q hq)) c
  · obtain ⟨hcode, hq⟩ := factorOf_narrow hf
    exact Factor.whole_decodeFmt x code hcode hq
  · exact Factor.whole_decodeFmt 0 code (by decide) (by decide)

end Sys2Proof.Machine
end

section
/-! SUPPORT. The fade of a chorus unit, and the statement about its procedure. -/

namespace Sys2Proof.Machine

/-! ## The fade (R80) -/

section
variable {u : ChorusUnit} {ceil : Nat}

theorem ChorusUnit.fadeEnd_of_phase_lt (h : u.phase < 6) : u.fadeEnd ceil = u := if_pos h

/-- A phase that is over moves the level. -/
theorem ChorusUnit.fadeEnd_of_phase_over (h : 6 ≤ u.phase) : u.fadeEnd ceil =
    { u with phase := 0, level := if u.want && decide (u.level < ceil) then u.level + 1
                                  else if u.want && decide (u.level ≤ ceil) then u.level else u.level - 1 } :=
  if_neg h.not_gt

/-- A unit at level 0 that does not want rests. -/
theorem ChorusUnit.cycle_at_rest (hp : u.phase < 6) (hl : u.level = 0) :
    u.cycle ceil false = ({ u with want := false, credit := 0, phase := 0 }, false) := by
  cases hw : u.want <;> simp [ChorusUnit.cycle, fadeEnd_of_phase_lt hp, hl, hw]

/-- Any other unit has a level of at least 1, which its credit gains; 8 of credit are a grant, and a change of want starts the
phase anew. -/
theorem ChorusUnit.cycle_in_motion {want : Bool} (hp : u.phase < 6) (h : ¬(u.level = 0 ∧ want = false)) :
    u.cycle ceil want =
      ({ u with want := want, level := max 1 u.level, phase := if want = u.want then u.phase + 1 else 1,
                credit := if 8 ≤ u.credit + max 1 u.level then u.credit + max 1 u.level - 8 else u.credit + max 1 u.level },
       decide (8 ≤ u.credit + max 1 u.level)) := by
  by_cases hw : want = u.want
  · subst hw
    simp [ChorusUnit.cycle, fadeEnd_of_phase_lt hp, h]
  · simp [ChorusUnit.cycle, fadeEnd_of_phase_lt hp, h, hw]

end

/-- Settles O16: a cycle and the end of its phase by the rules above, and the worked runs of R80 by evaluation. -/
theorem fadeProcedure : Obligations.FadeProcedure := by
  refine ⟨fun u want hlevel hphase => ⟨fun hl hw => ?_, fun h => ?_⟩, by decide +kernel⟩
  · subst hw
    rw [ChorusUnit.cycle_at_rest hphase hl]
    exact ⟨rfl, ChorusUnit.fadeEnd_of_phase_lt (by decide : 0 < 6)⟩
  · rw [ChorusUnit.cycle_in_motion hphase h]
    refine ⟨decide_eq_true_iff, ?_⟩
    by_cases hw : want = u.want
    · by_cases hend : u.phase + 1 = 6
      · rw [ChorusUnit.fadeEnd_of_phase_over (by simp [hw, hend])]
        have htop : max 1 u.level ≤ 8 := by omega
        simp [hw, hend, htop]
      · rw [ChorusUnit.fadeEnd_of_phase_lt (by simp [hw]; omega)]
        simp [hw, hend]
    · rw [ChorusUnit.fadeEnd_of_phase_lt (by simp [hw])]
      simp [hw]

end Sys2Proof.Machine
end

section
/-! SUPPORT. What the single cycles of a chorus unit and a whole chorus command do, and the statement about them. -/

namespace Sys2Proof.Machine

/-- An index is its own remainder. -/
theorem fin_mk_mod {n : Nat} (i : Fin n) (h : i.val % n < n) : (⟨i.val % n, h⟩ : Fin n) = i :=
  Fin.ext (Nat.mod_eq_of_lt i.isLt)

/-! ## The end of a beat (R75) -/

theorem State.endBeat_of_over {s : State} {k u : Nat} (hpos : 0 < (s.cuOf k u).beatCyc)
    (hover : (s.cuOf k u).cur = none ∨ 512 ≤ (s.cuOf k u).beatCyc) : s.endBeat k u =
      ((((s.setCu k u { s.cuOf k u with beatCyc := 0 }).bump .clus k 0x070 1).landUnit k u).wrapUp k) := by
  have h : (s.cuOf k u).beatOver = true := by simp [ChorusUnit.beatOver, hpos, hover]
  simp only [State.endBeat, h, Bool.not_true, Bool.false_eq_true, if_false]

/-! ## The use of a grant (R81, R85) -/

section
variable {s : State} {k : Nat} {v : Fin 12} (others : List BankReq)

theorem State.useGrant_advances (h : (s.cuOf k v.val).sub ≠ 0) :
    s.useGrant k v others = s.setCu k v.val { s.cuOf k v.val with sub := (s.cuOf k v.val).sub - 1 } := by
  simp only [State.useGrant, if_pos h]

theorem State.useGrant_filler (hsub : (s.cuOf k v.val).sub = 0) (hcur : (s.cuOf k v.val).cur = none)
    (hwant : (s.cuOf k v.val).want = true) : s.useGrant k v others = s.bump64 .clus k 0x068 1 := by
  simp only [State.useGrant, hsub, hcur, hwant, ne_eq, not_true, if_false, if_true]

/-- A ready k-step asks the banks for its lines; where a bank has several of them, the unit waits a cycle for each but one. -/
theorem State.useGrant_ready {d : XDesc} {lines : List Nat} {t : State} {ok : Bool} (hsub : (s.cuOf k v.val).sub = 0)
    (hcur : (s.cuOf k v.val).cur = some d) (hhold : s.holding k v.val = false)
    (hlines : lines = (((s.cuOf k v.val).allReads d).flatMap fun r => linesAt r.1 r.2).eraseDups)
    (hserve : s.bankServe k (.chorus v) lines [] others = (t, ok)) :
    s.useGrant k v others =
      if ok = false then t.bump .clus k 0x078 1
      else if (s.cuOf k v.val).lines + 1
          < maxBy (fun b => ((lines.map (· % 48)).filter (· == b)).length) (lines.map (· % 48)) then
        (t.setCu k v.val { s.cuOf k v.val with lines := (s.cuOf k v.val).lines + 1 }).bump .clus k 0x078 1
      else t.issueK k v.val d := by
  subst hlines
  cases ok <;>
    simp only [State.useGrant, hsub, hcur, hhold, hserve, ne_eq, not_true, if_false, if_true, Bool.false_eq_true,
      Bool.not_false, Bool.not_true, reduceCtorEq]

end

/-! ## Whole commands (R74, R104) -/

theorem State.runChorus_of_key {s s1 s2 s3 : State} {k key : Nat} {u : Fin 12} {d : XDesc} (h1 : s1 = s.startCmd k u.val)
    (hcur : (s1.cuOf k u.val).cur = some d) (hkey : d.key = key)
    (h2 : s2 = (((s1.runK k u.val d.ksteps).drainPipe k u.val 1024).readAllOut k u.val 128))
    (h3 : s3 = (if (s2.cuOf k u.val).cur = none ∧ (s2.cuOf k u.val).beatCyc = 0 ∧ (s2.cuOf k u.val).fin ≠ []
      then s2.setCu k u.val { s2.cuOf k u.val with beatCyc := 1 } else s2)) :
    s.runChorus k u.val key = (s3.endBeat k u.val).completeHead k (.unit u) := by
  subst h1 h2 h3
  simp only [State.runChorus, hcur, hkey, fin_mk_mod, ne_eq, not_true, if_false, Option.isNone_iff_eq_none,
    List.length_eq_zero_iff]

/-! ## The commands -/

section
variable {s : State} (h : s.awake = true) (cl : Fin 144) (u : Fin 12)
include h

theorem exec_fadeStep : exec (.fadeStep cl u) s =
    .next (s.finish (s.setCu cl.val u.val ((s.cuOf cl.val u.val).fadeEnd (s.ceiling cl.val)))) :=
  (show exec (.fadeStep cl u) s = execFadeStep cl u s from rfl).trans (perform_awake h)

theorem exec_beatEnd : exec (.beatEnd cl u) s = .next (s.finish (s.endBeat cl.val u.val)) :=
  (show exec (.beatEnd cl u) s = execBeatEnd cl u s from rfl).trans (perform_awake h)

theorem exec_mma : exec (.mma cl u) s = .next (s.finish (s.runChorus cl.val u.val 0x10)) :=
  (show exec (.mma cl u) s = execMma cl u s from rfl).trans (perform_awake h)

theorem exec_mmaQuad : exec (.mmaQuad cl u) s = .next (s.finish (s.runChorus cl.val u.val 0x11)) :=
  (show exec (.mmaQuad cl u) s = execMmaQuad cl u s from rfl).trans (perform_awake h)

/-- A request that is refused for 16 cycles becomes aged (R85). -/
theorem exec_bankRequestAged {client : BankClient} {n : Nat} {aged : Bool}
    (hw : Tbl.get (0, false) (s.clOf cl.val).waits (clientCode client) = (n, aged)) (hn : 16 ≤ n) :
    exec (.bankRequestAged cl client) s = .next (s.finish (s.setCl cl.val
      { s.clOf cl.val with waits := Tbl.set (0, false) (s.clOf cl.val).waits (clientCode client) (n, true) })) := by
  refine (show exec (.bankRequestAged cl client) s = execBankRequestAged cl client s from rfl).trans ((perform_awake h).trans ?_)
  simp only [hw, hn, if_true]

/-- One cycle of a unit: a beat that is over ends, a command that may starts, and the cycle of R80 runs; its grant is used. -/
theorem exec_kstepIssue {others : List BankReq} {s1 s2 : State} {c : ChorusUnit × Bool}
    (h1 : s1 = (s.endBeat cl.val u.val).startCmd cl.val u.val)
    (hc : c = (s1.cuOf cl.val u.val).cycle (s1.ceiling cl.val) (s1.wants cl.val u.val))
    (h2 : s2 = s1.setCu cl.val u.val { c.1 with beatCyc := c.1.beatCyc + bn c.1.cur.isSome }) :
    exec (.kstepIssue cl u others) s = .next (s.finish (if c.2 then s2.useGrant cl.val u others else s2)) := by
  obtain ⟨un, grant⟩ := c
  subst h1
  refine (show exec (.kstepIssue cl u others) s = execKstepIssue cl u others s from rfl).trans ((perform_awake h).trans ?_)
  simp only [← hc, h2]

end

/-- Settles O17: the commands of a chorus unit by the rules above. -/
theorem chorusUnitCycles : Obligations.ChorusUnitCycles := by
  refine ⟨fun s cl u h => ⟨exec_fadeStep h cl u, ?_, ?_, ?_⟩, ?_⟩
  · intro others s1 s2 c h1 hc h2
    have hexec := exec_kstepIssue h cl u (others := others) h1 hc h2
    refine ⟨fun hg => ?_, fun hg hsub => ?_, fun hg hsub hcur hwant => ?_, ?_⟩
    · rw [hexec, hg, if_neg Bool.false_ne_true]
    · rw [hexec, if_pos hg, State.useGrant_advances others hsub]
    · rw [hexec, if_pos hg, State.useGrant_filler others hsub hcur hwant]
    · intro d lines s3 ok hg hsub hcur hhold hlines hserve
      rw [hexec, if_pos hg, State.useGrant_ready others hsub hcur hhold hlines hserve]
      refine ⟨fun hok => by rw [if_pos hok], fun hok hfit => ?_⟩
      rw [if_neg (by simp [hok]), if_neg hfit.not_gt]
  · rintro client x n aged rfl hw hn
    exact exec_bankRequestAged h cl hw hn
  · intro hpos hover
    rw [exec_beatEnd h, State.endBeat_of_over hpos hover]
  · intro s s1 s2 s3 cl u d h h1 hcur h2 h3
    refine ⟨fun hkey => ?_, fun hkey => ?_⟩
    · rw [exec_mma h, State.runChorus_of_key h1 hcur hkey h2 h3]
    · rw [exec_mmaQuad h, State.runChorus_of_key h1 hcur hkey h2 h3]

end Sys2Proof.Machine
end

section
/-! SUPPORT. What the banks leave of the units, what a unit's accumulators, readouts, spills and restores do, and the statement
about them. -/

namespace Sys2Proof.Machine

/-! ## What a request to the banks leaves alone (R85) -/

theorem State.collide_cls (k : Nat) (before : List BankReq) (writes : List Nat) (s : State) :
    (s.collide k before writes).cls = s.cls := by
  induction writes generalizing s with
  | nil => rfl
  | cons l writes ih =>
    refine (ih _).trans ?_
    dsimp only
    split
    · rw [State.raise_cls, State.bump_cls]
    · rfl

theorem State.bankWait_cuOf (s : State) (k u : Nat) (c : BankClient) (refused : Bool) :
    (s.bankWait k c refused).cuOf k u = s.cuOf k u := by
  simp [State.cuOf, State.bankWait]

/-- The banks keep counts of refusals and leave the units as they are. -/
theorem State.bankServe_cuOf {s t : State} {k : Nat} {c : BankClient} {reads writes : List Nat} {others : List BankReq}
    {ok : Bool} (h : s.bankServe k c reads writes others = (t, ok)) (u : Nat) : t.cuOf k u = s.cuOf k u := by
  obtain ⟨rfl, -⟩ := Prod.mk.inj h
  rw [State.bankWait_cuOf, State.cuOf, State.clOf, State.collide_cls]
  rfl

/-! ## Accumulation (R71, R87) -/

@[simp] theorem State.eccLost_none (s : State) (k u b : Nat) : s.eccLost k u b none = s := rfl

/-- Source 0x1004 names the unit, the voice and, in its bank field, the accumulator bank (R87, log 58). -/
theorem State.eccLost_some (s : State) (k u b : Nat) (p : Fin 33) : ∃ t : State, s.eccLost k u b (some p) =
    t.raise (pageAt .clus k) 4 (BitVec.ofNat 32 (s.curMap.cu k u + 16 * p.val + 1024 * b)) := by
  unfold State.eccLost
  exact ⟨_, rfl⟩

/-- Without a residue mismatch an issue reaches its bank; at the last k-step the tile reads out, or its command is over. -/
theorem State.accumulateOne_of_pipe {s : State} {k u : Nat} {e : KIssue} {rest : List KIssue} {d : XDesc}
    (hpipe : (s.cuOf k u).pipe = e :: rest) (hcmd : e.cmd = some d) :
    s.accumulateOne k u none = s.setCu k u { s.cuOf k u with
      pipe := rest,
      acc := Tbl.set [] (s.cuOf k u).acc e.bank (e.update d s.free (Tbl.get [] (s.cuOf k u).acc e.bank) none),
      readout := if d.ksteps ≤ e.k + d.perIssue ∧ d.out = true then (s.cuOf k u).readout ++ [(e.bank, 0, d)]
        else (s.cuOf k u).readout,
      fin := if d.ksteps ≤ e.k + d.perIssue ∧ d.out = false then (s.cuOf k u).fin ++ [d] else (s.cuOf k u).fin } := by
  simp [State.accumulateOne, hpipe, hcmd]

/-! ## Readout (R73) -/

/-- One vector of a tile that is not in quadrant mode, written without a failing access. -/
theorem State.readoutOne_of_vector {s t : State} {k u b n : Nat} {d : XDesc} {rest : List (Nat × Nat × XDesc)}
    (hread : (s.cuOf k u).readout = (b, n, d) :: rest) (hgroups : d.groups = 1)
    (hvec : s.readVector (if d.away then 300 + k else k) d (Tbl.get [] (s.cuOf k u).acc b) 0 n = (t, 0)) :
    s.readoutOne k u = t.setCu k u
      (if n = 31 then { t.cuOf k u with readout := rest, fin := (t.cuOf k u).fin ++ [d] }
       else { t.cuOf k u with readout := (b, n + 1, d) :: rest }) := by
  simp only [State.readoutOne, hread, hgroups, hvec, OfNat.one_ne_ofNat, if_false, ne_eq, not_true]
  split <;> rfl

/-! ## The commands -/

section
variable {s : State} (h : s.awake = true) (cl : Fin 144) (u : Fin 12)
include h

/-- An uncorrectable error is found as the bank is read, before the products reach it. -/
theorem exec_accumulatorUpdate {e : KIssue} {rest : List KIssue} (hpipe : (s.cuOf cl.val u.val).pipe = e :: rest)
    (residue ecc : Option (Fin 33)) : exec (.accumulatorUpdate cl u residue ecc) s =
      .next (s.finish ((s.eccLost cl.val u.val e.bank ecc).accumulateOne cl.val u.val (residue.map (·.val)))) := by
  refine (show exec (.accumulatorUpdate cl u residue ecc) s = execAccumulatorUpdate cl u residue ecc s from rfl).trans
    ((perform_awake h).trans ?_)
  simp only [hpipe]

theorem exec_tileReadout_served {b n : Nat} {d : XDesc} {rest : List (Nat × Nat × XDesc)} {others : List BankReq} {t : State}
    (hread : (s.cuOf cl.val u.val).readout = (b, n, d) :: rest) (hgroups : d.groups = 1)
    (hserve : s.bankServe cl.val (.readout u) [] (d.vectorLines 0 n) others = (t, true)) (ecc : Option (Fin 33)) :
    exec (.tileReadout cl u ecc others) s =
      .next (s.finish ((t.eccLost cl.val u.val b ecc).readoutOne cl.val u.val)) := by
  refine (show exec (.tileReadout cl u ecc others) s = execTileReadout cl u ecc others s from rfl).trans
    ((perform_awake h).trans ?_)
  simp only [hread, hgroups, hserve, OfNat.one_ne_ofNat, if_false, if_true]

/-- A spill whose bank no issue in flight is still to reach. -/
theorem exec_spillComplete {b : Nat} (hspill : (s.cuOf cl.val u.val).spilling = some b)
    (hpipe : ((s.cuOf cl.val u.val).pipe.any fun e => e.bank == b) = false) {others : List BankReq} {ecc : Option (Fin 33)}
    {fn : Nat} {s1 t : State}
    (h1 : s1 = (s.collide cl.val (s.bankBefore cl.val (.spill u) others) (linesAt (slotAt u.val) 0x6000)).eccLost
      cl.val u.val b ecc)
    (hfn : fn = (match (s.cuOf cl.val u.val).leaving.bind fun p => s1.itemOf p.1 with
      | some it => it.fn
      | none => 0))
    (ht : t = (s1.csWrite cl.val fn (slotAt u.val)
      ((Tbl.get [] (s1.cuOf cl.val u.val).acc b
        ++ List.replicate (1024 - (Tbl.get [] (s1.cuOf cl.val u.val).acc b).length) ({} : Acc)).flatMap Acc.bytes) false).1) :
    exec (.spillComplete cl u ecc others) s = .next (s.finish (((t.setCu cl.val u.val { t.cuOf cl.val u.val with
      spilling := none, leaving := none, acc := Tbl.set [] (t.cuOf cl.val u.val).acc b [],
      ctx := (t.cuOf cl.val u.val).leaving }).wrapUp cl.val).wrapUp (300 + cl.val))) := by
  subst ht hfn h1
  refine (show exec (.spillComplete cl u ecc others) s = execSpillComplete cl u ecc others s from rfl).trans
    ((perform_awake h).trans (congrArg (fun x => Host.Outcome.next (s.finish x)) ?_))
  simp only [hspill]
  exact if_neg (by simp [hpipe])

section
variable {cl u} (hrest : (s.cuOf cl.val u.val).restoring = true) (hctx : (s.cuOf cl.val u.val).ctx = (s.clOf cl.val).placed)
include hrest hctx

theorem exec_restoreComplete_some {t : State} {b : List Byte}
    (hread : s.csRead cl.val (slotAt u.val) 0x6000 = (t, some b)) :
    exec (.restoreComplete cl u) s = .next (s.finish (t.setCu cl.val u.val { t.cuOf cl.val u.val with
      restoring := false, ctx := none, part := true,
      acc := Tbl.set [] (t.cuOf cl.val u.val).acc (t.cuOf cl.val u.val).bank ((pieces 24 1025 b).map accOf) })) := by
  refine (show exec (.restoreComplete cl u) s = execRestoreComplete cl u s from rfl).trans ((perform_awake h).trans ?_)
  rw [if_neg (by simp [hrest, hctx]), hread]

/-- A slot that reads poisoned ends the task. -/
theorem exec_restoreComplete_none {t : State} (hread : s.csRead cl.val (slotAt u.val) 0x6000 = (t, none)) :
    exec (.restoreComplete cl u) s = .next (s.finish
      (((t.setCu cl.val u.val { t.cuOf cl.val u.val with restoring := false, ctx := none }).raise (pageAt .clus cl.val) 9
        (cuInfo (t.curMap.cu cl.val u.val) 0x3F)).failX cl.val stPoisoned (t.seqOf cl.val).pt.line)) := by
  refine (show exec (.restoreComplete cl u) s = execRestoreComplete cl u s from rfl).trans ((perform_awake h).trans ?_)
  rw [if_neg (by simp [hrest, hctx]), hread]

end

end

/-- Settles O18: each command by the rules above; the banks leave the readout that they serve as it was. -/
theorem accumulatorsAndContexts : Obligations.AccumulatorsAndContexts := by
  rintro s cl u un h rfl
  refine ⟨fun e rest d hpipe hcmd => ⟨?_, exec_accumulatorUpdate h cl u hpipe⟩, State.eccLost_some s cl.val u.val,
    ?_, ?_, ?_, ?_⟩
  · rw [exec_accumulatorUpdate h cl u hpipe, State.eccLost_none, Option.map_none, State.accumulateOne_of_pipe hpipe hcmd]
  · intro b n d rest others s1 t hread hgroups hserve hvec
    have hcu : s1.cuOf cl.val u.val = s.cuOf cl.val u.val := State.bankServe_cuOf hserve u.val
    rw [← hcu] at hvec
    rw [exec_tileReadout_served h cl u hread hgroups hserve, State.eccLost_none,
      State.readoutOne_of_vector (hcu ▸ hread) hgroups hvec]
  · intro b fn others ecc s1 t hspill hpipe h1 hfn ht
    exact exec_spillComplete h cl u hspill hpipe h1 hfn ht
  · intro t b hrest hctx hread
    exact exec_restoreComplete_some h hrest hctx hread
  · intro t hrest hctx hread
    exact exec_restoreComplete_none h hrest hctx hread

end Sys2Proof.Machine
end

section
/-! SUPPORT. How the vector unit and the movers run the head of a FIFO, and the statement about the engines of a cluster. -/

namespace Sys2Proof.Machine

/-! ## The head of a FIFO that its banks serve (R85, R106, R108) -/

theorem State.runVec_done {s s1 s2 s3 s4 : State} {cl k key : Nat} {h d : XDesc} {rest : List XDesc} {others : List BankReq}
    {residue : Option Nat} {f : Option Nat → State → Nat → XDesc → State × Nat} (hk : k = s.served cl .vec)
    (hfifo : s.fifoOf k .vec = h :: rest) (hlive : s.live k = true) (hhead : s.startHead k .vec = (s1, some d))
    (hran : d.ran = false) (hserve : s1.bankServe cl .vec d.vecLines.1 d.vecLines.2 others = (s2, true))
    (h3 : s3 = (if residue.isSome then (s2.bump .clus cl 0x09C 1).raise (pageAt .clus cl) 5 (cuInfo 0xF 0x3F) else s2))
    (hkey : h.key = key) (hrun : f residue s3 k d = (s4, 0)) :
    s.runVec cl key residue others f = (s4.ranHead k .vec).completeHead k .vec := by
  subst hk h3
  simp only [State.runVec, hfifo, hkey, hlive, hhead, hran, hserve, hrun, ne_eq, not_true, Bool.not_true, Bool.false_eq_true,
    or_self, if_false]

theorem State.runMover_done {s s1 s2 s3 : State} {cl k key : Nat} {mv : Fin 4} {h d : XDesc} {rest : List XDesc}
    {others : List BankReq} {b : List Byte} {f : State → Nat → Engine → Who → XDesc → State × Got}
    (hk : k = s.served cl (.mover mv)) (hfifo : s.fifoOf k (.mover mv) = h :: rest) (hlive : s.live k = true)
    (hserves : s.servesCl k = true) (hhead : s.startHead k (.mover mv) = (s1, some d)) (hran : d.ran = false)
    (hserve : s1.bankServe cl (.mover mv) d.moverLines.1 d.moverLines.2 others = (s2, true)) (hkey : h.key = key)
    (hrun : f s2 k (.mover mv) (s2.clWho k (.mover mv) d.x) d = (s3, .ok b)) :
    s.runMover cl mv.val key others f = (s3.ranHead k (.mover mv)).completeHead k (.mover mv) := by
  subst hk
  simp only [State.runMover, fin_mk_mod, hfifo, hkey, hlive, hserves, hhead, hran, hserve, hrun, ne_eq, not_true, Bool.not_true,
    Bool.false_eq_true, or_self, if_false, if_true]

/-! ## The commands -/

section
variable {s : State} (h : s.awake = true) (cl : Fin 144)
include h

theorem exec_vmap (residue : Option Nat) (others : List BankReq) : exec (.vmap cl residue others) s =
    .next (s.finish (s.runVec cl.val 0x20 residue others State.runVmap)) :=
  (show exec (.vmap cl residue others) s = execVmap cl residue others s from rfl).trans (perform_awake h)

theorem exec_vred (residue : Option Nat) (others : List BankReq) : exec (.vred cl residue others) s =
    .next (s.finish (s.runVec cl.val 0x21 residue others State.runVred)) :=
  (show exec (.vred cl residue others) s = execVred cl residue others s from rfl).trans (perform_awake h)

theorem exec_vcvt (residue : Option Nat) (others : List BankReq) : exec (.vcvt cl residue others) s =
    .next (s.finish (s.runVec cl.val 0x22 residue others State.runVcvt)) :=
  (show exec (.vcvt cl residue others) s = execVcvt cl residue others s from rfl).trans (perform_awake h)

theorem exec_get (mv : Fin 4) (others : List BankReq) : exec (.get cl mv others) s =
    .next (s.finish (s.runMover cl.val mv.val 0x30 others State.transfer)) :=
  (show exec (.get cl mv others) s = execGet cl mv others s from rfl).trans (perform_awake h)

theorem exec_put (mv : Fin 4) (others : List BankReq) : exec (.put cl mv others) s =
    .next (s.finish (s.runMover cl.val mv.val 0x31 others State.transfer)) :=
  (show exec (.put cl mv others) s = execPut cl mv others s from rfl).trans (perform_awake h)

theorem exec_atomic (mv : Fin 4) (others : List BankReq) : exec (.atomic cl mv others) s =
    .next (s.finish (s.runMover cl.val mv.val 0x32 others State.moverAtom)) :=
  (show exec (.atomic cl mv others) s = execAtomic cl mv others s from rfl).trans (perform_awake h)

theorem exec_fence (mv : Fin 4) :
    exec (.fence cl mv) s = .next (s.finish (s.runMover cl.val mv.val 0x33 [] State.moverFence)) :=
  (show exec (.fence cl mv) s = execFence cl mv s from rfl).trans (perform_awake h)

end

/-- Settles O20: each row is its engine's run of the head of its FIFO, which ends by the rules above. -/
theorem enginesOfACluster : Obligations.EnginesOfACluster := by
  intro s s1 s2 s3 s4 cl h d rest others hawake
  constructor
  · intro k residue hk hfifo hlive hhead hran hserve h3
    refine ⟨fun hkey hrun => ?_, fun hkey hrun => ?_, fun hkey hrun => ?_⟩
    · rw [exec_vmap hawake, State.runVec_done hk hfifo hlive hhead hran hserve h3 hkey hrun]
    · rw [exec_vred hawake, State.runVec_done hk hfifo hlive hhead hran hserve h3 hkey hrun]
    · rw [exec_vcvt hawake, State.runVec_done hk hfifo hlive hhead hran hserve h3 hkey hrun]
  · intro mv k b hk hfifo hlive hserves hhead hran hserve
    refine ⟨fun hkey hrun => ?_, fun hkey hrun => ?_, fun hkey hrun => ?_, fun hkey hrun => ?_⟩
    -- FENCE asks no bank for a line; the other rows ask beside the requests of the cycle
    all_goals simp only [hkey, Nat.reduceEqDiff, if_false, if_true] at hserve
    · rw [exec_get hawake, State.runMover_done hk hfifo hlive hserves hhead hran hserve hkey hrun]
    · rw [exec_put hawake, State.runMover_done hk hfifo hlive hserves hhead hran hserve hkey hrun]
    · rw [exec_atomic hawake, State.runMover_done hk hfifo hlive hserves hhead hran hserve hkey hrun]
    · rw [exec_fence hawake, State.runMover_done hk hfifo hlive hserves hhead hran hserve hkey hrun]

end Sys2Proof.Machine
end

section
/-! SUPPORT. What a sequencer does with the descriptor it takes, how an engine's head starts and completes, and the statements
about them. -/

namespace Sys2Proof.Machine

/-! ## The causes of R116 -/

theorem lowestCause_eq_none_iff (l : List (Nat × Bool)) : lowestCause l = none ↔ ∀ p ∈ l, p.2 = false := by
  simp [lowestCause]

/-- Where no cause holds, none of the first ones does. -/
theorem lowestCause_filter {l : List (Nat × Bool)} (p : Nat × Bool → Bool) (h : lowestCause l = none) :
    lowestCause (l.filter p) = none :=
  (lowestCause_eq_none_iff _).2 fun x hx => (lowestCause_eq_none_iff l).1 h x (List.mem_of_mem_filter hx)

/-! ## Taking a descriptor (R93, R116) -/

section
variable {s s' : State} {sq key raw n : Nat}

theorem State.dispatch_of_takes {want : Nat → Bool} (h : s.Takes s' sq key raw n) (hwant : want key = true) :
    s.dispatch sq want = s'.checked sq key raw n := by
  obtain ⟨hfree, hfetch, -⟩ := h
  simp only [State.dispatch, hfree, hfetch, hwant, Bool.not_true, Bool.false_eq_true, if_false, if_true]

/-- A descriptor without a cause acts, a LOOP apart. -/
theorem State.checked_of_takes (h : s.Takes s' sq key raw n) (hkey : key ≠ 0x01) :
    s'.checked sq key raw n = s'.actOn sq key raw n 0 := by
  obtain ⟨-, -, hcause⟩ := h
  simp only [State.checked, lowestCause_filter _ hcause, hcause, if_neg hkey]

/-- A LOOP without a cause acts once the scan has found its body. -/
theorem State.checked_loop {u : State} {k after m : Nat} (h : s.Takes s' sq 0x01 raw n)
    (hscan : s'.scanBody sq (db raw 17 1) ((s'.seqOf sq).pt.line + n) = (u, .got k after m)) :
    s'.checked sq 0x01 raw n = u.actOn sq 0x01 raw n after := by
  obtain ⟨-, -, hcause⟩ := h
  simp only [State.checked, lowestCause_filter _ hcause, hcause, if_true, hscan]

theorem perform_dispatch {want : Nat → Bool} (hawake : s.awake = true) (h : s.Takes s' sq key raw n)
    (hkey : key ≠ 0x01) (hwant : want key = true) :
    perform s (fun s => s.dispatch sq want) = .next (s.finish (s'.actOn sq key raw n 0)) := by
  rw [perform_awake hawake, State.dispatch_of_takes h hwant, State.checked_of_takes h hkey]

end

/-! ## Acting (R97, R101, R103) -/

section
variable {s : State} {sq raw n after : Nat}

theorem State.actOn_job : s.actOn sq 0x50 raw n after = s.dispatchJob sq raw n := by
  simp [State.actOn]

theorem State.actOn_engine {key : Nat} (hlow : 0x10 ≤ key) (hjob : key ≠ 0x50) :
    s.actOn sq key raw n after = s.dispatchEngine sq key raw n := by
  simp [State.actOn, hlow, hjob]

variable (h : (s.seqOf sq).MayIndex raw)
include h

/-- An index inside the window and a WAIT that is satisfied keep no control descriptor back. -/
theorem State.not_held_back :
    ((!(s.seqOf sq).skip.contains (s.seqOf sq).nextX && !(s.seqOf sq).ready (waitOf raw))
      || decide ((s.seqOf sq).low + 544 ≤ (s.seqOf sq).nextX)) = false := by
  obtain ⟨hwindow, hwait⟩ := h
  simp only [Nat.not_le.2 hwindow, decide_false, Bool.or_false]
  rcases hwait with hwait | hwait <;> simp only [hwait, Bool.not_true, Bool.false_and, Bool.and_false]

theorem State.actOn_hdr : s.actOn sq 0x00 raw n after = (s.control sq raw).moveOn sq n := by
  simp only [State.actOn, State.not_held_back h, Nat.reduceLeDiff, Bool.false_eq_true, if_false]

theorem State.actOn_token : s.actOn sq 0x05 raw n after = (s.control sq raw).moveOn sq n := by
  simp only [State.actOn, State.not_held_back h, Nat.reduceLeDiff, Bool.false_eq_true, if_false]

theorem State.actOn_end : s.actOn sq 0x06 raw n after =
    ((s.control sq raw).setSeq sq { (s.control sq raw).seqOf sq with ended := true }).wrapUp sq := by
  simp only [State.actOn, State.not_held_back h, Nat.reduceLeDiff, Bool.false_eq_true, if_false]

theorem State.actOn_loop :
    s.actOn sq 0x01 raw n after = (s.control sq raw).goTo sq ((s.seqOf sq).pt.loop raw after) := by
  simp only [State.actOn, State.not_held_back h, Nat.reduceLeDiff, Bool.false_eq_true, if_false]

theorem State.actOn_call : s.actOn sq 0x04 raw n after = s.dispatchCall sq raw n := by
  simp only [State.actOn, State.not_held_back h, Nat.reduceLeDiff, Bool.false_eq_true, if_false]

/-- SETCNT with its value at hand, be it the immediate or the word read. -/
theorem State.actOn_setcnt {u : State} {b : List Byte}
    (hval : (if bit raw 136 = true then s.storeWord sq ((s.seqOf sq).pt.operand 2 raw 0 0).1
      else (s, .ok (leBytes 4 ((s.seqOf sq).pt.operand 2 raw 0 0).1))) = (u, .ok b)) :
    s.actOn sq 0x02 raw n after = (u.control sq raw).goTo sq
      (StreamPt.past { (s.seqOf sq).pt with
        cnt := (s.seqOf sq).pt.cnt.set (bits (db raw 16 1) 0 3) (leNat b) } n) := by
  simp only [State.actOn, State.not_held_back h, hval, Nat.reduceLeDiff, Nat.reduceMul, Bool.false_eq_true, if_false]

/-- BRK in a nest with its word at hand, where its COND needs one. -/
theorem State.actOn_brk {u : State} {b : List Byte} {nest : Nest} (hnest : (s.seqOf sq).pt.nest = some nest)
    (hval : (if db raw 17 1 = 0 then (s, .ok []) else s.storeWord sq ((s.seqOf sq).pt.operand 3 raw 0 0).1) = (u, .ok b)) :
    s.actOn sq 0x03 raw n after = (u.control sq raw).goTo sq
      (if (db raw 17 1 == 0 || (db raw 17 1 == 1 && leNat b != 0) || (db raw 17 1 == 2 && leNat b == 0)) = true
        then (s.seqOf sq).pt.next nest (bits (db raw 16 1) 0 3) else (s.seqOf sq).pt.past n) := by
  simp only [State.actOn, State.not_held_back h, hval, hnest, Nat.reduceLeDiff, Bool.false_eq_true, if_false]
  exact (apply_ite ((u.control sq raw).goTo sq) _ _ _).symm

end

/-! ## Handing over (R93, R109, R110, R117) -/

/-- The call that the sequencer `sq` makes of a CALL descriptor (R110). -/
def Seq.callOf (q : Seq) (sq raw : Nat) : Call :=
  { sq := sq, item := q.item, task := q.task, x := q.nextX, routine := db raw 16 2, algo := db raw 24 4,
    args := (List.range 8).map fun i => (q.pt.operand 4 raw i 0).1, stat := db raw 20 4, sync := bit raw 144, sig := sigOf raw }

/-- The job that the accelerator sequencer `sq` makes of a JOB descriptor of an item (R109). -/
def Seq.jobOf (q : Seq) (it : Item) (sq raw : Nat) : Job :=
  { sq := sq, fn := it.fn, owner := it.owner, tile := db raw 17 1 % 2, item := q.item, task := q.task, x := q.nextX,
    line := q.pt.line, cls := db raw 16 1 - 1, addr := (q.pt.operand 0x50 raw 0 0).1, bytes := db raw 20 4, raw := 0,
    stat := db raw 32 8, wait := waitOf raw, sig := sigOf raw, res := none, tStart := 0 }

section
variable {s : State} {sq raw n : Nat}

theorem State.dispatchCall_of_room (hskip : (s.seqOf sq).skip.contains (s.seqOf sq).nextX = false)
    (hroom : s.sh.callq.length < 1024) : s.dispatchCall sq raw n =
      (({ s.setSeq sq { (s.seqOf sq).index (waitOf raw) (sigOf raw) 0 with
            tok := applyTok (s.seqOf sq).tok (waitOf raw) none, calls := (s.seqOf sq).calls + 1, syncWait := bit raw 144 } with
          sh := { s.sh with callq := s.sh.callq ++ [(s.seqOf sq).callOf sq raw] } } : State).countDisp sq 1).moveOn sq n := by
  simp only [State.dispatchCall, hskip, Bool.false_eq_true, if_false, if_neg hroom.not_ge]
  rfl

theorem State.dispatchCall_of_full (hskip : (s.seqOf sq).skip.contains (s.seqOf sq).nextX = false)
    (hfull : 1024 ≤ s.sh.callq.length) : s.dispatchCall sq raw n = s := by
  simp only [State.dispatchCall, hskip, Bool.false_eq_true, if_false, if_pos hfull]

theorem State.dispatchJob_of_room {it : Item} (hwindow : (s.seqOf sq).nextX < (s.seqOf sq).low + 544)
    (hitem : s.itemOf (s.seqOf sq).item = some it) (hskip : (s.seqOf sq).skip.contains (s.seqOf sq).nextX = false)
    (hroom : ((s.accOf (db raw 17 1 % 2)).queue.filter fun j => j.cls == db raw 16 1 - 1).length < 32) :
    s.dispatchJob sq raw n =
      ({ s.setSeq sq ((s.seqOf sq).index (waitOf raw) (sigOf raw) 0) with
          acc := Tbl.set {} s.acc (db raw 17 1 % 2)
            { s.accOf (db raw 17 1 % 2) with
              queue := (s.accOf (db raw 17 1 % 2)).queue ++ [(s.seqOf sq).jobOf it sq raw] } } : State).moveOn sq n := by
  simp only [State.dispatchJob, hskip, hitem, Bool.false_eq_true, if_false]
  exact if_neg (not_or.2 ⟨hroom.not_ge, hwindow.not_ge⟩)

theorem State.dispatchEngine_of_room {key : Nat}
    (hroom : ∀ c ∈ (s.seqOf sq).copies key raw, (s.fifoOf sq c.1).length < 32)
    (hwindow : (s.seqOf sq).nextX + ((s.seqOf sq).copies key raw).length - 1 < (s.seqOf sq).low + 544) :
    s.dispatchEngine sq key raw n =
      ((((s.seqOf sq).copies key raw).foldl (fun s c => s.place1 sq c) s).countDisp sq
        (count (fun i => decide ((s.seqOf sq).low ≤ (s.seqOf sq).nextX + i)
          && !(s.seqOf sq).skip.contains ((s.seqOf sq).nextX + i)) ((s.seqOf sq).copies key raw).length)).moveOn sq n := by
  have hall : (((s.seqOf sq).copies key raw).all fun c => decide ((s.fifoOf sq c.1).length < 32)) = true := by
    simpa using hroom
  simp only [State.dispatchEngine, hall, decide_eq_false hwindow.not_ge, Bool.not_true, Bool.or_false, Bool.false_eq_true,
    if_false]

end

/-! ## The commands -/

section
variable {s s' : State} (hawake : s.awake = true) {sq : Fin 146} {raw n : Nat}
include hawake

theorem exec_hdr (h : s.Takes s' sq.val 0x00 raw n) :
    exec (.hdr sq) s = .next (s.finish (s'.actOn sq.val 0x00 raw n 0)) :=
  (show exec (.hdr sq) s = execHdr sq s from rfl).trans (perform_dispatch hawake h (by decide) rfl)

theorem exec_token (h : s.Takes s' sq.val 0x05 raw n) :
    exec (.token sq) s = .next (s.finish (s'.actOn sq.val 0x05 raw n 0)) :=
  (show exec (.token sq) s = execToken sq s from rfl).trans (perform_dispatch hawake h (by decide) rfl)

theorem exec_endStream (h : s.Takes s' sq.val 0x06 raw n) :
    exec (.endStream sq) s = .next (s.finish (s'.actOn sq.val 0x06 raw n 0)) :=
  (show exec (.endStream sq) s = execEndStream sq s from rfl).trans (perform_dispatch hawake h (by decide) rfl)

theorem exec_setcnt (h : s.Takes s' sq.val 0x02 raw n) :
    exec (.setcnt sq) s = .next (s.finish (s'.actOn sq.val 0x02 raw n 0)) :=
  (show exec (.setcnt sq) s = execSetcnt sq s from rfl).trans (perform_dispatch hawake h (by decide) rfl)

theorem exec_brk (h : s.Takes s' sq.val 0x03 raw n) :
    exec (.brk sq) s = .next (s.finish (s'.actOn sq.val 0x03 raw n 0)) :=
  (show exec (.brk sq) s = execBrk sq s from rfl).trans (perform_dispatch hawake h (by decide) rfl)

theorem exec_call (h : s.Takes s' sq.val 0x04 raw n) :
    exec (.call sq) s = .next (s.finish (s'.actOn sq.val 0x04 raw n 0)) :=
  (show exec (.call sq) s = execCall sq s from rfl).trans (perform_dispatch hawake h (by decide) rfl)

theorem exec_job {tile : Fin 2} (h : s.Takes s' (144 + tile.val) 0x50 raw n) :
    exec (.job tile) s = .next (s.finish (s'.actOn (144 + tile.val) 0x50 raw n 0)) :=
  (show exec (.job tile) s = execJob tile s from rfl).trans (perform_dispatch hawake h (by decide) rfl)

theorem exec_descriptorDispatch {key : Nat} (h : s.Takes s' sq.val key raw n) (hkey : key ≠ 0x01) :
    exec (.descriptorDispatch sq) s = .next (s.finish (s'.actOn sq.val key raw n 0)) :=
  (show exec (.descriptorDispatch sq) s = execDescriptorDispatch sq s from rfl).trans (perform_dispatch hawake h hkey rfl)

theorem exec_loop {u : State} {k after m : Nat} (h : s.Takes s' sq.val 0x01 raw n)
    (hscan : s'.scanBody sq.val (db raw 17 1) ((s'.seqOf sq.val).pt.line + n) = (u, .got k after m)) :
    exec (.loop sq) s = .next (s.finish (u.actOn sq.val 0x01 raw n after)) := by
  refine (show exec (.loop sq) s = execLoop sq s from rfl).trans ((perform_awake hawake).trans ?_)
  rw [State.dispatch_of_takes h rfl, State.checked_loop h hscan]

end

/-- Settles O13: each command is its descriptor acting, by the rules above. -/
theorem sequencerDescriptorsAct : Obligations.SequencerDescriptorsAct := by
  refine ⟨fun s s' sq key raw n hawake h hmay => ⟨?_, ?_, ?_⟩,
    fun s s' sq key raw n hawake h => ⟨?_, fun hmay => ⟨?_, ?_, ?_⟩⟩⟩
  · rintro rfl
    rw [exec_hdr hawake h, State.actOn_hdr hmay]
  · rintro rfl
    rw [exec_token hawake h, State.actOn_token hmay]
  · rintro rfl
    rw [exec_endStream hawake h, State.actOn_end hmay]
  · rintro rfl u k after m hscan hmay
    rw [exec_loop hawake h hscan, State.actOn_loop hmay]
  · rintro rfl himm
    rw [exec_setcnt hawake h, State.actOn_setcnt hmay (if_neg (by simp [himm]))]
  · rintro rfl hword u b hread
    rw [exec_setcnt hawake h, State.actOn_setcnt hmay ((if_pos hword).trans hread)]
  · rintro rfl nest hnest
    rw [exec_brk hawake h]
    refine ⟨fun hcond => ?_, fun hcond u b hread => ?_, fun hcond u b hread => ?_⟩
    · rw [State.actOn_brk hmay hnest (if_pos hcond)]
      simp [hcond]
    · rw [State.actOn_brk hmay hnest ((if_neg (by omega)).trans hread)]
      simp [hcond]
    · rw [State.actOn_brk hmay hnest ((if_neg (by omega)).trans hread)]
      simp [hcond]

/-- Settles O14: each command hands its descriptor over, by the rules above. -/
theorem handedOverDescriptors : Obligations.HandedOverDescriptors := by
  intro s s' key raw n hawake
  refine ⟨?_, ?_, ?_⟩
  · rintro sq h rfl hmay hskip
    rw [exec_call hawake h, State.actOn_call hmay]
    refine ⟨fun hroom => ?_, fun hfull => ?_⟩
    · rw [State.dispatchCall_of_room hskip hroom]
      rfl
    · rw [State.dispatchCall_of_full hskip hfull]
  · rintro tile it h rfl hwindow hitem hskip hroom
    rw [exec_job hawake h, State.actOn_job, State.dispatchJob_of_room hwindow hitem hskip hroom]
    rfl
  · intro sq h hengine hjob hroom hwindow
    rw [exec_descriptorDispatch hawake h (by omega), State.actOn_engine hengine hjob,
      State.dispatchEngine_of_room hroom hwindow]

end Sys2Proof.Machine
end

section
/-! SUPPORT. How the head of an engine's FIFO starts and completes, what a token reads after a WAIT and a SIG, and the statement
about them. -/

namespace Sys2Proof.Machine

/-! ## Tokens (R97) -/

theorem nth_set_self {α : Type} (d : α) {l : List α} {i : Nat} (v : α) (h : i < l.length) : nth d (l.set i v) i = v := by
  simp [nth, h]

theorem nth_set_other {α : Type} (d : α) (l : List α) {i j : Nat} (v : α) (h : j ≠ i) :
    nth d (l.set i v) j = nth d l j := by
  simp [nth, h.symm]

theorem applyTok_wait (l : List Int) (t : Nat) : applyTok l (some t) none = l.set t (nth 0 l t - 1) := rfl

theorem applyTok_sig (l : List Int) (t : Nat) : applyTok l none (some t) = l.set t (min 65535 (nth 0 l t + 1)) := rfl

/-! ## The head of a FIFO (R97) -/

section
variable {s : State} {k : Nat} {d : XDesc} {rest : List XDesc}

theorem State.startHead_of_ready {e : Engine} (hfifo : s.fifoOf k e = d :: rest) (hnew : d.started = false)
    (hready : (s.seqOf k).ready (waitOf d.raw) = true) : s.startHead k e =
      ((s.setSeq k { s.seqOf k with tok := applyTok (s.seqOf k).tok (waitOf d.raw) none }).setFifo k e
        ({ d with started := true } :: rest), some { d with started := true }) := by
  simp only [State.startHead, hfifo, hnew, hready, Bool.false_eq_true, if_false, if_true]

theorem State.completeHead_mover {m : Fin 4} (hfifo : s.fifoOf k (.mover m) = d :: rest) (hran : d.ran = true)
    (hacked : s.acked (k * 8 + m.val) d.x = true) : s.completeHead k (.mover m) =
      ((s.setFifo k (.mover m) rest).forget (k * 8 + m.val)).doneX k d.x true := by
  simp only [State.completeHead, engineOrg, hfifo, hran, hacked, Bool.and_true, if_true]

theorem State.completeHead_unit {u : Fin 12} (hfin : (s.cuOf k u.val).fin = d :: rest) : s.completeHead k (.unit u) =
    (s.setCu k u.val { s.cuOf k u.val with fin := rest }).doneX (if d.away then 300 + k else k) d.x true := by
  simp only [State.completeHead, hfin]

end

/-! ## The commands -/

section
variable {s : State} (h : s.awake = true)
include h

theorem exec_tokenWaitSatisfied {sq : Fin 146} (hcl : sq.val < 144) (eng : Engine) :
    exec (.tokenWaitSatisfied sq eng) s = .next (s.finish (s.startHead (s.served sq.val eng) eng).1) :=
  (show exec (.tokenWaitSatisfied sq eng) s = execTokenWaitSatisfied sq eng s from rfl).trans
    ((perform_awake h).trans (by rw [if_pos hcl]))

theorem exec_descriptorComplete {sq : Fin 146} (hcl : sq.val < 144) (eng : Engine) :
    exec (.descriptorComplete sq eng) s = .next (s.finish (s.completeHead (s.served sq.val eng) eng)) :=
  (show exec (.descriptorComplete sq eng) s = execDescriptorComplete sq eng s from rfl).trans
    ((perform_awake h).trans (by rw [if_pos hcl]))

/-- A stream that was saved is walked again, and its save is used up (R117). -/
theorem exec_streamResume {cl : Fin 144} {i t : Nat} {x : Task} {v : StreamSave}
    (hplaced : (s.clOf cl.val).placed = some (i, t)) (htask : s.taskOf i t = some x) (hsave : x.save = some v) :
    exec (.streamResume cl) s = .next (s.finish ((s.setTask i t { x with save := none }).setSeq cl.val
      (((s.setTask i t { x with save := none }).seqOf cl.val).resume v))) := by
  refine (show exec (.streamResume cl) s = execStreamResume cl s from rfl).trans ((perform_awake h).trans ?_)
  simp only [hplaced, htask, hsave]

end

/-- Settles O15: the head of a FIFO starts and completes by the rules above, and a resumed stream is walked as saved. -/
theorem tokensAndCompletion : Obligations.TokensAndCompletion := by
  refine ⟨?_, ?_, ?_, ?_, ?_⟩
  · intro s sq eng d rest h hcl hfifo hnew hready
    rw [exec_tokenWaitSatisfied h hcl, State.startHead_of_ready hfifo hnew hready]
  · intro s sq m d rest h hcl hfifo hran hacked
    rw [exec_descriptorComplete h hcl, State.completeHead_mover hfifo hran hacked]
  · intro s sq u d rest h hcl hfin
    rw [exec_descriptorComplete h hcl, State.completeHead_unit hfin]
  · intro s cl i t x v h hplaced htask hsave
    exact exec_streamResume h hplaced htask hsave
  · intro l t ht
    rw [applyTok_wait, applyTok_sig]
    exact ⟨nth_set_self 0 _ ht, nth_set_self 0 _ ht, fun u hu => ⟨nth_set_other 0 l _ hu, nth_set_other 0 l _ hu⟩⟩

end Sys2Proof.Machine
end

section
/-! SUPPORT. What the routines of the manual's one-sentence rows plan, how a routine runs on its call thread, and the
statements about them. -/

namespace Sys2Proof.Machine

/-! ## The pieces of a write -/

/-- With fuel for all of a list, its pieces make it up. -/
theorem flatten_pieces {α : Type} (n : Nat) : ∀ (fuel : Nat) (l : List α), l.length ≤ n * fuel →
    (pieces n fuel l).flatten = l
  | 0, l, h => by simpa [pieces, eq_comm] using h
  | _ + 1, [], _ => rfl
  | fuel + 1, x :: l, h => by
    have hdrop : ((x :: l).drop n).length ≤ n * fuel := by
      rw [List.length_drop]
      rw [Nat.mul_succ] at h
      omega
    change ((x :: l).take n :: pieces n fuel ((x :: l).drop n)).flatten = x :: l
    rw [List.flatten_cons, flatten_pieces n fuel _ hdrop, List.take_append_drop]

/-- The pieces of a write hold its bytes in order. -/
theorem writePieces_bytes (a : Nat) (b : List Byte) : (writePieces a b).flatMap (·.2) = b := by
  have hfuel : b.length ≤ 16384 * (b.length / 16384 + 1) := by omega
  rw [writePieces, List.flatMap_map, List.flatMap_def]
  exact (congrArg List.flatten (List.zipIdx_map_fst 0 _)).trans (flatten_pieces 16384 _ b hfuel)

theorem writePieces_addr {a k : Nat} {b : List Byte} {p : Nat × List Byte} (h : (writePieces a b)[k]? = some p) :
    p.1 = (a + 16384 * k) % 2 ^ 64 := by
  rw [writePieces, List.getElem?_map, List.getElem?_zipIdx] at h
  simp only [Option.map_eq_some_iff] at h
  obtain ⟨_, ⟨_, _, rfl⟩, rfl⟩ := h
  rw [Nat.zero_add]

/-! ## Plans (R111) -/

/-- The bytes that FILL writes: at every address the byte of the pattern that falls there. -/
def Call.fillBytes (c : Call) : List Byte :=
  (List.range (c.arg 1)).map fun i => BitVec.ofNat 8 (bits (c.arg 2) (8 * ((c.arg 0 + i) % 8)) 8)

theorem Call.length_fillBytes (c : Call) : c.fillBytes.length = c.arg 1 := by
  simp [Call.fillBytes]

theorem Call.nth_fillBytes (c : Call) {i : Nat} (h : i < c.arg 1) :
    nth 0 c.fillBytes i = BitVec.ofNat 8 (bits (c.arg 2) (8 * ((c.arg 0 + i) % 8)) 8) := by
  simp [Call.fillBytes, nth, h]

section
variable (s : State) (w : Who) (c : Call)

theorem planFill_eq : planFill s w c = (s, .ready (writePieces (c.arg 0) c.fillBytes) 0 0) := rfl

theorem planTime_of_gt (h : 8 < c.arg 0) : planTime s w c = (s, .ready [] 1 0) := if_pos h

theorem planTime_of_le (h : c.arg 0 ≤ 8) :
    planTime s w c = (s, .ready [] 0 (if c.arg 0 = 8 then s.time.ltcNs else s.t64 (c.arg 0))) :=
  if_neg h.not_gt

theorem planSem_of_unaligned (h : c.arg 0 % 8 ≠ 0) : planSem s w c = (s, .fail stAccess) := if_pos h

end

/-- Settles O23: the pieces of FILL hold its bytes in order, and the other plans are those of the rules above. -/
theorem routinePlans : Obligations.RoutinePlans := by
  intro s w c
  refine ⟨⟨_, planFill_eq s w c, ?_, fun i hi => ?_, fun k p => writePieces_addr⟩, planTime_of_gt s w c, fun h => ?_,
    fun h => ?_, planSem_of_unaligned s w c, rfl⟩
  · rw [writePieces_bytes, c.length_fillBytes]
  · rw [writePieces_bytes, c.nth_fillBytes hi]
  · rw [planTime_of_le s w c h.le, if_neg h.ne]
  · rw [planTime_of_le s w c h.le, if_pos h]

/-! ## A routine on its thread (R111, R113) -/

section
variable {s t : State} {th rt : Nat} {f : State → Who → Call → State × Plan}

theorem State.runCall_of_routine (h : s.Routine t th rt f) : s.runCall th rt f = t := by
  obtain ⟨c, u, v, ws, st, val, b, hcall, hroutine, hresult, hplan, hon, hends, hready, hwrites, rfl⟩ := h
  simp only [State.runCall, hcall, hroutine, hresult, hplan, hon, hends, hready, hwrites, ne_eq, not_true, Option.isSome_none,
    Bool.not_true, Bool.false_eq_true, or_self, if_false]

theorem perform_routine (hawake : s.awake = true) (h : s.Routine t th rt f) :
    perform s (fun s => s.runCall th rt f) = .next (s.finish t) := by
  rw [perform_awake hawake, State.runCall_of_routine h]

end

/-- Settles O21: each row runs its call by the rule above. -/
theorem residentRoutinesRun : Obligations.ResidentRoutinesRun := by
  intro s t th words blocks data hawake
  refine ⟨?_, ?_, ?_, ?_, ?_, ?_, ?_, ?_, ?_, ?_, ?_, ?_, ?_, ?_⟩
  all_goals exact perform_routine hawake

end Sys2Proof.Machine
end

section
/-! SUPPORT. What the queue operations do, case by case, and the statement about them. -/

namespace Sys2Proof.Machine

/-! ## Queue registers (R119, R120, R122) -/

section
variable {s : State} {v q : Nat}

theorem State.writeQTail_inside {tail : Word} (hst : (s.fnOf v).st ≠ .striking) (hopen : s.shut v = false)
    (hring : (tail - s.rg (qreg v q 0x18)).toNat ≤ s.ringSize v q) :
    s.writeQTail v q tail = s.setRg (qreg v q 0x14) tail := by
  rw [State.writeQTail, if_neg (by simp [hst, hopen]), if_neg hring.not_gt]

theorem State.writeQTail_overrun {tail : Word} (hst : (s.fnOf v).st ≠ .striking) (hopen : s.shut v = false)
    (hring : s.ringSize v q < (tail - s.rg (qreg v q 0x18)).toNat) :
    s.writeQTail v q tail = s.setRg (qreg v q 4) (setFld (s.rg (qreg v q 4)) 1 1 1) := by
  rw [State.writeQTail, if_neg (by simp [hst, hopen]), if_pos hring]

theorem State.writeQCtrl_same_wdog {val : Word} (h : fld (s.rg (qreg v q 0)) 8 8 = fld val 8 8) :
    s.writeQCtrl v q val = s.storeAt (qreg v q 0) val := if_pos h

theorem State.writeQCtrl_new_wdog {val : Word} (h : fld (s.rg (qreg v q 0)) 8 8 ≠ fld val 8 8) :
    s.writeQCtrl v q val = (s.storeAt (qreg v q 0) val).newQStretch v q := if_neg h

/-- The first expiry of a stretch of a queue with work. -/
theorem State.queueStuck_fires {t : State} (hwdog : fld (s.rg (qreg v q 0)) 8 8 ≠ 0) (hdepth : s.qDepth v q ≠ 0)
    (hfirst : Tbl.get false s.work.fired (v * 16 + q) = false)
    (ht : t = { s with work := { s.work with fired := Tbl.set false s.work.fired (v * 16 + q) true } }) :
    s.queueStuck v q = (t.setRg (qreg v q 4) (setFld (t.rg (qreg v q 4)) 2 1 1)).raise (fnPage v) 1
      (BitVec.ofNat 32 (v + 256 * q)) := by
  subst ht
  exact if_neg (by simp [hwdog, hdepth, hfirst])

/-! ## Acceptance (R119, R131) -/

theorem State.acceptEntry_of_read {t : State} {b : List Byte} (hmay : s.mayAccept v q = true) (hbook : s.pbFree ≠ 0)
    (hread : s.readEntry v q = (t, .ok b)) : s.acceptEntry v q true = t.takeEntry v q (leNat b) := by
  simp only [State.acceptEntry, hmay, hbook, hread, Bool.not_true, Bool.false_eq_true, if_false, if_true]

/-! ## Completions (R121, R151) -/

section
variable {c : Compl} {rest : List Compl} (hheld : s.heldOf v q = c :: rest)
include hheld

theorem State.writeCompletion_writes {t : State} (hruns : s.smRuns = true) (hst : (s.fnOf v).st ≠ .striking)
    (hlowest : (s.work.items.any fun p => p.2.fn == v && p.2.queue == q && decide (p.2.seqNo < c.seqNo)) = false)
    (hgen : c.gen = (s.fnOf v).gen.toNat) (hroom : s.cqFull v q = false) (hwrite : s.ringWrite v q (c.bytes c.gen) = some t) :
    s.writeCompletion v q = (t.dropItem v q c.seqNo).newQStretch v q := by
  rw [State.writeCompletion, hheld]
  simp only [hruns, hst, hlowest, hroom, hwrite, ← hgen, Bool.not_true, decide_false, Bool.or_self, Bool.false_eq_true, ne_eq,
    not_true, if_false]

/-- While an item before it is not complete, the completion stays held. -/
theorem State.writeCompletion_blocked
    (hearlier : (s.work.items.any fun p => p.2.fn == v && p.2.queue == q && decide (p.2.seqNo < c.seqNo)) = true) :
    s.writeCompletion v q = s := by
  rw [State.writeCompletion, hheld]
  simp only [hearlier, Bool.or_true, if_true]

/-- While the ring is full, the completion stays held. -/
theorem State.writeCompletion_full (hgen : c.gen = (s.fnOf v).gen.toNat) (hfull : s.cqFull v q = true) :
    s.writeCompletion v q = s := by
  rw [State.writeCompletion, hheld]
  simp only [hgen, hfull, ne_eq, not_true, if_false, if_true, ite_self]

end

theorem State.writeReport_writes {x : TailCopy} {t : State} {c : Compl} (hfirst : firstReport s.work.reports = some x)
    (hruns : s.smRuns = true) (henabled : fld (s.rg (qreg 0 0 0)) 0 1 = 1) (hroom : s.cqFull 0 0 = false)
    (hc : c = { seqNo := x.seqNo, tag := x.tag, status := stReturned, cause := 0, fn := x.fn, queue := x.queue, gen := x.gen,
                task := 0xFFFFFFFF, tDone := s.tsNow 4, flags := 0x10 })
    (hwrite : s.ringWrite 0 0 (c.bytes x.gen) = some t) :
    s.writeReport = { t with work := { t.work with reports := dropFirst x t.work.reports } } := by
  subst hc
  rw [State.writeReport, hfirst]
  simp [hruns, henabled, hroom, hwrite]

end

/-! ## The commands -/

section
variable {s : State} (h : s.awake = true) (fn : Fin 256) (q : Fin 16)
include h

theorem exec_queueDoorbell (tail : Word) :
    exec (.queueDoorbell fn q tail) s = .next (s.finish (s.writeQTail fn.val q.val tail)) :=
  (show exec (.queueDoorbell fn q tail) s = execQueueDoorbell fn q tail s from rfl).trans (perform_awake h)

theorem exec_queueEnableWrite (val : Word) :
    exec (.queueEnableWrite fn q val) s = .next (s.finish (s.writeQCtrl fn.val q.val val)) :=
  (show exec (.queueEnableWrite fn q val) s = execQueueEnableWrite fn q val s from rfl).trans (perform_awake h)

theorem exec_cqHeadWrite (val : Word) :
    exec (.cqHeadWrite fn q val) s = .next (s.finish (s.setRg (qreg fn.val q.val 0x30) val)) :=
  (show exec (.cqHeadWrite fn q val) s = execCqHeadWrite fn q val s from rfl).trans (perform_awake h)

theorem exec_queueWatchdogExpire :
    exec (.queueWatchdogExpire fn q) s = .next (s.finish (s.queueStuck fn.val q.val)) :=
  (show exec (.queueWatchdogExpire fn q) s = execQueueWatchdogExpire fn q s from rfl).trans (perform_awake h)

theorem exec_entryAccept (tailOk : Bool) :
    exec (.entryAccept fn q tailOk) s = .next (s.finish (s.acceptEntry fn.val q.val tailOk)) :=
  (show exec (.entryAccept fn q tailOk) s = execEntryAccept fn q tailOk s from rfl).trans (perform_awake h)

theorem exec_completionWrite :
    exec (.completionWrite fn q) s = .next (s.finish (s.writeCompletion fn.val q.val)) :=
  (show exec (.completionWrite fn q) s = execCompletionWrite fn q s from rfl).trans (perform_awake h)

theorem exec_returnedReportWrite : exec .returnedReportWrite s = .next (s.finish s.writeReport) :=
  (show exec .returnedReportWrite s = execReturnedReportWrite s from rfl).trans (perform_awake h)

end

/-- Settles O24: each command by the rules above; a completion that stays held leaves a settled state as it is. -/
theorem queueCommands : Obligations.QueueCommands := by
  refine ⟨fun s fn q val h => ⟨fun hst hopen => ⟨fun hring => ?_, fun hring => ?_⟩, fun hwdog => ?_, fun hwdog => ?_,
    exec_cqHeadWrite h fn q val, ?_, ?_, ?_, ?_⟩, ?_⟩
  · rw [exec_queueDoorbell h, State.writeQTail_inside hst hopen hring]
  · rw [exec_queueDoorbell h, State.writeQTail_overrun hst hopen hring]
  · rw [exec_queueEnableWrite h, State.writeQCtrl_same_wdog hwdog]
  · rw [exec_queueEnableWrite h, State.writeQCtrl_new_wdog hwdog]
  · intro hwdog hdepth hfirst t ht
    rw [exec_queueWatchdogExpire h, State.queueStuck_fires hwdog hdepth hfirst ht]
  · intro t b hmay hbook hread
    rw [exec_entryAccept h, State.acceptEntry_of_read hmay hbook hread]
  · intro c rest t hheld hruns hst hlowest hgen hroom hwrite
    rw [exec_completionWrite h, State.writeCompletion_writes hheld hruns hst hlowest hgen hroom hwrite]
  · intro x t hfirst hruns henabled hroom c hc hwrite
    rw [exec_returnedReportWrite h, State.writeReport_writes hfirst hruns henabled hroom hc hwrite]
  · intro s fn q c rest h hset hheld hgen hkept
    rw [exec_completionWrite h]
    rcases hkept with hfull | ⟨p, hp, hfn, hqueue, hlt⟩
    · rw [State.writeCompletion_full hheld hgen (decide_eq_true hfull), finish_self s hset]
    · have hearlier : (s.work.items.any fun p =>
          p.2.fn == fn.val && p.2.queue == q.val && decide (p.2.seqNo < c.seqNo)) = true :=
        List.any_eq_true.2 ⟨p, hp, by simp [hfn, hqueue, hlt]⟩
      rw [State.writeCompletion_blocked hheld hearlier, finish_self s hset]

end Sys2Proof.Machine
end

section
/-! SUPPORT. How a task is placed, starts and ends, and the statement about it. -/

namespace Sys2Proof.Machine

/-! ## Placement, first dispatch and completion (R134, R138) -/

section
variable {s : State} {i n : Nat} {x : Task}

/-- A READY task that comes first for a free place goes there, once its header is read. -/
theorem State.placeTask_places {it : Item} {p : Nat × Nat} {t : State}
    {h : List (Option (Bool × Nat × Nat × Nat × Nat))} (hit : s.itemOf i = some it) (hx : s.taskOf i n = some x)
    (hmay : s.placeable it x = true) (hpick : s.pick it i n x = some p) (hfirst : s.isFirst it x n p = true)
    (hread : s.readHdrs it.fn [x] = (t, some h)) :
    s.placeTask i n = (t.forget 7000).placeAt i n it x p (nth none h 0) := by
  simp only [State.placeTask, hit, hx, hmay, hpick, hfirst, hread, Bool.not_true, Bool.false_eq_true, if_false]

section
variable {l k : Nat} (hx : s.taskOf i n = some x) (hst : x.st = .cued) (hruns : s.smRuns = true)
  (hplace : x.place = some (l, k)) (hsave : x.save = none)
include hx hst hruns hplace hsave

/-- A stream without saved state starts on its LIT cluster once no run-ahead read is outstanding; a preemption that waits there
then lands. -/
theorem State.firstDispatch_cluster {t q u : State} (hty : x.ty = 1) (hlit : (s.clOf k).pwr = .lit)
    (hahead : s.aheadOn i n k aheadFuel = (t, false)) (hq : q = t.setSeq k { t.seqOf k with running := true })
    (hu : u = (q.setTask i n { x with st := .playing, save := none, ahead := 0, aheadAt := 0,
                                      tStart := q.tsNow (((q.itemOf i).map (·.home)).getD 0) }).dispatch k fun _ => true) :
    s.firstDispatch i n = if (List.range 12).any fun v => (u.cuOf k v).preempt.isSome then u.landNow k else u := by
  subst hu hq
  simp [State.firstDispatch, hx, hst, hruns, hplace, hsave, hty, hlit, hahead]

/-- The stream of an accelerator task starts on its tile's sequencer. -/
theorem State.firstDispatch_accelerator {it : Item} {q : State} (hit : s.itemOf i = some it) (hty : x.ty = 3)
    (hq : q = s.setSeq (144 + l) { s.seqOf (144 + l) with running := true }) :
    s.firstDispatch i n = (q.setTask i n { x with st := .playing, save := none, ahead := 0, aheadAt := 0,
                                                  tStart := q.tsNow it.home }).dispatch (144 + l) fun _ => true := by
  have hhome : ((q.itemOf i).map (·.home)).getD 0 = it.home := by
    rw [hq, show (s.setSeq (144 + l) _).itemOf i = s.itemOf i from rfl, hit]
    rfl
  subst hq
  simp [State.firstDispatch, hx, hst, hruns, hplace, hsave, hty, hhome]

end

section
variable {pbOk : Bool} {st cause line : Nat}
  (hend : (s.work.ends.find? fun e => e.1 == i && e.2.1 == n) = some (i, n, st, cause, line))
include hend

/-- An OK end is taken once its playbill is written. -/
theorem State.completeTask_ok {t : State} (hok : st = 0) (hbill : s.writePlaybill i n pbOk = (t, true)) :
    s.completeTask i n pbOk =
      ({ t with work := { t.work with ends := t.work.ends.filter fun e => !(e.1 == i && e.2.1 == n) } } : State).finishTask
        i n 0 cause line := by
  subst hok
  simp only [State.completeTask, hend, hbill, if_true, Bool.not_true, Bool.false_eq_true, if_false]

/-- While the playbill is not written, an OK end waits. -/
theorem State.completeTask_waits {t : State} (hok : st = 0) (hbill : s.writePlaybill i n pbOk = (t, false)) :
    s.completeTask i n pbOk = t := by
  simp only [State.completeTask, hend, hok, hbill, if_true, Bool.not_false]

/-- Any other end has no playbill to wait for. -/
theorem State.completeTask_failed (hfail : st ≠ 0) :
    s.completeTask i n pbOk =
      ({ s with work := { s.work with ends := s.work.ends.filter fun e => !(e.1 == i && e.2.1 == n) } } : State).finishTask
        i n st cause line := by
  simp only [State.completeTask, hend, hfail, if_false, Bool.not_true, Bool.false_eq_true]

end

end

/-! ## The commands -/

section
variable {s : State} (h : s.awake = true) (i : Nat) (task : Fin 4096)
include h

theorem exec_taskPlace : exec (.taskPlace i task) s = .next (s.finish (s.placeTask i task.val)) :=
  (show exec (.taskPlace i task) s = execTaskPlace i task s from rfl).trans (perform_awake h)

theorem exec_taskFirstDispatch : exec (.taskFirstDispatch i task) s = .next (s.finish (s.firstDispatch i task.val)) :=
  (show exec (.taskFirstDispatch i task) s = execTaskFirstDispatch i task s from rfl).trans (perform_awake h)

theorem exec_taskComplete (pbOk : Bool) :
    exec (.taskComplete i task pbOk) s = .next (s.finish (s.completeTask i task.val pbOk)) :=
  (show exec (.taskComplete i task pbOk) s = execTaskComplete i task pbOk s from rfl).trans (perform_awake h)

end

/-- Settles O25: each command by the rules above. -/
theorem tasksPlayAndEnd : Obligations.TasksPlayAndEnd := by
  intro s i task h
  refine ⟨?_, ?_, ?_⟩
  · intro it x p t hdrs hit hx hmay hpick hfirst hread
    rw [exec_taskPlace h, State.placeTask_places hit hx hmay hpick hfirst hread]
  · intro x it l k hx hit hst hruns hplace hsave
    constructor
    · intro t u hty hlit hahead hu
      rw [exec_taskFirstDispatch h, State.firstDispatch_cluster hx hst hruns hplace hsave hty hlit hahead rfl hu]
    · intro hty
      rw [exec_taskFirstDispatch h, State.firstDispatch_accelerator hx hst hruns hplace hsave hit hty rfl]
  · intro pbOk st cause line t hend
    refine ⟨fun hok hbill => ?_, fun hok hbill => ?_, fun hfail => ?_⟩
    · rw [exec_taskComplete h, State.completeTask_ok hend hok hbill]
    · rw [exec_taskComplete h, State.completeTask_waits hend hok hbill]
    · rw [exec_taskComplete h, State.completeTask_failed hend hfail]

end Sys2Proof.Machine
end

section
/-! SUPPORT. What fields of a register read after a field is set, what a write of SM_CTRL stores on each STAGE page, and the
statement about SM_CTRL, which fails where a reserved bit is stored. -/

namespace Sys2Proof.Machine

/-! ## Fields of a register -/

theorem testBit_fld (r : Word) (lo w j : Nat) : (fld r lo w).testBit j = (decide (j < w) && r.getLsbD (lo + j)) := by
  rw [fld, bits, Nat.testBit_mod_two_pow, Nat.testBit_div_two_pow, BitVec.testBit_toNat, Nat.add_comm]

/-- Setting a field changes the bits of the field alone. -/
theorem getLsbD_setFld (r : Word) (lo w x : Nat) {b : Nat} (hb : b < 32) :
    (setFld r lo w x).getLsbD b = if lo ≤ b ∧ b < lo + w then x.testBit (b - lo) else r.getLsbD b := by
  simp only [setFld, BitVec.getLsbD_or, BitVec.getLsbD_and, BitVec.getLsbD_not, BitVec.getLsbD_ofNat,
    Nat.testBit_mul_two_pow, Nat.testBit_two_pow_sub_one]
  by_cases hlo : lo ≤ b
  · by_cases hw : b < lo + w
    · simp [hb, hlo, hw, show b - lo < w by omega]
    · simp [hb, hlo, hw, show ¬b - lo < w by omega]
  · simp [hb, hlo]

/-- A field that is set reads back. -/
theorem fld_setFld_self (r : Word) {lo w x : Nat} (hx : x < 2 ^ w) (h : lo + w ≤ 32) : fld (setFld r lo w x) lo w = x := by
  refine Nat.eq_of_testBit_eq fun j => ?_
  rw [testBit_fld]
  by_cases hj : j < w
  · rw [getLsbD_setFld r lo w x (by omega), if_pos (by omega), Nat.add_sub_cancel_left]
    simp [hj]
  · rw [Nat.testBit_lt_two_pow (hx.trans_le (Nat.pow_le_pow_right (by decide) (Nat.le_of_not_lt hj)))]
    simp [hj]

/-- A field apart from the one that is set keeps its value. -/
theorem fld_setFld_other (r : Word) {lo w lo' w' : Nat} (x : Nat) (h : lo' + w' ≤ 32)
    (hd : lo' + w' ≤ lo ∨ lo + w ≤ lo') :
    fld (setFld r lo w x) lo' w' = fld r lo' w' := by
  refine Nat.eq_of_testBit_eq fun j => ?_
  rw [testBit_fld, testBit_fld]
  by_cases hj : j < w'
  · rw [getLsbD_setFld r lo w x (by omega), if_neg (by omega)]
  · simp [hj]

theorem fld_lt (r : Word) (lo w : Nat) : fld r lo w < 2 ^ w := Nat.mod_lt _ (Nat.two_pow_pos w)

/-! ## The registers SM_CTRL (R153) -/

/-- The address of SM_CTRL of a STAGE page. -/
def smCtrlAddr (i : Nat) : Nat := pageAddr .stage i + 0x040

/-- SM_CTRL by the access of its bits: RUNAHEAD_EN, ATTEMPT_MAX and TS_TB are written, the others are reserved. -/
def smCtrlSpec : RegSpec := ⟨0x040, 1, 4, 0x7F1, 0, 0x31, .none⟩

/-- The value that a write of SM_CTRL stores: an ATTEMPT_MAX of 0 is ignored. -/
def State.smCtrlValue (s : State) (v : Word) : Word :=
  if fld v 4 4 = 0 then setFld v 4 4 (fld (s.rg (smCtrlAddr 0)) 4 4) else v

/-- A value stored in SM_CTRL of the first `n` STAGE pages. -/
def State.storeSmCtrls (s : State) (v : Word) (n : Nat) : State :=
  (List.range n).foldl (fun s i => s.storeAt (smCtrlAddr i) v) s

theorem regAt_smCtrl (i : Fin 6) : regAt (smCtrlAddr i.val) = some smCtrlSpec := by
  revert i
  decide

theorem smCtrlAddr_inj {i j : Nat} : smCtrlAddr i = smCtrlAddr j ↔ i = j := by
  simp only [smCtrlAddr, pageAddr]
  omega

/-- Reserved bits of SM_CTRL stay as they are stored (R8); the others take the value written. -/
theorem smCtrlSpec_store (old v : Word) : smCtrlSpec.store old v = old &&& ~~~0x7F1 ||| v &&& 0x7F1 := by
  rw [RegSpec.store, show smCtrlSpec.w1c = 0#32 from rfl, BitVec.zero_and, BitVec.not_zero, BitVec.and_allOnes]
  rfl

/-- The bits of SM_CTRL that a write stores are its three fields. -/
theorem and_smCtrl_fields (v : Word) : v &&& 0x7F1 = BitVec.ofNat 32 (fld v 0 1 + 16 * fld v 4 4 + 256 * fld v 8 3) := by
  have hsum : fld v 0 1 + 16 * fld v 4 4 + 256 * fld v 8 3 = 2 ^ 4 * fld v 4 7 + fld v 0 1 := by
    simp only [fld, bits]
    omega
  refine BitVec.eq_of_getLsbD_eq fun b hb => ?_
  rw [hsum, BitVec.getLsbD_ofNat, Nat.testBit_two_pow_mul_add _ ((fld_lt v 0 1).trans (by decide)), BitVec.getLsbD_and,
    testBit_fld, testBit_fld, show (0x7F1 : Word) = BitVec.ofNat 32 (2 ^ 4 * (2 ^ 7 - 1) + (2 ^ 1 - 1)) from rfl,
    BitVec.getLsbD_ofNat, Nat.testBit_two_pow_mul_add _ (by decide), Nat.testBit_two_pow_sub_one,
    Nat.testBit_two_pow_sub_one]
  by_cases hlo : b < 4
  · simp [hlo, hb, Bool.and_comm]
  · simp [hlo, hb, Bool.and_comm, show 4 + (b - 4) = b by omega]

/-- The fields of the value stored. -/
theorem State.smCtrlValue_fields (s : State) (v : Word) :
    fld (s.smCtrlValue v) 0 1 = fld v 0 1
    ∧ fld (s.smCtrlValue v) 4 4 = (if fld v 4 4 = 0 then fld (s.rg (smCtrlAddr 0)) 4 4 else fld v 4 4)
    ∧ fld (s.smCtrlValue v) 8 3 = fld v 8 3 := by
  unfold State.smCtrlValue
  split
  · exact ⟨fld_setFld_other v _ (by decide) (by decide), fld_setFld_self v (fld_lt _ 4 4) (by decide),
      fld_setFld_other v _ (by decide) (by decide)⟩
  · exact ⟨rfl, rfl, rfl⟩

/-! ## Every STAGE page takes the value -/

theorem State.writeSmCtrl_eq (s : State) (v : Word) : s.writeSmCtrl v = s.storeSmCtrls (s.smCtrlValue v) 6 := by
  simp only [State.writeSmCtrl, State.storeSmCtrls, State.smCtrlValue, State.pr, smCtrlAddr]

theorem State.storeSmCtrls_succ (s : State) (v : Word) (n : Nat) :
    s.storeSmCtrls v (n + 1) = (s.storeSmCtrls v n).storeAt (smCtrlAddr n) v := by
  simp only [State.storeSmCtrls, List.range_succ, List.foldl_append, List.foldl_cons, List.foldl_nil]

theorem State.storeAt_smCtrl (s : State) (v : Word) {i : Nat} (hi : i < 6) :
    s.storeAt (smCtrlAddr i) v = s.setRg (smCtrlAddr i) (smCtrlSpec.store (s.rg (smCtrlAddr i)) v) := by
  simp only [State.storeAt, regAt_smCtrl ⟨i, hi⟩]

theorem State.storeSmCtrls_rg_other (s : State) (v : Word) {n a : Nat} (hn : n ≤ 6) (ha : ∀ i < n, a ≠ smCtrlAddr i) :
    (s.storeSmCtrls v n).rg a = s.rg a := by
  induction n with
  | zero => rfl
  | succ n ih =>
    rw [State.storeSmCtrls_succ, State.storeAt_smCtrl _ v hn, State.setRg_rg_other _ _ (ha n (Nat.lt_succ_self n)),
      ih (by omega) fun i hi => ha i (by omega)]

theorem State.storeSmCtrls_rg (s : State) (v : Word) {n i : Nat} (hn : n ≤ 6) (hi : i < n) :
    (s.storeSmCtrls v n).rg (smCtrlAddr i) = smCtrlSpec.store (s.rg (smCtrlAddr i)) v := by
  induction n with
  | zero => omega
  | succ n ih =>
    rw [State.storeSmCtrls_succ, State.storeAt_smCtrl _ v hn]
    rcases Nat.lt_succ_iff_lt_or_eq.1 hi with hlt | rfl
    · rw [State.setRg_rg_other _ _ (mt smCtrlAddr_inj.1 hlt.ne), ih (by omega) hlt]
    · rw [State.setRg_rg, s.storeSmCtrls_rg_other v (by omega) fun j hj => mt smCtrlAddr_inj.1 hj.ne']

theorem State.storeSmCtrls_frame (s : State) (v : Word) {n : Nat} (hn : n ≤ 6) :
    s.storeSmCtrls v n = { s with regs := (s.storeSmCtrls v n).regs } := by
  induction n with
  | zero => rfl
  | succ n ih =>
    rw [State.storeSmCtrls_succ, State.storeAt_smCtrl _ v hn, ih (by omega)]
    rfl

/-- SM_CTRL of each STAGE page after a write through any of them. -/
theorem State.writeSmCtrl_rg (s : State) (v : Word) (i : Fin 6) : (s.writeSmCtrl v).rg (smCtrlAddr i.val) =
    s.rg (smCtrlAddr i.val) &&& ~~~0x7F1 ||| s.smCtrlValue v &&& 0x7F1 := by
  rw [State.writeSmCtrl_eq, s.storeSmCtrls_rg _ (Nat.le_refl 6) i.isLt, smCtrlSpec_store]

theorem State.writeSmCtrl_rg_other (s : State) (v : Word) {a : Nat} (ha : ∀ i : Fin 6, a ≠ smCtrlAddr i.val) :
    (s.writeSmCtrl v).rg a = s.rg a := by
  rw [State.writeSmCtrl_eq, s.storeSmCtrls_rg_other _ (Nat.le_refl 6) fun i hi => ha ⟨i, hi⟩]

theorem State.writeSmCtrl_frame (s : State) (v : Word) : s.writeSmCtrl v = { s with regs := (s.writeSmCtrl v).regs } := by
  rw [State.writeSmCtrl_eq]
  exact s.storeSmCtrls_frame _ (Nat.le_refl 6)

theorem exec_smCtrlWrite {s : State} (h : s.awake = true) (inst : Fin 6) (val : Word) :
    exec (.smCtrlWrite inst val) s = .next (s.finish (s.writeSmCtrl val)) :=
  (show exec (.smCtrlWrite inst val) s = execSmCtrlWrite inst val s from rfl).trans (perform_awake h)

/-! ## The statement -/

/-- The reserved bits of SM_CTRL are stored as 0 on every STAGE page. -/
def State.SmCtrlReservedClear (s : State) : Prop := ∀ i : Fin 6, s.rg (smCtrlAddr i.val) &&& ~~~0x7F1 = 0

theorem State.smCtrlReservedClear_of_reset_regs {s : State} (h : s.regs = State.reset.regs) : s.SmCtrlReservedClear := by
  have hreset : ∀ i : Fin 6, State.reset.rg (smCtrlAddr i.val) &&& ~~~0x7F1 = 0 := by decide
  intro i
  rw [State.rg, h]
  exact hreset i

theorem State.SmCtrlReservedClear.writeSmCtrl_rg {s : State} (h : s.SmCtrlReservedClear) (v : Word) (i : Fin 6) :
    (s.writeSmCtrl v).rg (smCtrlAddr i.val) = s.smCtrlValue v &&& 0x7F1 := by
  rw [State.writeSmCtrl_rg, h i]
  exact BitVec.zero_or

theorem State.SmCtrlReservedClear.writeSmCtrl {s : State} (h : s.SmCtrlReservedClear) (v : Word) :
    (s.writeSmCtrl v).SmCtrlReservedClear := by
  intro i
  rw [h.writeSmCtrl_rg, BitVec.and_assoc, BitVec.and_not_self]
  exact BitVec.and_zero

/-- What the statement says of a write holds where the reserved bits are stored as 0. -/
theorem exec_smCtrlWrite_of_reserved_clear {s : State} (h : s.awake = true) (hclear : s.SmCtrlReservedClear) (inst : Fin 6)
    (val : Word) :
    ∃ t, exec (.smCtrlWrite inst val) s = .next (s.finish t) ∧ t.SmCtrlReservedClear
      ∧ (∀ i : Fin 6, t.rg (smCtrlAddr i.val) = BitVec.ofNat 32 (fld val 0 1 +
          16 * (if fld val 4 4 = 0 then fld (s.rg (smCtrlAddr 0)) 4 4 else fld val 4 4) + 256 * fld val 8 3))
      ∧ t = { s with regs := t.regs }
      ∧ ∀ a, (∀ i : Fin 6, a ≠ smCtrlAddr i.val) → t.rg a = s.rg a := by
  refine ⟨s.writeSmCtrl val, exec_smCtrlWrite h inst val, hclear.writeSmCtrl val, fun i => ?_, s.writeSmCtrl_frame val,
    fun a ha => s.writeSmCtrl_rg_other val ha⟩
  obtain ⟨hrun, hmax, htb⟩ := s.smCtrlValue_fields val
  rw [hclear.writeSmCtrl_rg, and_smCtrl_fields, hrun, hmax, htb]

/-- A running device on which SM_CTRL of STAGE page 0 stores a 1 in reserved bit 31. -/
def reservedBitStored : State :=
  ({ rst := { cold := false, sysResetN := true } } : State).setRg (smCtrlAddr 0) 0x80000031

theorem reservedBitStored_awake : reservedBitStored.awake = true := rfl

theorem reservedBitStored_settled : reservedBitStored.Settled := rfl

theorem reservedBitStored_smCtrl : reservedBitStored.rg (smCtrlAddr 0) = 0x80000031 := State.setRg_rg _ _ _

/-- The write stores the fields of 0x31, and the reserved bit stays. -/
theorem reservedBitStored_write_smCtrl : (reservedBitStored.writeSmCtrl 0x31).rg (smCtrlAddr 0) = 0x80000031 := by
  have hstored := reservedBitStored.writeSmCtrl_rg 0x31 0
  have hvalue : reservedBitStored.smCtrlValue 0x31 = 0x31 := if_neg (by decide)
  rw [hvalue, Fin.val_zero, reservedBitStored_smCtrl] at hstored
  exact hstored

/-- A state that differs from a settled one in its registers is settled. -/
theorem State.Settled.of_frame {s t : State} (h : s.Settled) (ht : t = { s with regs := t.regs }) : t.Settled := by
  rw [ht]
  exact h

theorem finish_rg_of_settled (s : State) {t : State} (ht : t.Settled) (a : Nat) : (s.finish t).rg a = t.rg a := by
  rw [finish_of_settled s t ht]
  rfl

/-- Refutes O26: a write leaves reserved bits as they are stored (R8), and the statement speaks of every running state, whatever
it stores there. Where bit 31 of SM_CTRL of STAGE page 0 is 1, a write of 0x31 leaves 0x80000031 there and not 0x31. With the
reserved bits stored as 0, as from reset, the statement's second half is `exec_smCtrlWrite_of_reserved_clear`. -/
theorem not_stageManagerControl : ¬ Obligations.StageManagerControl := by
  rintro ⟨-, hwrite⟩
  obtain ⟨t, hexec, hvalue, hframe, -⟩ := hwrite reservedBitStored 0 0x31 reservedBitStored_awake
  rw [exec_smCtrlWrite reservedBitStored_awake] at hexec
  have hlost : t.rg (smCtrlAddr 0) = 0x31 := (hvalue 0).trans (by decide)
  have hkept : t.rg (smCtrlAddr 0) = 0x80000031 := by
    rw [← finish_rg_of_settled reservedBitStored (reservedBitStored_settled.of_frame hframe),
      ← Host.Outcome.next.inj hexec,
      finish_rg_of_settled _ (reservedBitStored_settled.of_frame (State.writeSmCtrl_frame _ _)),
      reservedBitStored_write_smCtrl]
  rw [hlost] at hkept
  exact absurd hkept (by decide)

end Sys2Proof.Machine
end

section
/-! SUPPORT. What the ends of scenes, inserted stretches, lead points and commits of the running order do. -/

namespace Sys2Proof.Machine

/-! ## Scenes and inserted stretches (R156, R157) -/

section
variable {s : State}

theorem State.nextScene_within_period (hidle : s.roIdle = false)
    (hin : s.countScene.ro.scene + 1 < scenesOf s.ro.period) :
    s.nextScene = s.countScene.enterScene (s.countScene.ro.scene + 1) := by
  simp only [State.nextScene, hidle, hin, Bool.false_eq_true, if_false, if_true]

/-- At a period's end the next one begins, unless idle scenes are due and the boundary is not aligned. -/
theorem State.nextScene_begins_period {t : State} (hidle : s.roIdle = false)
    (hend : scenesOf s.ro.period ≤ s.countScene.ro.scene + 1) (ht : t = s.countScene.bump64 .runord 0 0x04C 1)
    (hal : t.ro.realignDue = false ∨ t.aligned = true) :
    s.nextScene = ({ t with ro := { t.ro with realignDue := false } } : State).newPeriod := by
  have hno : (t.ro.realignDue && !t.aligned) = false := by rcases hal with h | h <;> simp [h]
  subst ht
  simp only [State.nextScene, hidle, Nat.not_lt.2 hend, hno, Bool.false_eq_true, if_false]

theorem State.nextScene_awaits_stretch {t : State} (hidle : s.roIdle = false)
    (hend : scenesOf s.ro.period ≤ s.countScene.ro.scene + 1) (ht : t = s.countScene.bump64 .runord 0 0x04C 1)
    (hdue : t.ro.realignDue = true) (hal : t.aligned = false) :
    s.nextScene = { t with ro := { t.ro with scene := scenesOf s.ro.period, claims := [] } } := by
  have hyes : (t.ro.realignDue && !t.aligned) = true := by simp [hdue, hal]
  subst ht
  simp only [State.nextScene, hidle, Nat.not_lt.2 hend, hyes, Bool.false_eq_true, if_false, if_true]

theorem State.startStretch_of_due (hrun : s.time.running = true) (hdue : s.ro.realignDue = true)
    (hnone : s.ro.realign = false) (hover : scenesOf s.ro.period ≤ s.ro.scene) :
    s.startStretch = (({ s with ro := { s.ro with realign := true, claims := [] } } : State).bump .runord 0 0x054 1).raise
      (pageAt .runord 0) 3 0 := by
  have hstart : s.stretchDue = true := by simp [State.stretchDue, hrun, hdue, hnone, hover]
  simp only [State.startStretch, hstart, Bool.not_true, Bool.false_eq_true, if_false]

end

/-! ## Lead points (R162 to R164) -/

/-- The scene, counted from the period's first, of which a lead point now speaks. -/
def State.leadScene (s : State) : Nat := s.ro.scene + fld (s.pr .runord 0 0x040) 12 4

/-- The owner of a logical cluster in a scene counted from the period's first, an inserted stretch taken in. -/
def State.leadOwner (s : State) (l a : Nat) : Nat :=
  if s.stretchAhead && decide (scenesOf s.ro.period ≤ a) then 0x1F
  else s.roOwner s.roBank (arbCl l) (a % scenesOf s.ro.period)

/-- Whether the task on a physical cluster is open work. -/
def State.holdsOpen (s : State) (k : Nat) : Bool :=
  match (s.clOf k).placed with
  | some (i, _) => (match s.itemOf i with
    | some it => it.owner == 0x10
    | none => false)
  | none => false

theorem State.holdsOpen_of_none {s : State} {k : Nat} (h : (s.clOf k).placed = none) : s.holdsOpen k = false := by
  simp only [State.holdsOpen, h]

theorem State.holdsOpen_of_open {s : State} {k i x : Nat} {it : Item} (h : (s.clOf k).placed = some (i, x))
    (hit : s.itemOf i = some it) (howner : it.owner = 0x10) : s.holdsOpen k = true := by
  simp only [State.holdsOpen, h, hit, howner, BEq.rfl]

section
variable {s t u : State} {l k o prev : Nat} {maint claimed : Bool} {c : Option (Nat × Nat)} (hon : s.roOn = true)
  (hidle : s.roIdle = false) (hphys : s.physCl l = some k) (ho : o = s.leadOwner l s.leadScene)
  (hprev : prev = s.leadOwner l (s.leadScene - 1))
include hon hidle hphys ho hprev

/-- What a lead point does is decided by the owners of the scene it speaks of and of the scene before that. -/
theorem State.lead_cases (ht : t = s.leadOut l k o prev) (hc : c = if o = 0x1F then none else t.claimant o l)
    (hclaimed : claimed = if o = 0x11 then maint else c.isSome)
    (hu : u = if o = 0x1F then t else { t with ro := { t.ro with
      claims := Tbl.put t.ro.claims (2 * l + 1) { owner := o, claimed := claimed, task := c } } }) :
    s.lead l maint = if o = prev then s else if o = 0x10 then t
      else if (o = 0x1F || claimed) && u.holdsOpen k then
        (u.preemptCl k .handover).1.bump .runord 0 0x070 (u.preemptCl k .handover).2
      else u := by
  subst ho hprev hu hclaimed hc ht
  have hnow : ¬(!s.roOn || s.roIdle) = true := by simp [hon, hidle]
  refine (if_neg hnow).trans ?_
  rw [hphys]
  rfl

theorem State.lead_same_owner (h : o = prev) : s.lead l maint = s :=
  (State.lead_cases hon hidle hphys ho hprev rfl rfl rfl rfl).trans (if_pos h)

/-- Where open scenes begin, the task that is there is cut or overruns, and no run is claimed. -/
theorem State.lead_open (h : o ≠ prev) (hopen : o = 0x10) : s.lead l maint = s.leadOut l k o prev :=
  (State.lead_cases hon hidle hphys ho hprev rfl rfl rfl rfl).trans ((if_neg h).trans (if_pos hopen))

section
variable (h : o ≠ prev) (hopen : o ≠ 0x10) (ht : t = s.leadOut l k o prev)
  (hc : c = if o = 0x1F then none else t.claimant o l) (hclaimed : claimed = if o = 0x11 then maint else c.isSome)
  (hu : u = if o = 0x1F then t else { t with ro := { t.ro with
    claims := Tbl.put t.ro.claims (2 * l + 1) { owner := o, claimed := claimed, task := c } } })
include h hopen ht hc hclaimed hu

/-- A run that nothing claims, or a cluster without a task, calls for no preemption. -/
theorem State.lead_leaves_open_work (hnone : (u.clOf k).placed = none ∨ (o ≠ 0x1F ∧ claimed = false)) :
    s.lead l maint = u := by
  have hno : ((o = 0x1F || claimed) && u.holdsOpen k) = false := by
    rcases hnone with hplaced | ⟨hstretch, hunclaimed⟩
    · simp [State.holdsOpen_of_none hplaced]
    · simp [hstretch, hunclaimed]
  rw [State.lead_cases hon hidle hphys ho hprev ht hc hclaimed hu, if_neg h, if_neg hopen, hno]
  rfl

theorem State.lead_preempts {v : State} {i x n : Nat} {it : Item} (hplaced : (u.clOf k).placed = some (i, x))
    (hit : u.itemOf i = some it) (howner : it.owner = 0x10) (hwant : o = 0x1F ∨ claimed = true)
    (hpre : u.preemptCl k .handover = (v, n)) : s.lead l maint = v.bump .runord 0 0x070 n := by
  have hyes : ((o = 0x1F || claimed) && u.holdsOpen k) = true := by
    simpa [State.holdsOpen_of_open hplaced hit howner] using hwant
  rw [State.lead_cases hon hidle hphys ho hprev ht hc hclaimed hu, if_neg h, if_neg hopen, if_pos hyes, hpre]

end

end

/-! ## Commits (R161) -/

section
variable {s : State} (hreq : s.ro.commitReq = true) (hidle : s.roIdle = false) (hdue : s.ro.realignDue = false)
  (hscene : s.ro.scene = 0)
include hreq hidle hdue hscene

theorem State.commit_refused {t : State} {c : Nat} (hcause : s.commitCause = some c)
    (ht : t = { s with ro := { s.ro with commitReq := false } }) : s.commit =
      (t.setPr .runord 0 0x044 (BitVec.ofNat 32 (16 * c))).raise (pageAt .runord 0) 1 (BitVec.ofNat 32 (16 * c)) := by
  subst ht
  simp only [State.commit, hreq, hidle, hdue, hscene, hcause, Bool.not_true, Bool.or_false, bne_self_eq_false,
    Bool.false_eq_true, if_false]

section
variable {t : State} {per : Nat} (hcause : s.commitCause = none) (hper : per = s.ro.commitPer)
  (hwaits : s.commitWaits per = false)
  (ht : t = State.takeBudgets { s with ro := { s.ro with
    bankB := !s.ro.bankB, period := per, tb := fld (s.pr .runord 0 0x040) 4 3, commitReq := false, copying := true,
    claims := [], align := (s.pr .runord 0 0x048).toNat % periodNs per } })
include hcause hper hwaits ht

/-- A commit whose checks hold takes effect; off an aligned boundary idle scenes go before the first new period. -/
theorem State.commit_passes : s.commit = if t.aligned then t.turnClaims else
    { t with ro := { t.ro with scene := scenesOf per, realignDue := true, curPeriod := t.ro.curPeriod - 1 } } := by
  subst ht hper
  simp only [State.commit, hreq, hidle, hdue, hscene, hcause, hwaits, Bool.not_true, Bool.or_false, bne_self_eq_false,
    Bool.false_eq_true, if_false]

end

end

end Sys2Proof.Machine
end

section
/-! SUPPORT. What the registers of the running order and a passed curtain do, and the statements about its periods, scenes and
commits. -/

namespace Sys2Proof.Machine

/-! ## The tables and RO_CTRL (R174, R175) -/

section
variable (s : State) (v : Word)

/-- One of the four entries that a write of RO_TBL_DATA from entry `k` on stores; `base` is the key of the track's entry 0. -/
def putEntry (base k : Nat) (v : Word) (t : Tbl Nat) (i : Nat) : Tbl Nat :=
  if k + i < 2500 then Tbl.set 0x10 t (base + k + i) (fld v (8 * i) 5) else t

theorem get_putEntry (base k : Nat) (t : Tbl Nat) (i n : Nat) : Tbl.get 0x10 (putEntry base k v t i) n =
    if k + i < 2500 ∧ n = base + k + i then fld v (8 * i) 5 else Tbl.get 0x10 t n := by
  unfold putEntry
  by_cases hin : k + i < 2500
  · by_cases hn : n = base + k + i
    · simp [hin, hn]
    · simp [hin, hn, Tbl.get_set_other]
  · simp [hin]

/-- The key of entry 0 of the track that RO_TBL_ADDR selects, in the inactive bank. -/
def State.tblBase (s : State) : Nat := (1 - s.roBank) * 160000 + fld (s.pr .runord 0 0x058) 16 6 * 2500

theorem State.writeRoTbl_track : (s.writeRoTbl v).ro.track =
    [0, 1, 2, 3].foldl (putEntry s.tblBase (fld (s.pr .runord 0 0x058) 0 12) v) s.ro.track := rfl

theorem State.writeRoTbl_entry {i : Nat} (hi : i < 4) (hin : fld (s.pr .runord 0 0x058) 0 12 + i < 2500) :
    (s.writeRoTbl v).roEntry (1 - s.roBank) (fld (s.pr .runord 0 0x058) 16 6) (fld (s.pr .runord 0 0x058) 0 12 + i) =
      fld v (8 * i) 5 := by
  rw [State.roEntry, State.writeRoTbl_track, ← Nat.add_assoc, ← State.tblBase]
  simp only [List.foldl, get_putEntry, Nat.add_left_cancel_iff]
  interval_cases i <;> simp_all

/-- The bank, the track and the entry make up the key of an entry. -/
theorem entryKey_inj {b tr n b' tr' n' : Nat} (hn : n < 2500) (hn' : n' < 2500) (htr : tr < 64) (htr' : tr' < 64)
    (h : b * 160000 + tr * 2500 + n = b' * 160000 + tr' * 2500 + n') : b = b' ∧ tr = tr' ∧ n = n' := by
  omega

theorem State.writeRoTbl_entry_other {b tr n : Nat} (hn : n < 2500) (htr : tr < 64)
    (hother : ¬(b = 1 - s.roBank ∧ tr = fld (s.pr .runord 0 0x058) 16 6 ∧ fld (s.pr .runord 0 0x058) 0 12 ≤ n
      ∧ n < fld (s.pr .runord 0 0x058) 0 12 + 4)) :
    (s.writeRoTbl v).roEntry b tr n = s.roEntry b tr n := by
  have hkey (i : Nat) (hi : i < 4) : ¬(fld (s.pr .runord 0 0x058) 0 12 + i < 2500
      ∧ b * 160000 + tr * 2500 + n = s.tblBase + fld (s.pr .runord 0 0x058) 0 12 + i) := by
    rintro ⟨hin, hsame⟩
    rw [State.tblBase, Nat.add_assoc (_ + _)] at hsame
    obtain ⟨hbank, htrack, hentry⟩ := entryKey_inj hn hin htr (fld_lt _ 16 6) hsame
    exact hother ⟨hbank, htrack, by omega, by omega⟩
  rw [State.roEntry, State.writeRoTbl_track]
  simp only [List.foldl, get_putEntry, hkey 0 (by decide), hkey 1 (by decide), hkey 2 (by decide), hkey 3 (by decide), if_false]
  rfl

theorem State.writeRoBind_track (h : fld (s.pr .runord 0 0x060) 0 9 < 460) : s.writeRoBind v =
    ({ s with ro := { s.ro with
      bind := Tbl.set 0 s.ro.bind ((1 - s.roBank) * 460 + fld (s.pr .runord 0 0x060) 0 9) (fld v 0 6) } } : State).setPr
        .runord 0 0x060 (BitVec.ofNat 32 ((fld (s.pr .runord 0 0x060) 0 9 + 1) % 512)) := by
  simp only [State.writeRoBind, h, if_true]

end

section
variable {s t : State} {v : Word}

theorem State.writeRoCtrl_reserved (h : fld v 1 2 = 3) : s.writeRoCtrl v = s := if_pos h

/-- Raising YIELD_LEAD to 6 leaves PERIOD. -/
theorem period_of_yieldLead : fld (if fld v 12 4 < 6 then setFld v 12 4 6 else v) 1 2 = fld v 1 2 := by
  split
  · exact fld_setFld_other v 6 (by decide) (by decide)
  · rfl

variable (h : fld v 1 2 ≠ 3) (ht : t = s.storeAt (pageAddr .runord 0 + 0x040) (if fld v 12 4 < 6 then setFld v 12 4 6 else v))
include h ht

theorem State.writeRoCtrl_commits (hcommit : fld v 8 1 = 1) (hreq : t.ro.commitReq = false) (hcopy : t.ro.copying = false) :
    s.writeRoCtrl v = { t with ro := { t.ro with commitReq := true, commitPer := fld v 1 2 } } := by
  subst ht
  simp only [State.writeRoCtrl, h, hcommit, hreq, hcopy, period_of_yieldLead, Bool.not_false, and_self, if_false, if_true]

theorem State.writeRoCtrl_stores (hcommit : fld v 8 1 = 0) : s.writeRoCtrl v = t := by
  subst ht
  simp only [State.writeRoCtrl, h, hcommit, Nat.zero_ne_one, false_and, if_false]

end

/-! ## Curtains (R171) -/

section
variable {s : State} {i : Nat} {it : Item} {x : Task} (hit : s.itemOf i = some it) (hradio : it.radio = true)
  (hreleased : it.released = false) (hreturned : it.returned = false) (htasks : it.tasks = [x])
  (hx : s.taskOf i 0 = some x) (hpend : s.pendEnd i 0 = false)
include hit hradio hreleased hreturned htasks hx hpend

theorem State.passCurtain_ends (h : x.st = .ready ∨ x.st = .cued ∨ (x.st = .playing ∧ x.ty = 3)) :
    s.passCurtain i = (s.markDone i 0 stCurtain 0 0).afterDone i 0 false := by
  simp [State.passCurtain, hit, hradio, hreleased, hreturned, htasks, hx, hpend, h]

section
variable {l k : Nat} (hst : x.st = .playing) (hplace : x.place = some (l, k))
include hst hplace

/-- A playing cluster task ends once its units have ended their beats. -/
theorem State.passCurtain_cluster {u : State} (hty : x.ty = 1) (hu : u = s.curtainCl k) :
    s.passCurtain i =
      if (u.clOf k).unitsLanded then (u.markDone i 0 stCurtain 0 0).afterDone i 0 false else u := by
  rw [hu]
  cases hlanded : ((s.curtainCl k).clOf k).unitsLanded <;>
    simp [State.passCurtain, hit, hradio, hreleased, hreturned, htasks, hx, hpend, hst, hplace, hty, hlanded]

/-- A playing DSP task is told to stop. -/
theorem State.passCurtain_core (hty : x.ty = 2) : s.passCurtain i = { s with dsp := Tbl.upd {} s.dsp k fun d =>
    { d with stopping := true, tret := false, ending := some (stCurtain, 0, 0) } } := by
  simp [State.passCurtain, hit, hradio, hreleased, hreturned, htasks, hx, hpend, hst, hplace, hty]

end

end

/-! ## The commands -/

section
variable {s : State} (h : s.awake = true)
include h

theorem exec_sceneBoundary :
    exec .sceneBoundary s = .next (s.finish s.retryFallbacks.retryLate.nextScene.pumpAll) :=
  (show exec .sceneBoundary s = execSceneBoundary s from rfl).trans (perform_awake h)

theorem exec_realignStart : exec .realignStart s = .next (s.finish s.startStretch) :=
  (show exec .realignStart s = execRealignStart s from rfl).trans (perform_awake h)

theorem exec_realignEnd (hal : s.ro.realign = true) : exec .realignEnd s =
    .next (s.finish ({ s with ro := { s.ro with realign := false, realignDue := false } } : State).newPeriod) := by
  refine (show exec .realignEnd s = execRealignEnd s from rfl).trans ((perform_awake h).trans ?_)
  rw [if_pos hal]

theorem exec_leadPoint (lc : Fin 128) (maint : Bool) : exec (.leadPoint lc maint) s = .next (s.finish (s.lead lc.val maint)) :=
  (show exec (.leadPoint lc maint) s = execLeadPoint lc maint s from rfl).trans (perform_awake h)

theorem exec_roCommitApply : exec .roCommitApply s = .next (s.finish s.commit) :=
  (show exec .roCommitApply s = execRoCommitApply s from rfl).trans (perform_awake h)

theorem exec_roBankCopyComplete (hcopy : s.ro.copying = true) : exec .roBankCopyComplete s = .next (s.finish { s with
    ro := { s.ro with copying := false, track := copyBank 160000 s.roBank s.ro.track,
                      bind := copyBank 460 s.roBank s.ro.bind } }) := by
  refine (show exec .roBankCopyComplete s = execRoBankCopyComplete s from rfl).trans ((perform_awake h).trans ?_)
  rw [if_pos hcopy]

theorem exec_roTblDataAccess (write : Bool) (v : Word) : exec (.roTblDataAccess write v) s =
    .next (s.finish (if write then s.writeRoTbl v else s.readRoTbl)) :=
  (show exec (.roTblDataAccess write v) s = execRoTblDataAccess write v s from rfl).trans (perform_awake h)

theorem exec_roBindDataAccess (write : Bool) (v : Word) : exec (.roBindDataAccess write v) s =
    .next (s.finish (if write then s.writeRoBind v else s.readRoBind)) :=
  (show exec (.roBindDataAccess write v) s = execRoBindDataAccess write v s from rfl).trans (perform_awake h)

theorem exec_roCommit (v : Word) : exec (.roCommit v) s = .next (s.finish (s.writeRoCtrl v)) :=
  (show exec (.roCommit v) s = execRoCommit v s from rfl).trans (perform_awake h)

section
variable {i : Nat} {it : Item} (hit : s.itemOf i = some it)
include hit

theorem exec_curtainPassed_reached (hat : it.curtain ≤ s.t64On it.home it.curtainTb) :
    exec (.curtainPassed i) s = .next (s.finish (s.passCurtain i)) := by
  refine (show exec (.curtainPassed i) s = execCurtainPassed i s from rfl).trans ((perform_awake h).trans ?_)
  simp only [hit, hat, if_true]

theorem exec_curtainPassed_early (hat : s.t64On it.home it.curtainTb < it.curtain) :
    exec (.curtainPassed i) s = .next (s.finish s) := by
  refine (show exec (.curtainPassed i) s = execCurtainPassed i s from rfl).trans ((perform_awake h).trans ?_)
  simp only [hit, Nat.not_le.2 hat, if_false]

end

end

/-! ## The statements -/

/-- Settles O27: three periods by their lengths, and a write of the reserved PERIOD leaves a settled state. -/
theorem periodsOfTheRunningOrder : Obligations.PeriodsOfTheRunningOrder := by
  refine ⟨by decide, fun s v h hset hper => ?_⟩
  rw [exec_roCommit h, State.writeRoCtrl_reserved hper, finish_self s hset]

/-- Settles O28: each command by the rules above. -/
theorem scenesAndCommits : Obligations.ScenesAndCommits := by
  refine ⟨fun s h => ⟨?_, ?_, ?_, ?_, ?_, ?_⟩, fun s val h => ⟨?_, ?_, ?_, ?_, ?_⟩⟩
  · intro r c hr hidle hc
    rw [exec_sceneBoundary h, ← hr, hc]
    refine ⟨fun hin => ?_, fun hend t ht => ⟨fun hal => ?_, fun hdue hal => ?_⟩⟩
    · rw [State.nextScene_within_period hidle hin]
    · rw [State.nextScene_begins_period hidle hend ht hal]
    · rw [State.nextScene_awaits_stretch hidle hend ht hdue hal]
  · intro hrun hdue hnone hover
    rw [exec_realignStart h, State.startStretch_of_due hrun hdue hnone hover]
  · exact exec_realignEnd h
  · intro lc maint k at_ o prev own hon hidle hphys hat hown ho hprev
    subst hown hat
    rw [exec_leadPoint h]
    refine ⟨fun hsame hset => ?_, fun hne t ht => ⟨fun hopen => ?_, fun hopen c claimed u hc hclaimed hu =>
      ⟨fun hnone => ?_, fun i x it hplaced hit howner hwant v n hpre => ?_⟩⟩⟩
    · rw [State.lead_same_owner hon hidle hphys ho hprev hsame, finish_self s hset]
    · rw [State.lead_open hon hidle hphys ho hprev hne hopen, ht]
    · rw [State.lead_leaves_open_work hon hidle hphys ho hprev hne hopen ht hc hclaimed hu hnone]
    · rw [State.lead_preempts hon hidle hphys ho hprev hne hopen ht hc hclaimed hu hplaced hit howner hwant hpre]
  · intro hreq hidle hdue hscene
    rw [exec_roCommitApply h]
    refine ⟨fun c t hcause ht => ?_, fun per t hcause hper hwaits ht => ?_⟩
    · rw [State.commit_refused hreq hidle hdue hscene hcause ht]
    · rw [State.commit_passes hreq hidle hdue hscene hcause hper hwaits ht]
      exact ⟨fun hal => by rw [if_pos hal], fun hal => by rw [hal]; rfl⟩
  · exact exec_roBankCopyComplete h
  · rintro a k rfl rfl
    rw [exec_roTblDataAccess h, exec_roTblDataAccess h]
    exact ⟨rfl, s.writeRoTbl val, rfl, State.setPr_pr _ _ _ _ _, fun i hi hin => s.writeRoTbl_entry val hi hin,
      fun b tr n _ hn htr hother => s.writeRoTbl_entry_other val hn htr hother, rfl⟩
  · rintro a rfl
    rw [exec_roBindDataAccess h, exec_roBindDataAccess h]
    exact ⟨rfl, fun hin => by rw [if_pos rfl, s.writeRoBind_track val hin]⟩
  · intro hper t ht
    rw [exec_roCommit h]
    exact ⟨fun hcommit hreq hcopy => by rw [State.writeRoCtrl_commits hper ht hcommit hreq hcopy],
      fun hcommit => by rw [State.writeRoCtrl_stores hper ht hcommit]⟩
  · intro i it x hit hradio hreleased hreturned htasks hx hpend hat
    rw [exec_curtainPassed_reached h hit hat]
    refine ⟨fun hst => ?_, fun hst l k hplace => ⟨fun hty u hu => ?_, fun hty => ?_⟩⟩
    · rw [State.passCurtain_ends hit hradio hreleased hreturned htasks hx hpend hst]
    · rw [State.passCurtain_cluster hit hradio hreleased hreturned htasks hx hpend hst hplace hty hu]
      exact ⟨fun hlanded => by rw [if_pos hlanded], fun hlanded => by rw [hlanded]; rfl⟩
    · rw [State.passCurtain_core hit hradio hreleased hreturned htasks hx hpend hst hplace hty]
  · intro i it hit hat hset
    rw [exec_curtainPassed_early h hit hat, finish_self s hset]

end Sys2Proof.Machine
end

section
/-! SUPPORT. What clears of counters leave, and how jobs of the radio accelerators start, complete and fail. -/

namespace Sys2Proof.Machine

/-! ## Registers that are cleared -/

theorem State.Cleared.nil (s : State) : s.Cleared s [] := ⟨rfl, by simp, fun _ _ => rfl⟩

theorem State.Cleared.append {s t u : State} {l m : List Nat} (h : s.Cleared t l) (g : t.Cleared u m) :
    s.Cleared u (l ++ m) := by
  obtain ⟨hframe, hreset, hother⟩ := h
  obtain ⟨gframe, greset, gother⟩ := g
  refine ⟨by rw [gframe, hframe], fun a ha => ?_, fun a ha => ?_⟩
  · by_cases ham : a ∈ m
    · exact greset a ham
    · rw [gother a ham, hreset a ((List.mem_append.1 ha).resolve_right ham)]
  · rw [List.mem_append, not_or] at ha
    rw [gother a ha.2, hother a ha.1]

theorem State.cleared_setPr (s : State) (k : PageKind) (i o : Nat) :
    s.Cleared (s.setPr k i o (regReset (pageAddr k i + o))) [pageAddr k i + o] :=
  ⟨rfl, fun a ha => by rw [List.mem_singleton.1 ha]; exact s.setRg_rg _ _,
    fun a ha => s.setRg_rg_other _ (List.mem_singleton.not.1 ha)⟩

theorem State.cleared_clearRegs (s : State) (k : PageKind) (i : Nat) (offs : List Nat) :
    s.Cleared (s.clearRegs k i offs) (offs.map (pageAddr k i + ·)) := by
  induction offs generalizing s with
  | nil => exact .nil s
  | cons o offs ih => exact (s.cleared_setPr k i o).append (ih _)

/-- Clears of several groups of registers of a page, one after the other. -/
theorem State.cleared_foldl_clearRegs (s : State) (k : PageKind) (i : Nat) (offs : Nat → List Nat) (l : List Nat) :
    s.Cleared (l.foldl (fun s b => s.clearRegs k i (offs b)) s) (l.flatMap fun b => (offs b).map (pageAddr k i + ·)) := by
  induction l generalizing s with
  | nil => exact .nil s
  | cons b l ih => exact (s.cleared_clearRegs k i (offs b)).append (ih _)

/-- A command that clears registers of a settled state ends as it is. -/
theorem State.Cleared.finish {s t : State} {l : List Nat} (h : s.Cleared t l) (hset : s.Settled) : s.finish t = t := by
  obtain ⟨hframe, -, -⟩ := h
  rw [finish_of_settled s t (hset.of_frame hframe), hframe]

/-- The outcome of such a command on a settled state. -/
theorem State.Cleared.outcome {s t : State} {l : List Nat} {i : Instr} (h : s.Cleared t l) (hset : s.Settled)
    (hexec : exec i s = .next (s.finish t)) : ∃ t, exec i s = .next t ∧ s.Cleared t l :=
  ⟨t, by rw [hexec, h.finish hset], h⟩

/-! ## Commands that clear counters (R89, R229, R264) -/

section
variable (s : State) (k : Nat)

theorem State.clrClus_numeric : s.clrClus k 1 = s.clearRegs .clus k (offsets 0x080 0x094) := rfl

theorem State.clrClus_activity : s.clrClus k 2 = s.clearRegs .clus k (offsets 0x060 0x07C) := rfl

theorem State.clrClus_residue : s.clrClus k 4 = s.clearRegs .clus k [0x09C] := rfl

theorem State.dspClear_counters {v : Word} (h : fld v 0 1 = 1) :
    s.dspClear k v = s.clearRegs .rdsp k (offsets 0x070 0x088) := if_pos h

theorem State.dspClear_none {v : Word} (h : fld v 0 1 = 0) : s.dspClear k v = s := if_neg (by omega)

theorem State.accelClear_jobs (p : PageKind) : s.accelClear p k 1 = s.clearRegs p k (offsets 0x048 0x060) := by
  have hjobs : fld (1 : Word) 0 1 = 1 := rfl
  have hbanks : ¬(p = .chirp ∧ fld (1 : Word) 1 1 = 1) := fun h => absurd h.2 (by decide)
  simp only [State.accelClear, hjobs, hbanks, if_true, if_false]

theorem State.accelClear_banks : s.accelClear .chirp k 2 =
    (List.range 4).foldl (fun s b => s.clearRegs .chirp k (offsets (0x114 + 0x40 * b) (0x13C + 0x40 * b))) s := rfl

end

section
variable {s : State} (h : s.awake = true)
include h

theorem exec_clusCntClrNumeric (cl : Fin 144) : exec (.clusCntClrNumeric cl) s = .next (s.finish (s.clrClus cl.val 1)) :=
  (show exec (.clusCntClrNumeric cl) s = execClusCntClrNumeric cl s from rfl).trans (perform_awake h)

theorem exec_clusCntClrActivity (cl : Fin 144) : exec (.clusCntClrActivity cl) s = .next (s.finish (s.clrClus cl.val 2)) :=
  (show exec (.clusCntClrActivity cl) s = execClusCntClrActivity cl s from rfl).trans (perform_awake h)

theorem exec_clusCntClrResidue (cl : Fin 144) : exec (.clusCntClrResidue cl) s = .next (s.finish (s.clrClus cl.val 4)) :=
  (show exec (.clusCntClrResidue cl) s = execClusCntClrResidue cl s from rfl).trans (perform_awake h)

theorem exec_dspCntClr (core : Fin 272) (v : Word) : exec (.dspCntClr core v) s = .next (s.finish (s.dspClear core.val v)) :=
  (show exec (.dspCntClr core v) s = execDspCntClr core v s from rfl).trans (perform_awake h)

theorem exec_accelCntClrJobs (tile : Fin 2) (k : Fin 4) :
    exec (.accelCntClrJobs tile k) s = .next (s.finish (s.accelClear (accelKind k.val) tile.val 1)) :=
  (show exec (.accelCntClrJobs tile k) s = execAccelCntClrJobs tile k s from rfl).trans (perform_awake h)

theorem exec_accelCntClrBanks (tile : Fin 2) :
    exec (.accelCntClrBanks tile) s = .next (s.finish (s.accelClear .chirp tile.val 2)) :=
  (show exec (.accelCntClrBanks tile) s = execAccelCntClrBanks tile s from rfl).trans (perform_awake h)

end

/-! ## Jobs that start (R170) -/

section
variable {s t u : State} {e k eng : Nat} {j j' : Job}
  (hfirst : firstJob (s.jobMay e k) [] ((s.accOf e).queue.filter fun j => j.cls == k) = some j)
  (hfree : s.jobOn e k eng = none) (hon : s.engineOn e k eng = true) (hruns : s.smRuns = true)
  (hdom : s.domOk (4 + e) = true)
  (hu : u = t.setSeq j.sq { t.seqOf j.sq with tok := applyTok (t.seqOf j.sq).tok j.wait none })
include hfirst hfree hon hruns hdom hu

/-- A job that was read starts when it is no other chirp bank's and its engine time ends within the run. -/
theorem State.startJob_read {b : List Byte}
    (hread : s.gRead (s.jobWho j eng) j.addr (min j.bytes (jobLen k)) false = (t, .ok b))
    (hj : j' = { j with raw := leNat b, tStart := s.tsNow (4 + e) })
    (hbank : ¬(k = 5 ∧ jobCause j' eng = 2 ∧ db j'.raw 32 1 ≠ eng ∧ db j'.raw 32 1 < 4))
    (hrun : 5 * engineTime j' eng ≤ 6 * t.runLeft (400 + 6 * e + k) j.owner) :
    s.startJob e k eng = (u.forget (s.jobWho j eng).org).setAcc e { u.accOf e with
      queue := dropFirst j (u.accOf e).queue, run := Tbl.put (u.accOf e).run (k * 64 + eng) j',
      lastOn := Tbl.put (u.accOf e).lastOn (k * 64 + eng) j.owner } := by
  subst hu hj
  simp only [State.startJob, hfirst, hfree, hon, hruns, hdom, hread, hbank, hrun, Option.isSome_none, Bool.not_true,
    Bool.or_false, Bool.false_eq_true, if_false, if_true]

/-- A job that cannot be read starts with its result. -/
theorem State.startJob_unread {st : Nat}
    (hread : s.gRead (s.jobWho j eng) j.addr (min j.bytes (jobLen k)) false = (t, .fail st))
    (hj : j' = { j with tStart := s.tsNow (4 + e), res := some (endRes (if st = stAccess then 3 else st) 0) }) :
    s.startJob e k eng = (u.forget (s.jobWho j eng).org).setAcc e { u.accOf e with
      queue := dropFirst j (u.accOf e).queue, run := Tbl.put (u.accOf e).run (k * 64 + eng) j',
      lastOn := Tbl.put (u.accOf e).lastOn (k * 64 + eng) j.owner } := by
  subst hu hj
  simp only [State.startJob, hfirst, hfree, hon, hruns, hdom, hread, Option.isSome_none, Bool.not_true,
    Bool.or_false, Bool.false_eq_true, if_false]

end

/-! ## Jobs that complete (R236, R237) -/

section
variable {s t u v : State} {e k eng cycles : Nat} {j : Job} {r : JobRes} {b : List Byte} {p : Page}
  (hjob : s.jobOn e k eng = some j) (hres : j.res = some r) (hacked : s.acked (s.jobWho j eng).org j.x = true)
  (hcyc : cycles ≤ engineTime j eng) (htime : r.early = true ∨ 2 ≤ r.status ∨ cycles = engineTime j eng)
  (htask : j.task ≠ 5000) (hst : r.status < 4)
  (hwrite : s.gWrite (s.jobWho j eng) j.stat
    (jobRecord e eng r cycles j.tStart (s.tsNow (4 + e)) (s.jobSummary e k eng r)) false false = (t, .ok b))
  (hp : p = enginePage e k)
  (hu : u = t.setAcc e { t.accOf e with run := Tbl.del (t.accOf e).run (k * 64 + eng) })
  (hv : v = ((u.bump64 p.kind p.inst 0x048 1).bump64 p.kind p.inst 0x050 cycles).bump p.kind p.inst 0x058 r.failed)
include hjob hres hacked hcyc htime htask hst hwrite hp hu hv

/-- A job whose status is written leaves its engine and counts; a MALFORMED one and one with ACCESS end their task. -/
theorem State.endJob_written : s.endJob e k eng cycles =
    if r.status = 2 then ((v.bump p.kind p.inst 0x05C 1).accelIrq j.item).jobEnds j stMalformed 0x14
    else if r.status = 3 then (v.accelIrq j.item).jobEnds j stAccess 0
    else (v.accelIrq j.item).doneX j.sq j.x true := by
  have hover : (!s.acked (s.jobWho j eng).org j.x || decide (engineTime j eng < cycles)
      || (!r.early && r.status < 2 && cycles != engineTime j eng)) = false := by
    rcases htime with h | h | h <;> simp [hacked, Nat.not_lt.2 hcyc, h]
    omega
  have hnot : ¬3 < r.status := by omega
  have horphan : (j.task == 5000) = false := beq_eq_false_iff_ne.2 htask
  have hv' : (if r.status = 2 then v.bump p.kind p.inst 0x05C 1 else v) = u.countJob e k cycles r := by
    rw [hv, hp]; rfl
  subst hu
  simp only [State.endJob, hjob, hres, hover, horphan, hnot, hst, hwrite, ← hv', Bool.or_false, decide_false,
    Bool.false_eq_true, if_false, if_true]
  split_ifs <;> rfl

end

end Sys2Proof.Machine
end

section
/-! SUPPORT. What errors of accelerator engines and the channels of the chirp banks do, and the statement about jobs, chirp
banks and counter clears. -/

namespace Sys2Proof.Machine

/-! ## The chirp banks (R255 to R258, R265) -/

section
variable {s : State} {e b c : Nat}

/-- The next window of an enabled channel is taken once its samples are; what came due before goes first. -/
theorem State.chirpStep_window {j : Job} {s' : State} {cfg : Word} {k : ChirpBank} {x : ChirpCh} {at_ : Nat}
    (hs : s' = (s.chirpTimeout e b c).chirpExpire e b c) (hcfg : cfg = s'.chCfg e b c) (hk : k = s'.bankOf e b)
    (hx : x = s'.chanOf e b c) (hat : at_ = x.next k cfg) (hon : fld cfg 0 1 = 1) (htaken : at_ ≤ k.taken) :
    s.chirpStep j e b c = s'.chirpWindow j e b c at_
      (windowOf (chips cfg) (k.window c x.gain (chips cfg) (at_ - chipSamples * chips cfg))) := by
  have hgo : ¬(fld cfg 0 1 = 0 ∨ k.taken < at_) := by omega
  rw [hat, hcfg, hk, hx, hs] at hgo ⊢
  exact if_neg hgo

section
variable {ctl cfg : Word} {x : ChirpCh} (hctl : ctl = (s.bankOf e b).ctl) (hcfg : cfg = s.chCfg e b c)
  (hx : x = s.chanOf e b c)
include hctl hcfg hx

theorem State.chirpTimeout_eq : s.chirpTimeout e b c = if x.overdue ctl cfg then s.falseDetection e b c true else s := by
  rw [hx, hctl, hcfg]
  rfl

theorem State.chirpExpire_eq : s.chirpExpire e b c = if x.expires ctl cfg then
    (if x.headerOk then s.bankCount e b 0x28 1 else s).setChan e b c
      { x with cand := none, expired := if x.headerOk then x.expired else x.expired + 1 } else s := by
  rw [hx, hctl, hcfg]
  rfl

end

/-- A channel's new configuration is stored without its ignored fields, and the channel starts afresh; a bank's first channel
arms the bank. -/
theorem State.writeChCfg_eq {v v1 v2 : Word} {a : Nat} {t : State}
    (ha : a = pageAddr .chirp e + 0x800 + 4 * (128 * b + c))
    (hv1 : v1 = if 4 < fld v 1 3 then setFld v 1 3 (fld (s.rg a) 1 3) else v)
    (hv2 : v2 = if 5 < fld v1 4 3 then setFld v1 4 3 (fld (s.rg a) 4 3) else v1)
    (ht : t = (s.storeAt a v2).setChan e b c { origin := (s.chanOf e b c).last }) :
    s.writeChCfg e b c v =
      if !s.bankOn e b && t.bankOn e b then t.setBank e b { t.bankOf e b with armed := false } else t := by
  rw [ht, hv2, hv1, ha]
  rfl

end

/-! ## Engines in error (R238) -/

/-- An error that is not corrected ends the attempt of the task whose job is on the engine. -/
def State.failEngine (t : State) (e k eng : Nat) : State :=
  match t.jobOn e k eng with
  | none => t
  | some j => ((t.forget (t.jobWho j eng).org).setAcc e
      { t.accOf e with run := Tbl.del (t.accOf e).run (k * 64 + eng) }).rerunTask j.item j.task true none

theorem State.failEngine_idle {t : State} {e k eng : Nat} (h : t.jobOn e k eng = none) : t.failEngine e k eng = t := by
  simp only [State.failEngine, h]

theorem State.failEngine_job {t : State} {e k eng : Nat} {j : Job} (h : t.jobOn e k eng = some j) :
    t.failEngine e k eng = ((t.forget (t.jobWho j eng).org).setAcc e
      { t.accOf e with run := Tbl.del (t.accOf e).run (k * 64 + eng) }).rerunTask j.item j.task true none := by
  simp only [State.failEngine, h]

/-! ## The commands -/

section
variable {s : State} (h : s.awake = true) (tile : Fin 2)
include h

section
variable (cls : Fin 6) (eng : Fin 32)

theorem exec_accelJobStart :
    exec (.accelJobStart tile cls eng) s = .next (s.finish (s.startJob tile.val cls.val eng.val)) :=
  (show exec (.accelJobStart tile cls eng) s = execAccelJobStart tile cls eng s from rfl).trans (perform_awake h)

/-- A job completes once the windows of a chirp job have ended (R262). -/
theorem exec_accelJobComplete {s' : State} (cycles : Word) (hchirp : cls.val = 5 → s.chirpAll tile.val eng.val = (s', true))
    (hother : cls.val ≠ 5 → s' = s) : exec (.accelJobComplete tile cls eng cycles) s =
      .next (s.finish (s'.endJob tile.val cls.val eng.val cycles.toNat)) := by
  refine (show exec (.accelJobComplete tile cls eng cycles) s = execAccelJobComplete tile cls eng cycles s from rfl).trans
    ((perform_awake h).trans ?_)
  by_cases hcls : cls.val = 5
  · simp only [hcls, hchirp hcls, if_true]
  · simp only [hcls, hother hcls, if_false, if_true]

section
variable {residue : Bool} {flips : List (Fin 72)}

/-- A word of an engine's buffers that checks good calls for nothing. -/
theorem exec_accelEngineError_good (hres : residue = false) (hgood : bufferEcc flips = .good) :
    exec (.accelEngineError tile cls eng residue flips) s = .next (s.finish s) := by
  refine (show exec (.accelEngineError tile cls eng residue flips) s = execAccelEngineError tile cls eng residue flips s
    from rfl).trans ((perform_awake h).trans ?_)
  simp only [hres, hgood, Bool.not_false, decide_true, Bool.and_true, Bool.or_true, if_true]

variable (hon : s.engineOn tile.val cls.val eng.val = true)
include hon

theorem exec_accelEngineError_corrected (hres : residue = false) (hfixed : (bufferEcc flips).fixed = true) :
    exec (.accelEngineError tile cls eng residue flips) s =
      .next (s.finish (s.raise (enginePage tile.val cls.val) 1 (engineInfo cls.val eng.val 0))) := by
  have hbad : bufferEcc flips ≠ .good := fun hg => by simp [hg, Ecc.fixed] at hfixed
  refine (show exec (.accelEngineError tile cls eng residue flips) s = execAccelEngineError tile cls eng residue flips s
    from rfl).trans ((perform_awake h).trans ?_)
  simp only [hon, hres, hfixed, hbad, Bool.not_true, Bool.not_false, decide_false, Bool.and_false, Bool.and_true,
    Bool.or_false, Bool.false_eq_true, if_false, if_true]

/-- An error that is not corrected counts and is raised, and ends the attempt of the job's task. -/
theorem exec_accelEngineError_failed {a : Nat} {t : State}
    (hfail : residue = true ∨ (bufferEcc flips ≠ .good ∧ (bufferEcc flips).fixed = false))
    (ha : a = (enginePage tile.val cls.val).base)
    (ht : t = (s.setRg (a + 0x060) (satAdd (s.rg (a + 0x060)) 1)).raise (enginePage tile.val cls.val)
      (if residue then 3 else 2) (engineInfo cls.val eng.val 0)) :
    exec (.accelEngineError tile cls eng residue flips) s = .next (s.finish (t.failEngine tile.val cls.val eng.val)) := by
  have hact : (!s.engineOn tile.val cls.val eng.val || (!residue && decide (bufferEcc flips = .good))) = false := by
    rcases hfail with h | ⟨h, -⟩ <;> simp [hon, h]
  have hraw : (!residue && (bufferEcc flips).fixed) = false := by
    rcases hfail with h | ⟨-, h⟩ <;> simp [h]
  refine (show exec (.accelEngineError tile cls eng residue flips) s = execAccelEngineError tile cls eng residue flips s
    from rfl).trans ((perform_awake h).trans ?_)
  simp only [hact, hraw, Bool.false_eq_true, if_false, ht, ha]
  rfl

end

end

section
variable (bank : Fin 4) (ch : Fin 128)

theorem exec_chirpWindowEnd {j : Job} {t : State} (hjob : s.bankJob tile.val bank.val = some j)
    (hstep : s.chirpStep j tile.val bank.val ch.val = some t) :
    exec (.chirpWindowEnd tile bank ch) s = .next (s.finish t) := by
  refine (show exec (.chirpWindowEnd tile bank ch) s = execChirpWindowEnd tile bank ch s from rfl).trans
    ((perform_awake h).trans ?_)
  simp only [hjob, hstep, Option.getD_some]

theorem exec_chirpSyncTimeout :
    exec (.chirpSyncTimeout tile bank ch) s = .next (s.finish (s.chirpTimeout tile.val bank.val ch.val)) :=
  (show exec (.chirpSyncTimeout tile bank ch) s = execChirpSyncTimeout tile bank ch s from rfl).trans (perform_awake h)

theorem exec_chirpCandidateExpire :
    exec (.chirpCandidateExpire tile bank ch) s = .next (s.finish (s.chirpExpire tile.val bank.val ch.val)) :=
  (show exec (.chirpCandidateExpire tile bank ch) s = execChirpCandidateExpire tile bank ch s from rfl).trans
    (perform_awake h)

theorem exec_chCfgWrite (v : Word) :
    exec (.chCfgWrite tile bank ch v) s = .next (s.finish (s.writeChCfg tile.val bank.val ch.val v)) :=
  (show exec (.chCfgWrite tile bank ch v) s = execChCfgWrite tile bank ch v s from rfl).trans (perform_awake h)

end

end

/-! ## The statement -/

/-- Settles O37: each command by the rules above. -/
theorem acceleratorControl : Obligations.AcceleratorControl := by
  refine ⟨fun s tile h => ⟨?_, ?_, ?_, fun bank ch => ⟨?_, ?_, ?_⟩⟩, fun s h hset =>
    ⟨fun cl => ⟨?_, ?_, ?_⟩, fun core val => ⟨fun hval => ?_, fun hval => ?_⟩, fun tile k => ?_, fun tile => ?_⟩⟩
  -- jobs and engines
  · intro cls eng j k t u g hfirst hfree hon hruns hdom hread hgot hu
    rw [exec_accelJobStart h]
    rcases hgot with ⟨b, rfl, hk, hbank, hrun⟩ | ⟨st, rfl, hk⟩
    · rw [State.startJob_read hfirst hfree hon hruns hdom hu hread hk hbank hrun]
    · rw [State.startJob_unread hfirst hfree hon hruns hdom hu hread hk]
  · intro cls eng cycles j r s' t u v b p hchirp hother hjob hres hacked hcyc htime htask hst hwrite hp hu hv
    rw [exec_accelJobComplete h tile cls eng cycles hchirp hother,
      State.endJob_written hjob hres hacked hcyc htime htask hst hwrite hp hu hv]
    refine ⟨fun hok => ?_, fun hmal => ?_, fun hacc => ?_⟩
    · rw [if_neg (by omega), if_neg (by omega)]
    · rw [if_pos hmal]
    · rw [if_neg (by omega), if_pos hacc]
  · intro cls eng residue flips hon
    refine ⟨fun hres hgood hset => ?_, fun hres hfixed => ?_, fun hfail a t ha ht => ?_⟩
    · rw [exec_accelEngineError_good h tile cls eng hres hgood, finish_self s hset]
    · exact exec_accelEngineError_corrected h tile cls eng hon hres hfixed
    · rw [exec_accelEngineError_failed h tile cls eng hon hfail ha ht]
      exact ⟨fun hnone => by rw [State.failEngine_idle hnone], fun j hjob u hu => by rw [State.failEngine_job hjob, hu]⟩
  -- chirp banks
  · intro j s' t cfg k x at_ hjob hs hcfg hk hx hat hon htaken hwin
    exact exec_chirpWindowEnd h tile bank ch hjob ((State.chirpStep_window hs hcfg hk hx hat hon htaken).trans hwin)
  · intro ctl cfg x hctl hcfg hx
    rw [exec_chirpSyncTimeout h, exec_chirpCandidateExpire h, State.chirpTimeout_eq hctl hcfg hx,
      State.chirpExpire_eq hctl hcfg hx]
    refine ⟨fun hover => ?_, fun hin hset => ?_, fun hexp => ?_, fun hheld hset => ?_⟩
    · rw [if_pos hover]
    · rw [hin, if_neg Bool.false_ne_true, finish_self s hset]
    · rw [if_pos hexp]
    · rw [hheld, if_neg Bool.false_ne_true, finish_self s hset]
  · intro val v1 v2 a t ha hv1 hv2 ht
    rw [exec_chCfgWrite h, State.writeChCfg_eq ha hv1 hv2 ht]
    refine ⟨fun hkept => ?_, fun hoff hon => ?_⟩
    · rw [if_neg (by rcases hkept with hk | hk <;> simp [hk])]
    · rw [if_pos (by simp [hoff, hon])]
  -- counter clears
  · exact (s.cleared_clearRegs _ _ _).outcome hset (exec_clusCntClrNumeric h cl)
  · exact (s.cleared_clearRegs _ _ _).outcome hset (exec_clusCntClrActivity h cl)
  · exact (s.cleared_clearRegs _ _ _).outcome hset (exec_clusCntClrResidue h cl)
  · exact (s.cleared_clearRegs _ _ _).outcome hset (by rw [exec_dspCntClr h, State.dspClear_counters s _ hval])
  · rw [exec_dspCntClr h, State.dspClear_none s _ hval, finish_self s hset]
  · exact (s.cleared_clearRegs _ _ _).outcome hset (by rw [exec_accelCntClrJobs h, State.accelClear_jobs])
  · exact (s.cleared_foldl_clearRegs _ _ _ _).outcome hset (by rw [exec_accelCntClrBanks h, State.accelClear_banks])

end Sys2Proof.Machine
end

section
/-! SUPPORT. What starting, comparing, going on, asking witnesses and taking over do, case by case, and the statement about the
pairing of an understudy. -/

namespace Sys2Proof.Machine

/-! ## The registers of a pairing (R203 to R205) -/

section
variable (s : State)

/-- A store in a register of a page leaves the others of the page. -/
theorem State.setPr_pr_other (k : PageKind) (i : Nat) {off off' : Nat} (v : Word) (h : off' ≠ off) :
    (s.setPr k i off v).pr k i off' = s.pr k i off' :=
  s.setRg_rg_other v (by omega)

/-- The comparison's counters are not in `PG_ERR_INFO` of a pairing source. -/
theorem State.bump_undInfo {off : Nat} (n : Nat) (hctrl : 0x094 ≠ off) (hpeer : 0x098 ≠ off) :
    (s.bump .chip 0 off n).undInfo = s.undInfo := by
  simp only [State.undInfo, State.undFn, State.undPeer, State.bump, State.setPr_pr_other _ _ _ _ hctrl,
    State.setPr_pr_other _ _ _ _ hpeer]

end

/-! ## Starting and ending a pairing (R196, R363) -/

section
variable {s t : State}

section
variable (hnone : s.und.st = .none)
  (ht : t = ({ s with und := { st := .syncing, current := true } } : State).setPr .chip 0 0x0A4 0)
include hnone ht

theorem State.undStart_understudy (hrole : s.undRole = 2) (hrole' : t.undRole = 2) : s.undStart = t := by
  subst ht
  rw [State.undStart, if_neg (by simp [hnone, hrole])]
  exact if_neg (by rw [hrole']; decide)

/-- The lead mirrors the generation, the seeds of the raw streams, then the records of the prompt book. -/
theorem State.undStart_lead {u v : State} (hrole : s.undRole = 1) (hrole' : t.undRole = 1)
    (hu : u = t.mirrorC t.undFn (genBytes (t.fnOf t.undFn).gen))
    (hv : v = (u.work.items.filter fun (p : Nat × Item) => p.2.fn == t.undFn && p.2.kind == 2).foldl (fun s p =>
      s.mirrorC t.undFn (p.2.seedRec).bytes) u) :
    s.undStart = (v.work.book.filter fun r => r.fn == t.undFn).foldl (fun s r => s.mirrorC t.undFn r.bytes) v := by
  subst ht hu hv
  rw [State.undStart, if_neg (by simp [hnone, hrole])]
  exact if_pos hrole'

end

theorem State.undStart_unpaired (h : s.und.st ≠ .none ∨ (s.undRole ≠ 1 ∧ s.undRole ≠ 2)) : s.undStart = s := if_pos h

theorem State.undEnd_keeps_items (h : s.compareOnly s.undFn = false) : s.undEnd = { s with und := {} } := by
  rw [State.undEnd, h, if_neg Bool.false_ne_true]

/-- Where the shard was compare-only, its items end with the pairing. -/
theorem State.undEnd_drops_items (h : s.compareOnly s.undFn = true) :
    s.undEnd = { s.dropItems s.undFn with und := {} } := by
  rw [State.undEnd, if_pos h]

end

/-! ## Comparing (R198, R199) -/

section
variable {s t : State} {q k : Nat} {x y : BitVec 256}

/-- Two digests of a task are taken, and what follows is decided by whether they are equal. -/
theorem State.compareDigest_pair (hlead : s.und.lead = [(q, k, x)]) (hown : s.und.own = [(q, k, y)])
    (ht : t = { s with und := { s.und with lead := [], own := [] } }) :
    s.compareDigest q k =
      if x = y then
        let u := (t.bump .chip 0 0x0A4 1).bump .chip 0 0x0AC 1
        if !u.und.promoted ∧ (u.pr .chip 0 0x0A0).toNat ≤ (u.pr .chip 0 0x0A4).toNat then
          ({ u with und := { u.und with promoted := true } } : State).raise (pageAt .chip 0) 0x15 u.undInfo
        else u
      else ((t.setPr .chip 0 0x0A4 0).bump .chip 0 0x0A8 1).break.raise (pageAt .chip 0) 0x11 t.undInfo := by
  subst ht
  simp [State.compareDigest, hlead, hown, dropFirst]

theorem State.break_current (s : State) : s.break.und.current = false := by
  unfold State.break
  split <;> rfl

theorem State.break_st (h : s.und.st = .syncing ∨ s.und.st = .mirroring) : s.break.und.st = .broken := by
  rw [State.break, if_pos h]

end

/-! ## A lead that is gone (R196, R200, R201) -/

section
variable {s : State}

theorem State.leadGone_mirrored (hrole : s.undRole = 2) (hst : s.und.st = .mirroring) (hcur : s.und.current = true) :
    s.leadGone = s.goOn := by
  simp [State.leadGone, hrole, hst, hcur]

theorem State.leadGone_stale (hrole : s.undRole = 2)
    (hst : s.und.st = .mirroring ∨ s.und.st = .syncing ∨ s.und.st = .broken) (hcur : s.und.current = false) :
    s.leadGone = s.undAbandon := by
  rcases hst with hst | hst | hst <;> simp [State.leadGone, hrole, hst, hcur]

theorem State.leadGone_other (hrole : s.undRole ≠ 2) : s.leadGone = s := if_pos hrole

end

/-! ## Notes and responses that arrive (R347, R352, R353) -/

section
variable {s : State} {h : FabHdr} {vc slots : Nat} {m : OutMsg} {f : State → State}
  (hon : fld (s.pr .fabric 0 0x044) 0 1 = 1)
include hon

theorem State.takeResp_mine (hmine : s.isMine h.dst.val = true) : s.takeResp h vc slots m f = f (s.hear h.src.val) := by
  simp [State.takeResp, hon, hmine]

theorem State.takeResp_forwarded (hmine : s.isMine h.dst.val = false) (hfwd : fld (s.pr .fabric 0 0x044) 2 1 = 1) {l : Nat}
    (hl : s.linkFor h.dst.val h.off.toNat h.fpid.toNat h.attempt.toNat = some l) :
    s.takeResp h vc slots m f = (s.linkSend l { vc := vc, slots := slots, msg := m }).bump64 .fabric 0 0x0A8 1 := by
  simp [State.takeResp, hon, hmine, hfwd, hl]

end

/-! ## Witnesses (R364) -/

/-- Witness `i` is asked, if one is configured. -/
def State.askWitness (s : State) (i : Nat) : State :=
  match s.witness i with
  | some n => s.note 1 n s.node s.undPeer
  | none => s

section
variable {s t : State} {i : Nat}

theorem State.askWitness_some {w : Nat} (h : s.witness i = some w) : s.askWitness i = s.note 1 w s.node s.undPeer := by
  rw [State.askWitness, h]

theorem State.askWitness_none (h : s.witness i = none) : s.askWitness i = s := by
  rw [State.askWitness, h]

theorem State.suspectLead_asks (hcmp : s.compareOnly s.undFn = true) (hsilent : s.heardFrom s.undPeer = false)
    (ht : t = { s with und := { s.und with suspect := true, answers := [] } }) :
    s.suspectLead = (t.askWitness 0).askWitness 1 := by
  subst ht
  rw [State.suspectLead, hcmp, hsilent]
  rfl

end

/-! ## The commands -/

section
variable {s : State} (h : s.awake = true)
include h

theorem exec_undStart : exec .undStart s = .next (s.finish s.undStart) :=
  (show exec .undStart s = execUndStart s from rfl).trans (perform_awake h)

theorem exec_undEnd : exec .undEnd s = .next (s.finish s.undEnd) :=
  (show exec .undEnd s = execUndEnd s from rfl).trans (perform_awake h)

theorem exec_undSyncComplete (hst : s.und.st = .syncing) (hdone : s.undRole = 2 ∨ s.synced = true) :
    exec .undSyncComplete s = .next (s.finish { s with und := { s.und with st := .mirroring } }) := by
  refine (show exec .undSyncComplete s = execUndSyncComplete s from rfl).trans ((perform_awake h).trans ?_)
  rw [if_pos ⟨hst, hdone⟩]

theorem exec_undDigestCompare (q : BitVec 64) (k : Fin 4096) (hcmp : s.compareOnly s.undFn = true) :
    exec (.undDigestCompare q k) s = .next (s.finish (s.compareDigest q.toNat k.val)) := by
  refine (show exec (.undDigestCompare q k) s = execUndDigestCompare q k s from rfl).trans ((perform_awake h).trans ?_)
  rw [if_pos hcmp]

theorem exec_undGoOn : exec .undGoOn s = .next (s.finish s.leadGone) :=
  (show exec .undGoOn s = execUndGoOn s from rfl).trans (perform_awake h)

/-- This end's heartbeat leaves while a pairing is on. -/
theorem exec_mirrorHeartbeat_own (hnone : s.und.st ≠ .none) (hab : s.und.st ≠ .abandoned) :
    exec (.mirrorHeartbeat none) s = .next (s.finish (s.note 0 s.undPeer s.node s.undFn)) := by
  refine (show exec (.mirrorHeartbeat none) s = execMirrorHeartbeat none s from rfl).trans ((perform_awake h).trans ?_)
  simp only [hnone, hab, or_self, if_false]

theorem exec_mirrorHeartbeat_arrives (g : FabHdr) : exec (.mirrorHeartbeat (some g)) s =
    .next (s.finish (s.takeResp g 3 3 (.note 0 g.dst.val g.src.val 0) id)) :=
  (show exec (.mirrorHeartbeat (some g)) s = execMirrorHeartbeat (some g) s from rfl).trans (perform_awake h)

theorem exec_leadSuspect : exec .leadSuspect s = .next (s.finish s.suspectLead) :=
  (show exec .leadSuspect s = execLeadSuspect s from rfl).trans (perform_awake h)

theorem exec_witnessQuery (asker lead : Fin 16384) : exec (.witnessQuery asker lead) s =
    .next (s.finish ((s.hear asker.val).note 2 asker.val lead.val (bn (s.heardFrom lead.val)))) :=
  (show exec (.witnessQuery asker lead) s = execWitnessQuery asker lead s from rfl).trans (perform_awake h)

section
variable {w : Fin 2} (hsus : s.und.suspect = true) (hw : (s.witness w.val).isSome = true)
include hsus hw

theorem exec_witnessAnswer_silent : exec (.witnessAnswer w false) s =
    .next (s.finish { s with und := { s.und with answers := Tbl.put s.und.answers w.val false } }) := by
  refine (show exec (.witnessAnswer w false) s = execWitnessAnswer w false s from rfl).trans ((perform_awake h).trans ?_)
  rw [if_pos ⟨hsus, hw⟩]
  rfl

theorem exec_witnessAnswer_heard : exec (.witnessAnswer w true) s = .next (s.finish
    ({ s with und := { s.und with answers := Tbl.put s.und.answers w.val true, suspect := false } } : State).break) := by
  refine (show exec (.witnessAnswer w true) s = execWitnessAnswer w true s from rfl).trans ((perform_awake h).trans ?_)
  rw [if_pos ⟨hsus, hw⟩]
  rfl

end

theorem exec_undLeadLost (hall : s.allSilent = true) : exec .undLeadLost s =
    .next (s.finish ({ s with und := { s.und with suspect := false } } : State).leadGone) := by
  refine (show exec .undLeadLost s = execUndLeadLost s from rfl).trans ((perform_awake h).trans ?_)
  rw [if_pos hall]

section
variable (l : Option (Fin 48)) {lead und : Fin 16384}

/-- A notice that was acted on before does nothing. -/
theorem exec_takeoverNotice_again (hin : s.fab.takeovers.contains (lead.val, und.val) = true) :
    exec (.takeoverNotice l lead und) s = .next (s.finish s) := by
  refine (show exec (.takeoverNotice l lead und) s = execTakeoverNotice l lead und s from rfl).trans
    ((perform_awake h).trans ?_)
  simp only [hin, or_true, if_true]

/-- A new notice is recorded and goes on, then what the lead has not acknowledged is sent again. -/
theorem exec_takeoverNotice_new {t u : State} (hen : fld (s.pr .fabric 0 0x044) 1 1 = 1)
    (hnew : s.fab.takeovers.contains (lead.val, und.val) = false)
    (ht : t = { s with fab := { s.fab with
      takeovers := (lead.val, und.val) :: s.fab.takeovers, moved := Tbl.put s.fab.moved lead.val und.val } })
    (hu : u = (List.range 48).foldl (fun s k =>
      if s.linkActive k ∧ l.map (·.val) ≠ some k then
        s.linkSend k { vc := 3, slots := 3, msg := .note 3 lead.val lead.val und.val } else s) t) :
    exec (.takeoverNotice l lead und) s = .next (s.finish
      (((u.renumber lead.val).bump .fabric 0 0x094 1).raise (pageAt .fabric 0) 4 (fabInfo lead.val 63))) := by
  refine (show exec (.takeoverNotice l lead und) s = execTakeoverNotice l lead und s from rfl).trans
    ((perform_awake h).trans ?_)
  simp only [hen, hnew, Bool.false_eq_true, Nat.one_ne_zero, or_self, if_false, hu, ht]

end

end

/-! ## The statement -/

/-- Settles O51: each command by the rules above. -/
theorem understudyPairing : Obligations.UnderstudyPairing := by
  refine fun s h => ⟨?_, ?_, ?_, ?_, ?_, ?_, ?_, ?_, ?_, ?_, ?_, ?_, ?_, ?_, ?_, ?_⟩
  -- starting and ending
  · intro hnone hrole hrole'
    rw [exec_undStart h, State.undStart_understudy hnone rfl hrole hrole']
  · intro t u v hnone hrole ht hu hv hrole'
    rw [exec_undStart h, State.undStart_lead hnone ht hrole hrole' hu hv]
  · intro hun hset
    rw [exec_undStart h, State.undStart_unpaired hun, finish_self s hset]
  · intro hcmp
    rw [exec_undEnd h, State.undEnd_keeps_items hcmp]
  · intro hcmp
    rw [exec_undEnd h, State.undEnd_drops_items hcmp]
  · exact exec_undSyncComplete h
  -- comparing
  · intro q k x y t u hcmp hlead hown ht
    rw [exec_undDigestCompare h q k hcmp, State.compareDigest_pair hlead hown ht]
    refine ⟨fun heq hu => ?_, fun hne w hu hw => ⟨?_, fun hst => ?_, ?_⟩⟩
    · have hinfo : u.undInfo = s.undInfo := by
        rw [hu, State.bump_undInfo _ _ (by decide) (by decide), State.bump_undInfo _ _ (by decide) (by decide), ht]
        rfl
      simp only [if_pos heq, ← hu, ← hinfo]
      refine ⟨fun hless => ?_, fun hmore hprom => ?_⟩
      · rw [if_neg]
        rintro ⟨hprom, hmore⟩
        rcases hless with hless | hprom'
        · omega
        · simp [hprom'] at hprom
      · rw [if_pos ⟨by simp [hprom], hmore⟩]
    · rw [hw, State.break_current]
    · rw [hw, State.break_st (by rw [hu, ht]; exact hst)]
    · rw [if_neg hne, hw, hu]
  -- going on and abandoning
  · rw [exec_undGoOn h]
    refine fun hrole => ⟨fun hst hcur => ?_, fun hst hcur => ?_⟩
    · rw [State.leadGone_mirrored hrole hst hcur]
    · rw [State.leadGone_stale hrole hst hcur]
  · intro hrole hset
    rw [exec_undGoOn h, State.leadGone_other hrole, finish_self s hset]
  -- heartbeats
  · exact exec_mirrorHeartbeat_own h
  · intro g hon
    rw [exec_mirrorHeartbeat_arrives h]
    refine ⟨fun hmine => ?_, fun hmine hfwd l hl => ?_⟩
    · rw [State.takeResp_mine hon hmine, id]
    · rw [State.takeResp_forwarded hon hmine hfwd hl]
  -- witnesses
  · intro t u ht hcmp hsilent
    rw [exec_leadSuspect h, State.suspectLead_asks hcmp hsilent ht]
    refine ⟨fun w hw hu => ?_, fun hno => ?_⟩
    · rw [State.askWitness_some hw, ← hu]
      exact ⟨fun x hx => by rw [State.askWitness_some hx], fun hx => by rw [State.askWitness_none hx]⟩
    · rw [State.askWitness_none hno]
      exact ⟨fun x hx => by rw [State.askWitness_some hx], fun hx => by rw [State.askWitness_none hx]⟩
  · exact exec_witnessQuery h
  · rintro w t hsus hw
    exact ⟨fun ht => ht ▸ exec_witnessAnswer_silent h hsus hw, fun ht => ht ▸ exec_witnessAnswer_heard h hsus hw⟩
  · intro t hall ht hrole hst hcur
    rw [exec_undLeadLost h hall, ← ht, State.leadGone_mirrored (ht ▸ hrole) (ht ▸ hst) (ht ▸ hcur)]
  -- takeovers
  · intro l lead und t u hen
    refine ⟨fun hin hset => ?_, fun hnew ht hu => ?_⟩
    · rw [exec_takeoverNotice_again h l hin, finish_self s hset]
    · exact exec_takeoverNotice_new h l hen hnew ht hu

end Sys2Proof.Machine
end

section
/-! SUPPORT. Convergent rounding, saturation and reversed bits in the arithmetic of a radio DSP core, and the statement about
address modifiers. -/

namespace Sys2Proof.Machine

/-! ## Convergent rounding and saturation (R218) -/

section
variable (x : Int) {n : Nat}

theorem cround_zero : cround x 0 = x := rfl

/-- Rounding up adds what the remainder lacks, rounding down takes the remainder away. -/
theorem cround_cases (hn : 0 < n) :
    (2 ^ n < 2 * (x % 2 ^ n) ∨ (2 * (x % 2 ^ n) = 2 ^ n ∧ x / 2 ^ n % 2 = 1)) ∧ cround x n = x / 2 ^ n + 1
    ∨ (2 * (x % 2 ^ n) < 2 ^ n ∨ (2 * (x % 2 ^ n) = 2 ^ n ∧ x / 2 ^ n % 2 = 0)) ∧ cround x n = x / 2 ^ n := by
  have hhalf : (2 : Int) ^ n = 2 * 2 ^ (n - 1) := by rw [← pow_succ', Nat.sub_add_cancel hn]
  rw [cround, if_neg (Nat.ne_of_gt hn)]
  dsimp only
  push_cast
  split_ifs with hup
  · exact .inl ⟨by omega, rfl⟩
  · exact .inr ⟨by omega, rfl⟩

/-- The result is within half a unit, and even at half a unit. -/
theorem cround_nearest (hn : 0 < n) :
    2 * (cround x n * 2 ^ n - x).natAbs ≤ 2 ^ n
      ∧ (2 * (cround x n * 2 ^ n - x).natAbs = 2 ^ n → cround x n % 2 = 0) := by
  have hdiv : x / 2 ^ n * 2 ^ n + x % 2 ^ n = x := Int.ediv_mul_add_emod x (2 ^ n)
  have hlo : 0 ≤ x % 2 ^ n := Int.emod_nonneg x (by positivity)
  have hhi : x % 2 ^ n < 2 ^ n := Int.emod_lt_of_pos x (by positivity)
  have hcast : ((2 ^ n : Nat) : Int) = 2 ^ n := by push_cast; rfl
  obtain ⟨hup, hc⟩ | ⟨hdown, hc⟩ := cround_cases x hn
  · have hdiff : cround x n * 2 ^ n - x = 2 ^ n - x % 2 ^ n := by rw [hc, add_one_mul]; omega
    rw [hdiff, hc]
    omega
  · have hdiff : cround x n * 2 ^ n - x = -(x % 2 ^ n) := by rw [hc]; omega
    rw [hdiff, hc]
    omega

theorem sat16_eq : sat16 x = (max (-32768) (min 32767 x), decide (x < -32768 ∨ 32767 < x)) := by
  have hval : clampInt (-32768) 32767 x = max (-32768) (min 32767 x) := by
    unfold clampInt
    split_ifs <;> omega
  rw [sat16, hval, Bool.decide_or]

theorem satParts_eq (l : List Int) : satParts l =
    (l.map fun x => max (-32768) (min 32767 x), l.any fun x => decide (x < -32768 ∨ 32767 < x)) := by
  simp only [satParts, sat16_eq]

end

/-! ## Reversed bits and modifiers (R213) -/

theorem revBits_succ (k x : Nat) : revBits (k + 1) x = 2 * revBits k x + bn (bit x k) := by
  rw [revBits, List.range_succ, List.foldl_append]
  rfl

theorem bn_bit (x i : Nat) : bn (bit x i) = (x.testBit i).toNat := by
  rw [bn, bit, bits, pow_one, Nat.testBit_eq_decide_div_mod_eq]
  by_cases h : x / 2 ^ i % 2 = 1 <;> simp [h]

theorem testBit_revBits {k i : Nat} (x : Nat) (h : i < k) : (revBits k x).testBit i = x.testBit (k - 1 - i) := by
  induction k generalizing i with
  | zero => omega
  | succ k ih =>
    rw [revBits_succ, bn_bit]
    cases i with
    | zero => cases hx : x.testBit k <;> simp [hx, Nat.testBit_zero]
    | succ i =>
      rw [Nat.testBit_succ, show (2 * revBits k x + (x.testBit k).toNat) / 2 = revBits k x by
        have := Bool.toNat_lt (x.testBit k); omega, ih (by omega)]
      congr 1
      omega

theorem revBits_lt (k x : Nat) : revBits k x < 2 ^ k := by
  induction k with
  | zero => exact Nat.one_pos
  | succ k ih =>
    have := Bool.toNat_lt (x.testBit k)
    rw [revBits_succ, bn_bit, pow_succ]
    omega

theorem ceilLog2_eq {l k : Nat} (hk : 1 ≤ k) (hlo : 2 ^ (k - 1) < l) (hhi : l ≤ 2 ^ k) : ceilLog2 l = k := by
  have hpos : 0 < 2 ^ (k - 1) := Nat.two_pow_pos _
  have hlog : Nat.log2 (l - 1) = k - 1 := (Nat.log2_eq_iff (by omega)).2 ⟨by omega, by rw [Nat.sub_add_cancel hk]; omega⟩
  rw [ceilLog2, if_neg (by omega), hlog, Nat.sub_add_cancel hk]

section
variable {pn m : Nat}

theorem modUpdate_linear (hmode : bits m 30 2 = 0) :
    (modUpdate pn m : Int) = ((pn : Int) + signed 16 (bits m 0 16)) % 2 ^ 32 := by
  simp only [modUpdate, hmode]
  exact Int.toNat_of_nonneg (Int.emod_nonneg _ (by decide))

theorem modUpdate_modulo {l k b : Nat} (hmode : bits m 30 2 = 1) (hl : l = 8 * bits m 16 14) (hpos : 0 < l) (hhi : l ≤ 2 ^ k)
    (hlo : 2 ^ (k - 1) < l) (hk : 1 ≤ k) (hb : b = pn - pn % 2 ^ k) :
    (modUpdate pn m : Int) = (b + ((pn : Int) - b + signed 16 (bits m 0 16)) % l) % 2 ^ 32 := by
  have hbase : pn / 2 ^ k * 2 ^ k = b := by rw [hb, Nat.div_mul_self_eq_mod_sub_self]
  simp only [modUpdate, hmode, ← hl, ceilLog2_eq hk hlo hhi, hbase]
  push_cast
  rw [Int.toNat_of_nonneg (Int.emod_nonneg _ (by omega))]

theorem modUpdate_bitReverse {k : Nat} (hmode : bits m 30 2 = 2) (hk : k = bits m 16 5) :
    modUpdate pn m = pn - pn % 2 ^ k
      + revBits k (revBits k (pn % 2 ^ k) + revBits k ((signed 16 (bits m 0 16) % 2 ^ k).toNat)) % 2 ^ k := by
  simp only [modUpdate, hmode, ← hk, unsigned, Nat.div_mul_self_eq_mod_sub_self]
  push_cast
  rfl

/-- Modes 3, a modulo buffer of length 0, and bit-reversal of no bit or of more than 17 may not be used. -/
theorem modOk_eq_false (h : bits m 30 2 = 3 ∨ (bits m 30 2 = 1 ∧ bits m 16 14 = 0)
    ∨ (bits m 30 2 = 2 ∧ (bits m 16 5 = 0 ∨ 17 < bits m 16 5))) : modOk m = false := by
  obtain h | ⟨h, hl⟩ | ⟨h, hk⟩ := h
  · simp only [modOk, h]
  · simp [modOk, h, hl]
  · rw [modOk, h]
    simp only [Bool.and_eq_false_iff, decide_eq_false_iff_not]
    omega

end

/-- A bundle one of whose memory syllables uses a modifier that may not be used is illegal (R211). -/
theorem State.illegal_of_modifier (s : State) {k : Nat} (slot : Fin 4) {w : Nat} (hw : w = s.bundleSyl k slot.val)
    (hmem : opMem (sOp w) = true) (hform : sForm w = 2) (hmod : modOk ((s.coreOf k).mv (sMm w)) = false) :
    s.illegal k = true := by
  have hslot : slot.val ∈ [0, 1, 2, 3] := by
    have := slot.isLt
    simp only [List.mem_cons, List.not_mem_nil, or_false]
    omega
  refine List.any_eq_true.2 ⟨slot.val, hslot, ?_⟩
  dsimp only
  rw [← hw, hmem, hform, hmod]
  simp

/-- Settles O31, mode by mode. -/
theorem addressModifiers : Obligations.AddressModifiers := by
  refine ⟨fun _ _ => modUpdate_linear, ?_, fun _ _ _ => modUpdate_bitReverse, fun _ x _ => testBit_revBits x, revBits_lt,
    by decide, ?_⟩
  · exact fun pn m l k b hmode hl hpos hhi hlo hk hb _ => modUpdate_modulo hmode hl hpos hhi hlo hk hb
  · intro s k slot w m hw hlo hhi hform hm hbad
    exact s.illegal_of_modifier slot hw (by simp [opMem, hlo, hhi]) hform (hm ▸ modOk_eq_false hbad)

end Sys2Proof.Machine
end

section
/-! SUPPORT. What the issue of a syllable of a radio DSP core leaves, from the effect of its code on results and memory and from
what it does to the control of the core, and the statements about the syllables. -/

namespace Sys2Proof.Machine

/-! ## The cores under the fetch of a bundle (R208, R228) -/

@[simp] theorem State.raise_dsp (s : State) (p : Page) (i : Nat) (info : Word) : (s.raise p i info).dsp = s.dsp := by
  rw [State.reports_raise s p i info]

/-- Checking words of the memories changes no core. -/
theorem State.dspCheck_dsp (s : State) (k a n : Nat) : (s.dspCheck k a n).1.dsp = s.dsp := by
  unfold State.dspCheck
  split
  · rfl
  · refine foldl_keeps (fun t : State => t.dsp = s.dsp) _ _ _ rfl ?_
    intro t f ht
    dsimp only
    split
    · rw [State.raise_dsp, ht]
    · split
      · rw [State.raise_dsp, ht]
      · exact ht

theorem State.dspCheck_coreOf (s : State) (k a n j : Nat) : (s.dspCheck k a n).1.coreOf j = s.coreOf j := by
  rw [State.coreOf, State.dspCheck_dsp, State.coreOf]

section
variable {s : State} {k : Nat}

/-- A bundle that nothing stops has its words checked at most. -/
theorem State.bundleStop_of_runs (h : (s.bundleStop k).2 = false) :
    (s.bundleStop k).1 = s ∨ (s.bundleStop k).1 = (s.dspCheck k (dspAddr k (0x40000 + (s.coreOf k).pc)) 16).1 := by
  revert h
  simp only [State.bundleStop]
  split -- whether the bundle has begun to issue
  · exact fun _ => .inl rfl
  split -- whether its words can be used
  · exact nofun
  split -- whether it is illegal
  · exact nofun
  split -- whether an address lies outside the data memories
  · exact nofun
  split -- whether the sentinel traps
  · exact nofun
  split -- whether the mover's queue is full
  · exact nofun
  · exact fun _ => .inr rfl

theorem State.bundleStop_coreOf (h : (s.bundleStop k).2 = false) : (s.bundleStop k).1.coreOf k = s.coreOf k := by
  obtain h | h := State.bundleStop_of_runs h
  · rw [h]
  · rw [h, State.dspCheck_coreOf]

end

/-! ## The effect of each code (R210) -/

section
variable {d : DspCore} {w base : Nat}

/-- NOP and the control syllables but MOVL, CALL and SETIM have no result. -/
theorem DspCore.effect_none {op : Nat} (h : sOp w = op)
    (hop : op ∈ [0, 0x20, 0x21, 0x23, 0x24, 0x26, 0x27, 0x28, 0x29, 0x2A]) : d.effect w base = {} := by
  subst h
  simp only [List.mem_cons, List.not_mem_nil, or_false] at hop
  obtain h | h | h | h | h | h | h | h | h | h := hop <;> simp only [DspCore.effect, h]

/-- The lane products that an accumulator adds. -/
theorem DspCore.effect_accumulate {op : Nat} (h : sOp w = op) (hop : op = 1 ∨ op = 2 ∨ op = 3) {prods : List (Int × Int)}
    (hprods : d.prods w = prods) : d.effect w base =
      ⟨[(1, .ac, sD w, (accumulate40 (d.av (sD w)) prods).1)], none, false, (accumulate40 (d.av (sD w)) prods).2⟩ := by
  subst h hprods
  obtain h | h | h := hop <;> simp only [DspCore.effect, h]

/-- Products of equal lanes, where no lane is broadcast and nothing conjugated. -/
theorem DspCore.prods_plain (hconj : sOp w ≠ 2) (hcast : sOp w ≠ 3) : d.prods w =
    (List.range 8).map fun i => cmulParts (laneOf (d.dv (sA w)) i) (laneOf (d.dv (sB w)) i) := by
  simp only [DspCore.prods, if_neg hconj, if_neg hcast]

theorem DspCore.prods_conj (h : sOp w = 2) : d.prods w = (List.range 8).map fun i =>
    cmulParts (laneOf (d.dv (sA w)) i) ((laneOf (d.dv (sB w)) i).1, -(laneOf (d.dv (sB w)) i).2) := by
  simp [DspCore.prods, h]

theorem DspCore.prods_broadcast (h : sOp w = 3) : d.prods w = (List.range 8).map fun i =>
    cmulParts (laneOf (d.dv (sA w)) i) (laneOf (d.dv (sB w)) (bits w 6 3)) := by
  simp [DspCore.prods, h]

theorem DspCore.effect_cmul (h : sOp w = 5) {parts : List Int} (hparts : parts = (d.prods w).flatMap fun p =>
      [cround p.1 15, cround p.2 15]) :
    d.effect w base = ⟨[(2, .d, sD w, packParts 16 (satParts parts).1)], none, (satParts parts).2, false⟩ := by
  simp only [DspCore.effect, h, hparts]

theorem DspCore.effect_rnd (h : sOp w = 6) {parts : List Int} (hparts : parts = (partsOf 40 16 (d.av (sA w))).map fun x =>
      cround x (sSh w)) :
    d.effect w base = ⟨[(2, .d, sD w, packParts 16 (satParts parts).1)], none, (satParts parts).2, false⟩ := by
  simp only [DspCore.effect, h, hparts]

theorem DspCore.effect_vadd (h : sOp w = 8) {parts : List Int} (hparts : parts =
      ((partsOf 16 16 (d.dv (sA w))).zip (partsOf 16 16 (d.dv (sB w)))).map fun p => p.1 + p.2) :
    d.effect w base = ⟨[(1, .d, sD w, packParts 16 (satParts parts).1)], none, (satParts parts).2, false⟩ := by
  simp only [DspCore.effect, h, hparts]

theorem DspCore.effect_vsub (h : sOp w = 9) {parts : List Int} (hparts : parts =
      ((partsOf 16 16 (d.dv (sA w))).zip (partsOf 16 16 (d.dv (sB w)))).map fun p => p.1 - p.2) :
    d.effect w base = ⟨[(1, .d, sD w, packParts 16 (satParts parts).1)], none, (satParts parts).2, false⟩ := by
  simp only [DspCore.effect, h, hparts]

theorem DspCore.effect_acclr (h : sOp w = 4) : d.effect w base = ⟨[(1, .ac, sD w, 0)], none, false, false⟩ := by
  simp only [DspCore.effect, h]

theorem DspCore.effect_vand (h : sOp w = 0x0A) :
    d.effect w base = ⟨[(1, .d, sD w, d.dv (sA w) &&& d.dv (sB w))], none, false, false⟩ := by
  simp only [DspCore.effect, h]

theorem DspCore.effect_vor (h : sOp w = 0x0B) :
    d.effect w base = ⟨[(1, .d, sD w, d.dv (sA w) ||| d.dv (sB w))], none, false, false⟩ := by
  simp only [DspCore.effect, h]

theorem DspCore.effect_vxor (h : sOp w = 0x0C) :
    d.effect w base = ⟨[(1, .d, sD w, d.dv (sA w) ^^^ d.dv (sB w))], none, false, false⟩ := by
  simp only [DspCore.effect, h]

theorem DspCore.effect_vshr (h : sOp w = 0x0D) {parts : List Int} (hparts : parts =
      (partsOf 16 16 (d.dv (sA w))).map fun x => x / ((2 ^ sSh w : Nat) : Int)) :
    d.effect w base = ⟨[(1, .d, sD w, packParts 16 parts)], none, false, false⟩ := by
  simp only [DspCore.effect, h, hparts]

theorem DspCore.effect_ld (h : sOp w = 0x10) : d.effect w base =
    ⟨d.pnUpdate w, some (false, base + d.ea w / 32 * 32, 32, 0, .d, sD w), false, false⟩ := by
  simp only [DspCore.effect, h]

theorem DspCore.effect_st (h : sOp w = 0x11) : d.effect w base =
    ⟨d.pnUpdate w, some (true, base + d.ea w / 32 * 32, 32, d.dv (sD w), .d, 0), false, false⟩ := by
  simp only [DspCore.effect, h]

theorem DspCore.effect_lda (h : sOp w = 0x12) : d.effect w base =
    ⟨d.pnUpdate w, some (false, base + d.ea w / 4 * 4, 4, 0, pmClass w, sPmIdx w), false, false⟩ := by
  simp only [DspCore.effect, h]

theorem DspCore.effect_sta (h : sOp w = 0x13) : d.effect w base =
    ⟨d.pnUpdate w, some (true, base + d.ea w / 4 * 4, 4, d.pmVal w, .p, 0), false, false⟩ := by
  simp only [DspCore.effect, h]

theorem DspCore.effect_adda (h : sOp w = 0x14) :
    d.effect w base = ⟨[(1, pmClass w, sPmIdx w, d.paImm w)], none, false, false⟩ := by
  simp only [DspCore.effect, h]

theorem DspCore.effect_moval (h : sOp w = 0x15) : d.effect w base =
    ⟨[(1, pmClass w, sPmIdx w, d.pmVal w / 65536 * 65536 + bits w 0 16)], none, false, false⟩ := by
  simp only [DspCore.effect, h]

theorem DspCore.effect_movah (h : sOp w = 0x16) : d.effect w base =
    ⟨[(1, pmClass w, sPmIdx w, d.pmVal w % 65536 + bits w 0 16 * 65536)], none, false, false⟩ := by
  simp only [DspCore.effect, h]

theorem DspCore.effect_movl (h : sOp w = 0x22) :
    d.effect w base = ⟨[(1, .lc, sLevel w, d.paImm w)], none, false, false⟩ := by
  simp only [DspCore.effect, h]

theorem DspCore.effect_call (h : sOp w = 0x25) : d.effect w base = ⟨[(1, .p, 15, d.pc + 16)], none, false, false⟩ := by
  simp only [DspCore.effect, h]

theorem DspCore.effect_setim (h : sOp w = 0x2B) :
    d.effect w base = ⟨[(1, .imask, 0, bits w 0 8)], none, false, false⟩ := by
  simp only [DspCore.effect, h]

end

/-! ## What each control code does to the control of a core (R220, R221, R224, R226, R228) -/

section
variable {d : DspCore} {w desc : Nat}

/-- MOVL, SIGNAL, SETIM and the syllables that are not of the control class leave the control of the core. -/
theorem DspCore.control_none {op : Nat} (h : sOp w = op) (hop : op < 0x20 ∨ op ∈ [0x22, 0x2A, 0x2B]) :
    d.control w desc = d := by
  subst h
  simp only [List.mem_cons, List.not_mem_nil, or_false] at hop
  unfold DspCore.control
  split
  case h_10 => rfl
  all_goals omega

theorem DspCore.control_loop (h : sOp w = 0x20) : d.control w desc = d.enterLoop w (d.lcv (sLevel w)) := by
  simp only [DspCore.control, h]

theorem DspCore.control_loopi (h : sOp w = 0x21) : d.control w desc =
    ({ d with lc := Tbl.set 0 d.lc (d.key (sLevel w)) (BitVec.ofNat 32 (bits w 8 9)) } : DspCore).enterLoop w (bits w 8 9) := by
  simp only [DspCore.control, h]

theorem DspCore.control_brkl (h : sOp w = 0x23) (hcond : d.cond w = true) : d.control w desc =
    { d.setLoop { d.loop with active := d.loop.active.take (sLevel w) } with
      target := some ((d.lev (sLevel w) + 16) % 0x10000) } := by
  simp only [DspCore.control, h, hcond, if_true]

theorem DspCore.control_br (h : sOp w = 0x24) (hcond : d.cond w = true) :
    d.control w desc = { d with target := some (d.branchTo w) } := by
  simp only [DspCore.control, h, hcond, if_true]

/-- BRKL and BR whose condition fails do nothing. -/
theorem DspCore.control_untaken {op : Nat} (h : sOp w = op) (hop : op = 0x23 ∨ op = 0x24) (hcond : d.cond w = false) :
    d.control w desc = d := by
  subst h
  obtain h | h := hop <;> simp only [DspCore.control, h, hcond, Bool.false_eq_true, if_false]

theorem DspCore.control_call (h : sOp w = 0x25) : d.control w desc = { d with target := some (d.branchTo w) } := by
  simp only [DspCore.control, h]

theorem DspCore.control_ret (h : sOp w = 0x26) :
    d.control w desc = { d with target := some (d.pv 15 % 0x10000 / 16 * 16) } := by
  simp only [DspCore.control, h]

theorem DspCore.control_rti (h : sOp w = 0x27) : d.control w desc = { d with target := some d.ira } := by
  simp only [DspCore.control, h]

theorem DspCore.control_tret (h : sOp w = 0x28) : d.control w desc = { d with tret := true, ending := some (0, 0, 0) } := by
  simp only [DspCore.control, h]

theorem DspCore.control_movb (h : sOp w = 0x29) :
    d.control w desc = { d with mover := d.mover ++ [desc + 2 ^ 256 * d.pc] } := by
  simp only [DspCore.control, h]

end

/-! ## The issue of a syllable (R208, R214) -/

/-- What the syllable of a slot does to the control of its core: slot 3 alone carries control. -/
def DspCore.steer (w slot desc : Nat) (x : DspCore) : DspCore := if slot = 3 then x.control w desc else x

/-- An issue asks for the change of control at its own core alone, where only what is in flight and what has issued differ. -/
theorem State.issueOf_congr {t : State} {k slot : Nat} (out : List (Nat × RegClass × Nat × Nat))
    (mem : Option (Bool × Nat × Nat × Nat × RegClass × Nat)) (sat ovf : Bool) {f g : DspCore → DspCore}
    (hfg : ∀ fl mq iss bun, f { t.coreOf k with flight := fl, memq := mq, issued := iss, bundle := bun }
      = g { t.coreOf k with flight := fl, memq := mq, issued := iss, bundle := bun }) :
    t.issueOf k slot out mem sat ovf f = t.issueOf k slot out mem sat ovf g := by
  simp only [State.issueOf, hfg]

section
variable {s t u : State} {k slot op w : Nat} {d : DspCore} {c : Instr} {out : List (Nat × RegClass × Nat × Nat)}
  {mem : Option (Bool × Nat × Nat × Nat × RegClass × Nat)} {sat ovf : Bool} {f : DspCore → DspCore}

theorem State.Issues.code (hi : s.Issues k slot op) (ht : t = (s.bundleStop k).1) (hw : w = t.bundleSyl k slot) :
    sOp w = op := by
  obtain ⟨-, -, -, -, hop⟩ := hi
  rw [hw, ht, hop]

theorem State.Issues.fetch_coreOf (hi : s.Issues k slot op) (ht : t = (s.bundleStop k).1) : t.coreOf k = s.coreOf k := by
  obtain ⟨-, -, -, hstop, -⟩ := hi
  rw [ht, State.bundleStop_coreOf hstop]

/-- A syllable that issues puts its effect in flight and steers its core; MOVB first reads its descriptor, and SIGNAL then
raises its line. -/
theorem State.syllable_issues (hi : s.Issues k slot op) (ht : t = (s.bundleStop k).1) (hd : d = s.coreOf k)
    (hw : w = t.bundleSyl k slot)
    (hu : (if op = 0x29 then t.dspCheck k (dspAddr k (d.pv (sPn w))) 32 else (t, true)) = (u, true))
    (he : d.effect w (dspAddr k (if slot = 3 then 0x20000 else 0)) = ⟨out, mem, sat, ovf⟩) :
    s.syllable k slot op =
      let v := u.issueOf k slot out mem sat ovf
        (DspCore.steer w slot (if op = 0x29 then u.dspMem.num (dspAddr k (d.pv (sPn w))) 32 else 0))
      if op = 0x2A then v.signal k (bits w 0 7) else v := by
  have hop : sOp w = op := hi.code ht hw
  have hcore : u.coreOf k = d := by
    have hfetch : t.coreOf k = d := by rw [hi.fetch_coreOf ht, hd]
    split_ifs at hu
    · rw [← hfetch, ← State.dspCheck_coreOf t k (dspAddr k (d.pv (sPn w))) 32 k, hu]
    · rw [← (Prod.mk.inj hu).1, hfetch]
  obtain ⟨hruns, hslot, hready, hstop, -⟩ := hi
  rw [← hd] at hruns hslot
  have hfetched : s.bundleStop k = (t, false) := Prod.ext ht.symm hstop
  simp only [State.syllable, ← hd, hruns, hslot, hready, hfetched, ← hw, hop, hu, he, State.issueOf, hcore, DspCore.steer,
    Bool.not_true, Bool.or_self, Bool.false_eq_true, if_false, ne_eq, not_true_eq_false]
  cases mem <;> rfl

/-- A syllable outside the control class issues its effect and nothing else. -/
theorem exec_computes (h : s.awake = true) (hc : exec c s = perform s fun s => s.syllable k slot op)
    (hi : s.Issues k slot op) (hop : op < 0x20) (ht : t = (s.bundleStop k).1) (hd : d = s.coreOf k)
    (hw : w = t.bundleSyl k slot)
    (he : sOp w = op → d.effect w (dspAddr k (if slot = 3 then 0x20000 else 0)) = ⟨out, mem, sat, ovf⟩) :
    exec c s = .next (s.finish (t.issueOf k slot out mem sat ovf id)) := by
  have hsop : sOp w = op := hi.code ht hw
  have hsteer : DspCore.steer w slot 0 = id := by
    funext x
    rw [DspCore.steer, DspCore.control_none hsop (.inl hop), ite_self, id]
  rw [hc, perform_awake h, State.syllable_issues hi ht hd hw (if_neg (by omega)) (he hsop)]
  simp only [if_neg (show op ≠ 0x29 by omega), if_neg (show op ≠ 0x2A by omega), hsteer]

section
variable (h : s.awake = true) (hc : exec c s = perform s fun s => s.syllable k 3 op) (hi : s.Issues k 3 op)
  (ht : t = (s.bundleStop k).1) (hd : d = s.coreOf k) (hw : w = t.bundleSyl k 3)
include h hc hi ht hd hw

/-- A control syllable issues its effect and changes the control of its core. -/
theorem exec_controls (he : sOp w = op → d.effect w (dspAddr k 0x20000) = ⟨out, none, false, false⟩) (hmovb : op ≠ 0x29)
    (hsignal : op ≠ 0x2A)
    (hf : sOp w = op → ∀ fl mq iss bun,
      DspCore.control { d with flight := fl, memq := mq, issued := iss, bundle := bun } w 0
        = f { d with flight := fl, memq := mq, issued := iss, bundle := bun }) :
    exec c s = .next (s.finish (t.issueOf k 3 out none false false f)) := by
  have hsop : sOp w = op := hi.code ht hw
  have hcore : t.coreOf k = d := by rw [hi.fetch_coreOf ht, hd]
  rw [hc, perform_awake h, State.syllable_issues hi ht hd hw (if_neg hmovb) (he hsop)]
  simp only [if_neg hmovb, if_neg hsignal]
  rw [State.issueOf_congr]
  exact hcore ▸ hf hsop

/-- A control syllable without a result changes the control of its core alone. -/
theorem exec_steers (hop : op ∈ [0x20, 0x21, 0x23, 0x24, 0x26, 0x27, 0x28])
    (hf : sOp w = op → ∀ fl mq iss bun,
      DspCore.control { d with flight := fl, memq := mq, issued := iss, bundle := bun } w 0
        = f { d with flight := fl, memq := mq, issued := iss, bundle := bun }) :
    exec c s = .next (s.finish (t.issueOf k 3 [] none false false f)) := by
  have hsub : [0x20, 0x21, 0x23, 0x24, 0x26, 0x27, 0x28] ⊆ [0, 0x20, 0x21, 0x23, 0x24, 0x26, 0x27, 0x28, 0x29, 0x2A] := by
    decide
  exact exec_controls h hc hi ht hd hw (fun hsop => DspCore.effect_none hsop (hsub hop))
    (ne_of_mem_of_not_mem hop (by decide)) (ne_of_mem_of_not_mem hop (by decide)) hf

/-- MOVB queues the descriptor that it reads, with the address of its bundle. -/
theorem exec_queues_descriptor (hop : op = 0x29) (hu : t.dspCheck k (dspAddr k (d.pv (sPn w))) 32 = (u, true)) :
    exec c s = .next (s.finish (u.issueOf k 3 [] none false false fun x =>
      { x with mover := x.mover ++ [u.dspMem.num (dspAddr k (d.pv (sPn w))) 32 + 2 ^ 256 * d.pc] })) := by
  subst hop
  have hsop : sOp w = 0x29 := hi.code ht hw
  have hcore : u.coreOf k = d := by rw [hd, ← hi.fetch_coreOf ht, ← State.dspCheck_coreOf t k _ 32 k, hu]
  rw [hc, perform_awake h, State.syllable_issues hi ht hd hw ((if_pos rfl).trans hu) (DspCore.effect_none hsop (by decide))]
  simp only [if_true, show (0x29 : Nat) ≠ 0x2A by decide, if_false]
  rw [State.issueOf_congr]
  exact hcore ▸ fun _ _ _ _ => DspCore.control_movb hsop

/-- SIGNAL raises its line once it has issued. -/
theorem exec_raises_signal (hop : op = 0x2A) :
    exec c s = .next (s.finish ((t.issueOf k 3 [] none false false id).signal k (bits w 0 7))) := by
  subst hop
  have hsop : sOp w = 0x2A := hi.code ht hw
  rw [hc, perform_awake h, State.syllable_issues hi ht hd hw (if_neg (by decide)) (DspCore.effect_none hsop (by decide))]
  simp only [if_true, show (0x2A : Nat) ≠ 0x29 by decide, if_false]
  rw [State.issueOf_congr]
  exact fun _ _ _ _ => DspCore.control_none hsop (by decide)

end

/-! ## Results that saturate (R218) -/

theorem fld_sat (st : Word) (sat : Bool) :
    fld (if sat then setFld st 3 1 1 else st) 3 1 = if sat then 1 else fld st 3 1 := by
  cases sat
  · rfl
  · exact fld_setFld_self st (x := 1) (by decide) (by decide)

/-- A result of saturated parts is in flight, and SAT is set exactly where a part was outside 16 bits. -/
theorem State.issueOf_saturates (t : State) (k slot n i : Nat) (parts : List Int) {v : State}
    (hv : v = t.issueOf k slot [(n, .d, i, packParts 16 (satParts parts).1)] none (satParts parts).2 false id) :
    (∃ fl, (v.coreOf k).flight = (t.coreOf k).flight ++ [fl] ∧ fl.cls = .d ∧ fl.idx = i
        ∧ fl.val = BitVec.ofNat 640 (packParts 16 (parts.map fun x => max (-32768) (min 32767 x))))
      ∧ fld (v.pr .rdsp k 0x048) 3 1 =
          (if parts.any (fun x => decide (x < -32768 ∨ 32767 < x)) then 1 else fld (t.pr .rdsp k 0x048) 3 1) := by
  rw [satParts_eq] at hv
  subst hv
  refine ⟨⟨_, congrArg DspCore.flight (t.setCore_coreOf k _), rfl, rfl, rfl⟩, ?_⟩
  rw [State.issueOf, State.setPr_pr]
  exact fld_sat (t.pr .rdsp k 0x048) _

/-- An operation that saturates its parts to 16 bits. -/
theorem exec_saturates {n : Nat} {parts : List Int} (h : s.awake = true)
    (hc : exec c s = perform s fun s => s.syllable k slot op) (hi : s.Issues k slot op) (hop : op < 0x20)
    (ht : t = (s.bundleStop k).1) (hd : d = s.coreOf k) (hw : w = t.bundleSyl k slot)
    (he : sOp w = op → d.effect w (dspAddr k (if slot = 3 then 0x20000 else 0)) =
      ⟨[(n, .d, sD w, packParts 16 (satParts parts).1)], none, (satParts parts).2, false⟩) :
    ∃ v, exec c s = .next (s.finish v)
      ∧ (∃ fl, (v.coreOf k).flight = d.flight ++ [fl] ∧ fl.cls = .d ∧ fl.idx = sD w
          ∧ fl.val = BitVec.ofNat 640 (packParts 16 (parts.map fun x => max (-32768) (min 32767 x))))
      ∧ fld (v.pr .rdsp k 0x048) 3 1 =
          (if parts.any (fun x => decide (x < -32768 ∨ 32767 < x)) then 1 else fld (t.pr .rdsp k 0x048) 3 1) := by
  refine ⟨_, exec_computes h hc hi hop ht hd hw he, ?_⟩
  rw [hd, ← hi.fetch_coreOf ht]
  exact t.issueOf_saturates k slot n (sD w) parts rfl

end

/-! ## The statements -/

/-- Settles O30: the rounding is within half a unit, and the four operations that saturate do it by one rule. -/
theorem convergentRounding : Obligations.ConvergentRounding := by
  refine ⟨cround_zero, fun x _ => cround_nearest x, sat16_eq, ?_⟩
  intro s t core slot c op w d parts h ht hd hw hi hcase
  obtain hrnd | hcmul | hvadd | hvsub := hcase
  · cases hrnd
    exact exec_saturates h rfl hi (by decide) ht hd hw fun hop => DspCore.effect_rnd hop rfl
  · cases hcmul
    exact exec_saturates h rfl hi (by decide) ht hd hw fun hop => DspCore.effect_cmul hop rfl
  · cases hvadd
    exact exec_saturates h rfl hi (by decide) ht hd hw fun hop => DspCore.effect_vadd hop rfl
  · cases hvsub
    exact exec_saturates h rfl hi (by decide) ht hd hw fun hop => DspCore.effect_vsub hop rfl

/-- Settles O29, syllable by syllable from the effect of its code. -/
theorem dspVectorSyllables : Obligations.DspVectorSyllables := by
  rintro s t core slot w d a b h ht hd hw rfl rfl
  refine ⟨?_, ?_, ?_, ?_, ?_, ?_, ?_, ?_, ?_, ?_, ?_, ?_, ?_⟩
  -- CMAC, CMACJ, CMACB
  · rintro hi _ rfl
    exact exec_computes h rfl hi (by decide) ht hd hw fun hop =>
      DspCore.effect_accumulate hop (by decide) (DspCore.prods_plain (by omega) (by omega))
  · rintro hi _ rfl
    exact exec_computes h rfl hi (by decide) ht hd hw fun hop =>
      DspCore.effect_accumulate hop (by decide) (DspCore.prods_conj hop)
  · rintro hi _ rfl
    exact exec_computes h rfl hi (by decide) ht hd hw fun hop =>
      DspCore.effect_accumulate hop (by decide) (DspCore.prods_broadcast hop)
  -- NOP, ACCLR
  · exact fun hi => exec_computes h rfl hi (by decide) ht hd hw fun hop => DspCore.effect_none hop (by decide)
  · exact fun hi => exec_computes h rfl hi (by decide) ht hd hw DspCore.effect_acclr
  -- CMUL, RND, VADD, VSUB
  · rintro hi _ rfl
    exact exec_computes h rfl hi (by decide) ht hd hw fun hop =>
      DspCore.effect_cmul hop (by rw [DspCore.prods_plain (by omega) (by omega), List.flatMap_map])
  · rintro hi _ rfl
    exact exec_computes h rfl hi (by decide) ht hd hw fun hop => DspCore.effect_rnd hop rfl
  · rintro hi _ rfl
    exact exec_computes h rfl hi (by decide) ht hd hw fun hop => DspCore.effect_vadd hop rfl
  · rintro hi _ rfl
    exact exec_computes h rfl hi (by decide) ht hd hw fun hop => DspCore.effect_vsub hop rfl
  -- VAND, VOR, VXOR, VSHR
  · exact fun hi => exec_computes h rfl hi (by decide) ht hd hw DspCore.effect_vand
  · exact fun hi => exec_computes h rfl hi (by decide) ht hd hw DspCore.effect_vor
  · exact fun hi => exec_computes h rfl hi (by decide) ht hd hw DspCore.effect_vxor
  · exact fun hi => exec_computes h rfl hi (by decide) ht hd hw fun hop => DspCore.effect_vshr hop rfl

/-- Settles O32, syllable by syllable from the effect of its code. -/
theorem dspMemoryAndAddressSyllables : Obligations.DspMemoryAndAddressSyllables := by
  rintro s t core slot w base p d up h - ht hd hw hbase rfl hup
  obtain rfl : base = dspAddr core.val (if slot.val = 3 then 0x20000 else 0) := hbase
  obtain rfl : up = d.pnUpdate w := hup
  refine ⟨?_, ?_, ?_, ?_, ?_, ?_, ?_⟩
  · exact fun hi => exec_computes h rfl hi (by decide) ht hd hw DspCore.effect_ld
  · exact fun hi => exec_computes h rfl hi (by decide) ht hd hw DspCore.effect_st
  · exact fun hi => exec_computes h rfl hi (by decide) ht hd hw DspCore.effect_lda
  · exact fun hi => exec_computes h rfl hi (by decide) ht hd hw DspCore.effect_sta
  · exact fun hi => exec_computes h rfl hi (by decide) ht hd hw DspCore.effect_adda
  · exact fun hi => exec_computes h rfl hi (by decide) ht hd hw DspCore.effect_moval
  · exact fun hi => exec_computes h rfl hi (by decide) ht hd hw DspCore.effect_movah

/-- Settles O33, syllable by syllable from the effect and the control of its code. -/
theorem dspControlSyllables : Obligations.DspControlSyllables := by
  rintro s t core w p d h ht hd hw rfl _ rfl
  refine ⟨?_, ?_, ?_, fun hi => ⟨fun hcond => ?_, fun hcond => ?_⟩, fun hi => ⟨fun hcond => ?_, fun hcond => ?_⟩, ?_,
    ?_, ?_, ?_, ?_, ?_, ?_⟩
  -- LOOP, LOOPI, MOVL
  · exact fun hi => exec_steers h rfl hi ht hd hw (by decide) fun hop _ _ _ _ => DspCore.control_loop hop
  · exact fun hi => exec_steers h rfl hi ht hd hw (by decide) fun hop _ _ _ _ => DspCore.control_loopi hop
  · exact fun hi => exec_controls h rfl hi ht hd hw DspCore.effect_movl (by decide) (by decide)
      fun hop _ _ _ _ => DspCore.control_none hop (by decide)
  -- BRKL and BR, taken or not
  · exact exec_steers h rfl hi ht hd hw (by decide) fun hop _ _ _ _ => DspCore.control_brkl hop hcond
  · exact exec_steers h rfl hi ht hd hw (by decide) fun hop _ _ _ _ =>
      DspCore.control_untaken hop (by decide) hcond
  · exact exec_steers h rfl hi ht hd hw (by decide) fun hop _ _ _ _ => DspCore.control_br hop hcond
  · exact exec_steers h rfl hi ht hd hw (by decide) fun hop _ _ _ _ =>
      DspCore.control_untaken hop (by decide) hcond
  -- CALL, RET, RTI, TRET
  · exact fun hi => exec_controls h rfl hi ht hd hw DspCore.effect_call (by decide) (by decide)
      fun hop _ _ _ _ => DspCore.control_call hop
  · exact fun hi => exec_steers h rfl hi ht hd hw (by decide) fun hop _ _ _ _ => DspCore.control_ret hop
  · exact fun hi => exec_steers h rfl hi ht hd hw (by decide) fun hop _ _ _ _ => DspCore.control_rti hop
  · exact fun hi => exec_steers h rfl hi ht hd hw (by decide) fun hop _ _ _ _ => DspCore.control_tret hop
  -- MOVB, SIGNAL, SETIM
  · exact fun hi u hu => exec_queues_descriptor h rfl hi ht hd hw rfl hu
  · exact fun hi => exec_raises_signal h rfl hi ht hd hw rfl
  · exact fun hi => exec_controls h rfl hi ht hd hw DspCore.effect_setim (by decide) (by decide)
      fun hop _ _ _ _ => DspCore.control_none hop (by decide)

end Sys2Proof.Machine
end

section
/-! SUPPORT. What the ends of bundles, interrupts, tasks and the block mover make of a radio DSP core, and the statement about
these events. -/

namespace Sys2Proof.Machine

/-! ## The end of a bundle (R214, R217, R220) -/

section
variable {s : State} {k : Nat}

/-- Without a taken transfer, RTI or the sentinel, the bundle ends without stall cycles where the loop levels say. -/
theorem State.endCycle_untaken {t u : State} {e l : DspCore} {next : Nat} (hplay : (s.coreOf k).playing = true)
    (hissued : (s.coreOf k).issued = 15) (hretire : s.retireCycle k = (t, true)) (he : e = t.coreOf k)
    (htarget : e.target = none) (hloop : (l, next) = e.loopBack e.depth) (hrti : sOp (s.bundleSyl k 3) ≠ 0x27)
    (hu : u = (((t.setCore k
      { l with pc := next, lastPc := e.pc, issued := 0, bundle := [], target := none, sh := e.sh, released := false,
               relIra := e.relIra }).bump .rdsp k 0x078 1).bump64 .rdsp k 0x070 1))
    (hsent : fld (u.pr .rdsp k 0x044) 0 1 = 0) : s.endCycle k = u.endCore k := by
  subst hu
  have hno : (sOp (s.bundleSyl k 3) == 0x27) = false := beq_eq_false_iff_ne.2 hrti
  simp only [State.endCycle, hplay, hissued, hretire, hno, ← he, htarget, ← hloop, Bool.not_true, bne_self_eq_false,
    Bool.or_self, Bool.false_eq_true, if_false, Bool.not_false, Bool.and_true, Bool.false_and, hsent, Nat.zero_ne_one,
    Nat.add_zero, if_true]

/-- A halted core that is released issues the trapped bundle without the sentinel's checks (R217). -/
theorem State.clearTrap_halted {d : DspCore} (hd : d = s.coreOf k) (hhalt : d.halted = true) : s.clearTrap k =
    (s.setPr .rdsp k 0x048 (setFld (s.pr .rdsp k 0x048) 5 1 0)).setCore k { d with halted := false, released := true } := by
  subst hd
  exact if_pos hhalt

/-! ## Interrupts (R222, R223) -/

theorem State.acceptIrq_accepts {d : DspCore} {n : Nat} (hd : d = s.coreOf k) (hplay : d.playing = true)
    (hhalt : d.halted = false) (hend : d.ending = none) (hissued : d.issued = 0) (hsh : d.sh = false)
    (hline : s.irqLine k = some n) : s.acceptIrq k =
      (((s.setPr .rdsp k 0x054 (setFld (s.pr .rdsp k 0x054) n 1 0)).setCore k
        { d with ira := d.pc, sh := true, pc := 0x40 * n, released := false, relIra := d.released }).bump .rdsp k 0x084 1).stall
          k 1 := by
  subst hd
  simp only [State.acceptIrq, hplay, hhalt, hend, hissued, hsh, hline, Bool.not_true, Option.isSome_none, bne_self_eq_false,
    Bool.or_self, Bool.false_eq_true, if_false]

/-! ## Tasks (R226) -/

/-- The core of a task that starts: registers cleared but for D0. -/
theorem State.startCore_starts {d : DspCore} {i t : Nat} {it : Item} {x : Task} {u : State} (hd : d = s.coreOf k)
    (hcued : s.cuedOn k = some (i, t)) (hit : s.itemOf i = some it) (hx : s.taskOf i t = some x) (hsm : s.smRuns = true)
    (halign : x.entry % 16 = 0) (hentry : x.entry < 0x10000)
    (hu : u = s.setTask i t { x with st := .playing, tStart := s.tsNow it.home }) : s.startCore k =
      (u.setPr .rdsp k 0x048 (u.pr .rdsp k 0x048 &&& ~~~0x3C)).setCore k
        { playing := true, fn := it.fn, item := i, task := t, pc := x.entry, lastPc := d.lastPc, timer := d.timer,
          d := Tbl.set 0 [] 0 (BitVec.ofNat 256 (x.seed + 2 ^ 64 * it.seqNo + 2 ^ 128 * t)) } := by
  subst hd hu
  simp only [State.startCore, hcued, hit, hx, hsm, Bool.not_true, Bool.false_eq_true, if_false]
  rw [if_pos ⟨halign, hentry⟩, Nat.mod_eq_of_lt hentry]

/-! ## The block mover (R228) -/

section
variable {raw : Nat} {t u v w : State} {b : List Byte} {d : DspCore}

/-- A copy that is made and acknowledged has its done word written, and the mover is free. -/
theorem State.moverDone_copied (hd : d = s.coreOf k) (hrun : d.moverRun = some raw) (hwrote : d.moverWrote = false)
    (hcopy : s.moverCopy k { v := d.fn, org := 6000 + k, x := 0, item := d.item, task := d.task } raw = (t, .ok b))
    (hu : u = (t.forget (6000 + k)).setCore k { t.coreOf k with moverWrote := true }) (hack : u.acked (6000 + k) 0 = true)
    (hput : u.dspPut k (dspAddr k (db raw 20 4 % 0x20000)) (leBytes 4 (db raw 24 4)) = (v, true))
    (hw : w = v.setCore k { v.coreOf k with moverRun := none, moverWrote := false }) :
    s.moverDone k = if (w.coreOf k).playing then (if bit raw 129 then w.raiseIrq k 1 else w).endCore k else w := by
  subst hd hu hw
  -- the lets are taken one by one: one reduction of the whole term would copy each core's record many times
  unfold State.moverDone
  extract_lets d who
  split
  case h_1 hnone => exact absurd (hnone.symm.trans hrun) (by simp)
  case h_2 r hr =>
    obtain rfl : r = raw := Option.some.inj (hr.symm.trans hrun)
    rw [if_neg (ne_of_eq_of_ne hwrote Bool.false_ne_true), show s.moverCopy k who r = (t, .ok b) from hcopy]
    refine (if_neg (ne_of_eq_of_ne (congrArg not hack) Bool.false_ne_true)).trans ?_
    split
    next v' ok hv =>
      obtain ⟨rfl, rfl⟩ := Prod.mk.inj (hput.symm.trans hv)
      extract_lets w d
      change (if (!(w.coreOf k).playing) = true then w else if (!true) = true then _ else
          (if bit r 129 then w.raiseIrq k 1 else w).endCore k)
        = if (w.coreOf k).playing = true then (if bit r 129 then w.raiseIrq k 1 else w).endCore k else w
      cases (w.coreOf k).playing <;> rfl

end

/-! ## PMEM_DATA (R229) -/

section
variable {v : Word} {a : Nat} {t : State} {ok : Bool} (ha : a = (s.pr .rdsp k 0x060).toNat % 0x10000)
include ha

theorem State.pmemAccess_read (hcheck : s.dspCheck k (dspAddr k (0x40000 + a)) 4 = (t, ok)) : s.pmemAccess k false v =
    (t.answer (BitVec.ofNat 32 (t.dspMem.num (dspAddr k (0x40000 + a)) 4))).setPr .rdsp k 0x060
      (BitVec.ofNat 32 ((a + 4) % 0x10000)) := by
  simp only [State.pmemAccess, ← ha, hcheck, Bool.false_eq_true, if_false]

theorem State.pmemAccess_write (hplay : (s.coreOf k).playing = false)
    (hput : s.dspPut k (dspAddr k (0x40000 + a)) (leBytes 4 v.toNat) = (t, ok)) : s.pmemAccess k true v =
      t.setPr .rdsp k 0x060 (BitVec.ofNat 32 ((a + 4) % 0x10000)) := by
  simp only [State.pmemAccess, ← ha, hput, hplay, Bool.false_eq_true, if_false, if_true]

theorem State.pmemAccess_ignored (hplay : (s.coreOf k).playing = true) : s.pmemAccess k true v =
    s.setPr .rdsp k 0x060 (BitVec.ofNat 32 ((a + 4) % 0x10000)) := by
  simp only [State.pmemAccess, ← ha, hplay, if_true]

end
end

/-! ## The commands -/

section
variable {s : State} (h : s.awake = true) (core : Fin 272)
include h

theorem exec_dspResultWrite : exec (.dspResultWrite core) s = .next (s.finish (s.endCycle core.val)) :=
  (show exec (.dspResultWrite core) s = execDspResultWrite core s from rfl).trans (perform_awake h)

theorem exec_hzTrapResume : exec (.hzTrapResume core) s = .next (s.finish (s.clearTrap core.val)) :=
  (show exec (.hzTrapResume core) s = execHzTrapResume core s from rfl).trans (perform_awake h)

/-- Line 0 becomes pending when the base reaches TCMP, once. -/
theorem exec_dspTimerCompare {t : State} (ht : t = s.setCore core.val { s.coreOf core.val with timer := s.tcmpMet core.val }) :
    exec (.dspTimerCompare core) s = .next (s.finish
      (if s.tcmpMet core.val = true ∧ (s.coreOf core.val).timer = false then
        t.setPr .rdsp core.val 0x054 (t.pr .rdsp core.val 0x054 ||| 1) else t)) := by
  subst ht
  refine (show exec (.dspTimerCompare core) s = execDspTimerCompare core s from rfl).trans ((perform_awake h).trans ?_)
  simp only [Bool.and_eq_true, Bool.not_eq_true', State.raiseIrq]
  rfl

theorem exec_dspSoftIrqSet (v : Word) : exec (.dspSoftIrqSet core v) s = .next (s.finish (s.writeIrqPend core.val v)) :=
  (show exec (.dspSoftIrqSet core v) s = execDspSoftIrqSet core v s from rfl).trans (perform_awake h)

theorem exec_interruptAccept : exec (.interruptAccept core) s = .next (s.finish (s.acceptIrq core.val)) :=
  (show exec (.interruptAccept core) s = execInterruptAccept core s from rfl).trans (perform_awake h)

theorem exec_dspTaskStart : exec (.dspTaskStart core) s = .next (s.finish (s.startCore core.val)) :=
  (show exec (.dspTaskStart core) s = execDspTaskStart core s from rfl).trans (perform_awake h)

theorem exec_dspStop (hstop : (s.coreOf core.val).stopping = true) :
    exec (.dspStop core) s = .next (s.finish (s.endCore core.val)) := by
  refine (show exec (.dspStop core) s = execDspStop core s from rfl).trans ((perform_awake h).trans ?_)
  rw [if_pos hstop]

/-- Failing positions of a word are checked, and what they spoil is run again (R227, R231). -/
theorem exec_dspMemoryError {mem : Fin 3} {off : BitVec 17} {flips : List (Fin 72)} {a : Nat} {t u : State} {ok : Bool}
    (ha : a = dspAddr core.val (0x20000 * mem.val + (if mem.val = 2 then off.toNat % 0x10000 else off.toNat)))
    (ht : t = { s with dspEcc := flipBits s.dspEcc (a / 8) (flips.map (Fin.castLE (by decide))) })
    (hu : t.dspCheck core.val a 1 = (u, ok)) : exec (.dspMemoryError core mem off flips) s = .next (s.finish
      (if (u.coreOf core.val).playing && !ok then
        u.rerunTask (u.coreOf core.val).item (u.coreOf core.val).task true (some core.val) else u)) := by
  subst ha ht
  refine (show exec (.dspMemoryError core mem off flips) s = execDspMemoryError core mem off flips s from rfl).trans
    ((perform_awake h).trans ?_)
  simp only [hu]

theorem exec_blockMoverStart {x : Nat} {rest : List Nat} (hrun : (s.coreOf core.val).moverRun = none)
    (hqueue : (s.coreOf core.val).mover = x :: rest) : exec (.blockMoverStart core) s = .next (s.finish
      (s.setCore core.val { s.coreOf core.val with mover := rest, moverRun := some x, moverWrote := false })) := by
  refine (show exec (.blockMoverStart core) s = execBlockMoverStart core s from rfl).trans ((perform_awake h).trans ?_)
  simp only [hrun, hqueue]

theorem exec_blockMoverComplete : exec (.blockMoverComplete core) s = .next (s.finish (s.moverDone core.val)) :=
  (show exec (.blockMoverComplete core) s = execBlockMoverComplete core s from rfl).trans (perform_awake h)

theorem exec_pmemDataAccess (write : Bool) (v : Word) :
    exec (.pmemDataAccess core write v) s = .next (s.finish (s.pmemAccess core.val write v)) :=
  (show exec (.pmemDataAccess core write v) s = execPmemDataAccess core write v s from rfl).trans (perform_awake h)

end

/-- Settles O34: each command by the rules above. -/
theorem dspCoreEvents : Obligations.DspCoreEvents := by
  intro s core d h hd
  refine ⟨?_, ?_, ?_, ?_, ?_, ?_, ?_, ?_, ?_, ?_, ?_⟩
  -- ends of bundles and traps
  · intro hplay hissued t e l next hretire he htarget hloop hrti u hu hsent
    rw [exec_dspResultWrite h, State.endCycle_untaken (hd ▸ hplay) (hd ▸ hissued) hretire he htarget hloop hrti hu hsent]
  · intro hhalt
    rw [exec_hzTrapResume h, State.clearTrap_halted hd hhalt]
  -- interrupts
  · subst hd
    exact fun t ht => exec_dspTimerCompare h core ht
  · exact exec_dspSoftIrqSet h core
  · intro n hplay hhalt hend hissued hsh hline
    rw [exec_interruptAccept h, State.acceptIrq_accepts hd hplay hhalt hend hissued hsh hline]
  -- tasks
  · intro i t it x hcued hit hx hsm halign hentry u hu
    rw [exec_dspTaskStart h, State.startCore_starts hd hcued hit hx hsm halign hentry hu]
  · exact fun hstop => exec_dspStop h core (hd ▸ hstop)
  · exact fun mem off flips a t u ok ha ht hu => exec_dspMemoryError h core ha ht hu
  -- the block mover
  · subst hd
    exact fun x rest hrun hqueue => exec_blockMoverStart h core hrun hqueue
  · intro raw t u v w b hrun hwrote hcopy hu hack hput hw
    rw [exec_blockMoverComplete h, State.moverDone_copied hd hrun hwrote hcopy hu hack hput hw]
    exact ⟨fun hplay => by rw [if_pos hplay], fun hplay => by rw [hplay, if_neg Bool.false_ne_true]⟩
  -- PMEM_DATA
  · intro v a t ok ha
    refine ⟨fun hcheck => ?_, fun hplay hput => ?_, fun hplay => ?_⟩
    · rw [exec_pmemDataAccess h, State.pmemAccess_read ha hcheck]
      rfl
    · rw [exec_pmemDataAccess h, State.pmemAccess_write ha (hd ▸ hplay) hput]
    · rw [exec_pmemDataAccess h, State.pmemAccess_ignored ha (hd ▸ hplay)]

end Sys2Proof.Machine
end

section
/-! SUPPORT. A job that plans and writes on its engine, and the statement about the accelerator jobs. -/

namespace Sys2Proof.Machine

/-! ## Jobs (R235, R236) -/

section
variable {s t : State} {e k eng : Nat} {kind : Nat → Bool} {f : State → Who → Job → State × JobPlan}

theorem State.runJob_of_jobRuns (h : s.JobRuns t e k eng kind f) : s.runJob e k eng kind f = t := by
  obtain ⟨j, i, u, v, ws, r, b, hjob, hresult, hcause, hkind, hplan, hready, hwrites, hkept, rfl⟩ := h
  have hopen : j.res.isSome = false := Option.isSome_eq_false_iff.2 (Option.isNone_iff_eq_none.2 hresult)
  simp only [State.runJob, hjob, hopen, hcause, hkind, hplan, hready, hwrites, hkept, ne_eq, not_true, Bool.false_eq_true,
    if_false, Bool.not_true]

theorem perform_job (hawake : s.awake = true) (h : s.JobRuns t e k eng kind f) :
    perform s (fun s => s.runJob e k eng kind f) = .next (s.finish t) := by
  rw [perform_awake hawake, State.runJob_of_jobRuns h]

end

/-- Settles O35: each of the eleven commands runs the job of its class and kind with the plan of its row. -/
theorem acceleratorJobsRun : Obligations.AcceleratorJobsRun := by
  intro s t tile hawake
  refine ⟨fun fftEng => ?_, fun decoder => ?_, fun encoder => ?_, fun eng => ⟨?_, ?_, ?_, ?_, ?_, ?_, ?_⟩, fun bank => ?_⟩
  all_goals exact perform_job hawake

end Sys2Proof.Machine
end

section
/-! SUPPORT. The control of an Ethernet port: its mode, the links of its sub-ports with and without the reference clock, its
classification entries and its meters, and the statement about them. -/

namespace Sys2Proof.Machine

/-! ## Mode and links (R269, R289) -/

section
variable {s : State} {p : Nat} {v : Word}

/-- With every sub-port disabled MODE is taken, and the links start again from their reset value. -/
theorem State.writeEthCtrl_takes_mode (hoff : fld (s.rg (pageAddr .eth p + 0x040)) 4 4 = 0) (hmode : fld v 0 2 ≠ 3) :
    s.writeEthCtrl p v = (s.storeAt (pageAddr .eth p + 0x040) v).setPr .eth p 0x044 0x100 := by
  simp only [State.writeEthCtrl, hoff, hmode, ne_eq, not_false_eq_true, decide_true, Bool.and_self, if_true]
  rfl

/-- Otherwise MODE stays, which is apart from SP_EN, and the sub-ports disabled lose their links. -/
theorem State.writeEthCtrl_keeps_mode (h : fld (s.rg (pageAddr .eth p + 0x040)) 4 4 ≠ 0 ∨ fld v 0 2 = 3) :
    s.writeEthCtrl p v = (List.range 4).foldl (fun t sp => if fld v (4 + sp) 1 = 0 then t.spLink p sp false else t)
      (s.storeAt (pageAddr .eth p + 0x040) (setFld v 0 2 (fld (s.rg (pageAddr .eth p + 0x040)) 0 2))) := by
  have htakes : (decide (fld (s.rg (pageAddr .eth p + 0x040)) 4 4 = 0) && decide (fld v 0 2 ≠ 3)) = false := by
    rw [Bool.and_eq_false_iff, decide_eq_false_iff_not, decide_eq_false_iff_not, not_not]
    exact h
  simp only [State.writeEthCtrl, htakes, Bool.false_eq_true, if_false]
  refine List.foldl_ext _ _ _ fun t sp hsp => ?_
  have hlt := List.mem_range.1 hsp
  rw [fld_setFld_other v _ (by omega) (by omega)]

end

/-! ## The reference clock of a tile's ports (R456) -/

/-- A port when its reference clock is lost. -/
def State.portClockLost (s : State) (p : Nat) : State :=
  if (s.ethOf p).refLost then s
  else (List.range (s.subPorts p)).foldl (fun s sp => s.spLost p sp) (s.setEth p { s.ethOf p with refLost := true })

/-- A port when its reference clock is back. -/
def State.portClockBack (s : State) (p : Nat) : State :=
  if (s.ethOf p).refLost then
    (s.setEth p { s.ethOf p with refLost := false }).setPr .eth p 0x044 (BitVec.ofNat 32 256)
  else s

/-- What the return of the clock makes of a port and its link register. -/
def clockBack (x : EthSt × Word) : EthSt × Word :=
  ({ x.1 with refLost := false }, if x.1.refLost then 0x100 else x.2)

/-- A port that has its clock stays as it is. -/
theorem clockBack_of_clock {x : EthSt} {r : Word} (h : x.refLost = false) : clockBack (x, r) = (x, r) := by
  cases x
  cases h
  rfl

@[simp] theorem State.raise_eth (s : State) (p : Page) (i : Nat) (info : Word) : (s.raise p i info).eth = s.eth := by
  rw [State.reports_raise s p i info]

theorem State.foldl_spLost_eth (s : State) (p : Nat) (l : List Nat) : (l.foldl (fun s sp => s.spLost p sp) s).eth = s.eth :=
  foldl_keeps (fun t : State => t.eth = s.eth) _ l s rfl fun _ _ ht => (State.raise_eth _ _ _ _).trans ht

theorem State.portClockLost_ethOf_self (s : State) (p : Nat) : ((s.portClockLost p).ethOf p).refLost = true := by
  unfold State.portClockLost
  split
  · next hlost => exact hlost
  · rw [State.ethOf, State.foldl_spLost_eth, ← State.ethOf, State.setEth_ethOf]

theorem State.portClockLost_ethOf_other (s : State) {p j : Nat} (h : j ≠ p) :
    (s.portClockLost p).ethOf j = s.ethOf j := by
  unfold State.portClockLost
  split
  · rfl
  · rw [State.ethOf, State.foldl_spLost_eth, ← State.ethOf, State.setEth_ethOf_other _ _ h]

theorem State.portClockBack_self (s : State) (p : Nat) :
    ((s.portClockBack p).ethOf p, (s.portClockBack p).pr .eth p 0x044) = clockBack (s.ethOf p, s.pr .eth p 0x044) := by
  unfold State.portClockBack
  split
  · next hlost =>
    rw [clockBack, if_pos hlost]
    exact Prod.ext (State.setEth_ethOf s p _) (State.setPr_pr _ _ _ _ _)
  · next hclock => rw [clockBack_of_clock (Bool.eq_false_iff.2 hclock)]

/-- Ports have pages of their own. -/
theorem ethLink_ne {p j : Nat} (h : j ≠ p) : pageAddr .eth j + 0x044 ≠ pageAddr .eth p + 0x044 := by
  simp only [pageAddr]
  omega

theorem State.portClockBack_other (s : State) {p j : Nat} (h : j ≠ p) :
    ((s.portClockBack p).ethOf j, (s.portClockBack p).pr .eth j 0x044) = (s.ethOf j, s.pr .eth j 0x044) := by
  unfold State.portClockBack
  split
  · exact Prod.ext (State.setEth_ethOf_other s _ h) (State.setRg_rg_other _ _ (ethLink_ne h))
  · rfl

/-- Where a step on a port changes what is seen of that port alone, the ports it is done for have changed, and no others. -/
theorem foldl_ports_view {α : Type} (view : State → Nat → α) (step : State → Nat → State) (new : α → α)
    (hself : ∀ s p, view (step s p) p = new (view s p)) (hother : ∀ s {p j}, j ≠ p → view (step s p) j = view s j)
    (base n : Nat) (s : State) (j : Nat) :
    view ((List.range n).foldl (fun s i => step s (base + i)) s) j =
      if base ≤ j ∧ j < base + n then new (view s j) else view s j := by
  induction n with
  | zero => exact (if_neg (by omega)).symm
  | succ n ih =>
    rw [List.range_succ, List.foldl_append, List.foldl_cons, List.foldl_nil]
    by_cases hj : j = base + n
    · rw [← hj, hself, ih, if_neg (by omega), if_pos (by omega)]
    · rw [hother _ hj, ih]
      exact if_congr (by omega) rfl rfl

/-- The eight ports of a tile when their reference clock is lost. -/
def State.tileClockLost (s : State) (tile : Nat) : State := (List.range 8).foldl (fun s i => s.portClockLost (8 * tile + i)) s

/-- The eight ports of a tile when their reference clock is back. -/
def State.tileClockBack (s : State) (tile : Nat) : State := (List.range 8).foldl (fun s i => s.portClockBack (8 * tile + i)) s

theorem State.tileClockLost_refLost (s : State) (tile : Nat) {i : Nat} (hi : i < 8) :
    ((s.tileClockLost tile).ethOf (8 * tile + i)).refLost = true :=
  (foldl_ports_view (fun t p => (t.ethOf p).refLost) State.portClockLost (fun _ => true) State.portClockLost_ethOf_self
    (fun s _ _ h => congrArg EthSt.refLost (s.portClockLost_ethOf_other h)) (8 * tile) 8 s (8 * tile + i)).trans
    (if_pos (by omega))

theorem State.tileClockBack_port (s : State) (tile j : Nat) :
    ((s.tileClockBack tile).ethOf j, (s.tileClockBack tile).pr .eth j 0x044) =
      if 8 * tile ≤ j ∧ j < 8 * tile + 8 then clockBack (s.ethOf j, s.pr .eth j 0x044) else (s.ethOf j, s.pr .eth j 0x044) :=
  foldl_ports_view (fun t p => (t.ethOf p, t.pr .eth p 0x044)) State.portClockBack clockBack State.portClockBack_self
    (fun s _ _ h => s.portClockBack_other h) (8 * tile) 8 s j

theorem State.tileClockBack_inside (s : State) (tile : Nat) {i : Nat} (hi : i < 8) :
    ((s.tileClockBack tile).ethOf (8 * tile + i), (s.tileClockBack tile).pr .eth (8 * tile + i) 0x044) =
      clockBack (s.ethOf (8 * tile + i), s.pr .eth (8 * tile + i) 0x044) :=
  (s.tileClockBack_port tile (8 * tile + i)).trans (if_pos (by omega))

theorem State.tileClockBack_refLost (s : State) (tile : Nat) {i : Nat} (hi : i < 8) :
    ((s.tileClockBack tile).ethOf (8 * tile + i)).refLost = false := by
  obtain ⟨hport, -⟩ := Prod.mk.inj (s.tileClockBack_inside tile hi)
  rw [hport]

theorem State.tileClockBack_link (s : State) (tile : Nat) {i : Nat} (hi : i < 8)
    (hlost : (s.ethOf (8 * tile + i)).refLost = true) : (s.tileClockBack tile).pr .eth (8 * tile + i) 0x044 = 0x100 := by
  obtain ⟨-, hlink⟩ := Prod.mk.inj (s.tileClockBack_inside tile hi)
  rw [hlink, if_pos hlost]

theorem State.tileClockBack_outside (s : State) {tile j : Nat} (hj : j / 8 ≠ tile) :
    (s.tileClockBack tile).ethOf j = s.ethOf j := by
  have hport := s.tileClockBack_port tile j
  rw [if_neg (by omega)] at hport
  exact (Prod.mk.inj hport).1

/-! ## Classification entries (R276) -/

/-- With words 1 to 3 staged, a write of word 0 stores all four and leaves nothing staged of the entry. -/
theorem State.writeClass_commits {s : State} {p i : Nat} {v a b c : Word}
    (h : ∀ w u, (w, u) ∈ [(1, a), (2, b), (3, c)] → Tbl.look (s.ethOf p).staged (4 * i + w) = some u) {t : State}
    (ht : t = (((s.storeAt (classReg p i 0) v).storeAt (classReg p i 1) a).storeAt (classReg p i 2) b).storeAt
      (classReg p i 3) c) :
    s.writeClass p i 0 v =
      t.setEth p { t.ethOf p with staged := (s.ethOf p).staged.filter fun e => e.1 / 4 != i } := by
  have h1 := h 1 a (by simp)
  have h2 := h 2 b (by simp)
  have h3 := h 3 c (by simp)
  subst ht
  simp only [State.writeClass, if_true, List.foldl_cons, List.foldl_nil, h1, h2, h3]

/-! ## The commands -/

section
variable {s : State} (h : s.awake = true) (port : Fin 16) (sp : Fin 4)
include h

theorem exec_ethModeWrite (v : Word) : exec (.ethModeWrite port v) s = .next (s.finish (s.writeEthCtrl port.val v)) :=
  (show exec (.ethModeWrite port v) s = execEthModeWrite port v s from rfl).trans (perform_awake h)

theorem exec_ethLinkUp (hon : s.spOn port.val sp.val = true) (href : (s.ethOf port.val).refLost = false) {t : State}
    (ht : t = s.spLink port.val sp.val true) : exec (.ethLinkUp port sp) s =
      .next (s.finish (t.setPr .eth port.val 0x044 (setFld (t.pr .eth port.val 0x044) 8 1 0))) := by
  refine (show exec (.ethLinkUp port sp) s = execEthLinkUp port sp s from rfl).trans ((perform_awake h).trans ?_)
  simp only [hon, href, ht, Bool.not_false, Bool.and_self, if_true]

theorem exec_ethLinkLost (hup : s.spUp port.val sp.val = true) :
    exec (.ethLinkLost port sp) s = .next (s.finish (s.spLost port.val sp.val)) := by
  refine (show exec (.ethLinkLost port sp) s = execEthLinkLost port sp s from rfl).trans ((perform_awake h).trans ?_)
  rw [if_pos hup]

theorem exec_refclkEthLost (tile : Fin 2) (hready : s.boot.ready = true) :
    exec (.refclkEthLost tile) s = .next (s.finish (s.tileClockLost tile.val)) := by
  refine (show exec (.refclkEthLost tile) s = execRefclkEthLost tile s from rfl).trans ((perform_awake h).trans ?_)
  simp only [hready, Bool.not_true, Bool.false_eq_true, if_false]
  rfl

theorem exec_refclkEthReturn (tile : Fin 2) :
    exec (.refclkEthReturn tile) s = .next (s.finish (s.tileClockBack tile.val)) :=
  (show exec (.refclkEthReturn tile) s = execRefclkEthReturn tile s from rfl).trans (perform_awake h)

theorem exec_classEntryCommit (entry : Fin 128) (v : Word) :
    exec (.classEntryCommit port entry v) s = .next (s.finish (s.writeClass port.val entry.val 0 v)) :=
  (show exec (.classEntryCommit port entry v) s = execClassEntryCommit port entry v s from rfl).trans (perform_awake h)

theorem exec_meterConfigWrite (meter : Fin 64) (reg : Fin 5) (v : Word) :
    exec (.meterConfigWrite port meter reg v) s = .next (s.finish (s.writeMeter port.val meter.val reg.val v)) :=
  (show exec (.meterConfigWrite port meter reg v) s = execMeterConfigWrite port meter reg v s from rfl).trans
    (perform_awake h)

end

/-- Settles O39: each command by the rules above, the clock's by what is seen of each port. -/
theorem ethernetControl : Obligations.EthernetControl := by
  intro s port sp val h
  refine ⟨?_, ?_, ?_, ?_, ?_, ?_, ?_⟩
  -- mode and links
  · intro hoff hmode
    rw [exec_ethModeWrite h, State.writeEthCtrl_takes_mode hoff hmode]
  · intro hkeeps
    rw [exec_ethModeWrite h, State.writeEthCtrl_keeps_mode hkeeps]
  · exact fun hon href t ht => exec_ethLinkUp h port sp hon href ht
  · exact exec_ethLinkLost h port sp
  -- the reference clock
  · intro tile
    refine ⟨fun hready => ⟨_, exec_refclkEthLost h tile hready, fun i => s.tileClockLost_refLost tile.val⟩,
      _, exec_refclkEthReturn h tile, fun i => s.tileClockBack_refLost tile.val, fun i => s.tileClockBack_link tile.val,
      fun p => s.tileClockBack_outside⟩
  -- classification and meters
  · intro entry a b c hstaged t ht
    rw [exec_classEntryCommit h, State.writeClass_commits hstaged ht]
  · rintro meter reg t u rfl rfl
    exact exec_meterConfigWrite h port meter reg val

end Sys2Proof.Machine
end

section
/-! SUPPORT. What the receiver does with a frame that arrives and with a frame that it has buffered, and the statement about
reception. -/

namespace Sys2Proof.Machine

/-! ## A buffered frame is delivered (R279) -/

/-- Who writes for a receive queue. -/
abbrev State.rxWho (s : State) (p q : Nat) : Who :=
  { v := fld (s.rg (rxqReg p q 0)) 8 8, org := 8000 + p, x := 0, item := 0, task := 0 }

section
variable {s t : State} {p i : Nat} {f : RxFrame} (hfind : findFrom (fun f => s.rxMay p f) (s.ethOf p).buf 0 = some i)
  (hframe : (s.ethOf p).buf[i]? = some f) (hon : fld (s.rg (rxqReg p f.queue 0)) 0 1 = 1)
include hfind hframe hon

/-- A full ring loses the frame. -/
theorem State.rxDeliver_full (hfull : (s.rg (rxqReg p f.queue 0x10) - s.rg (rxqReg p f.queue 0x14)).toNat =
      2 ^ fld (s.rg (rxqReg p f.queue 0x0C)) 0 5) :
    s.rxDeliver p = (s.setEth p { s.ethOf p with buf := (s.ethOf p).buf.eraseIdx i }).bump .eth p (spOff f.sp 0x38) 1 := by
  simp only [State.rxDeliver, hfind, hframe, hon, hfull, Nat.one_ne_zero, if_false, if_true]

section
variable (hroom : (s.rg (rxqReg p f.queue 0x10) - s.rg (rxqReg p f.queue 0x14)).toNat ≠
    2 ^ fld (s.rg (rxqReg p f.queue 0x0C)) 0 5) {r : List Byte} {gap : Bool} (hrec : s.rxRecord p f = (r, gap))
include hroom hrec

/-- While the write of the record waits, nothing changes. -/
theorem State.rxDeliver_waits
    (hwrite : s.gWrite (s.rxWho p f.queue) (s.rxSlot p f.queue) r false false = (t, .wait)) :
    s.rxDeliver p = s := by
  simp only [State.rxDeliver, hfind, hframe, hon, hroom, hrec, hwrite, Nat.one_ne_zero, if_false]

/-- A write that fails loses the frame with source 0x3003. -/
theorem State.rxDeliver_fails {st : Nat}
    (hwrite : s.gWrite (s.rxWho p f.queue) (s.rxSlot p f.queue) r false false = (t, .fail st)) :
    s.rxDeliver p = (t.setEth p { t.ethOf p with buf := (s.ethOf p).buf.eraseIdx i }).raise (pageAt .eth p) 3
      (ethInfo f.sp f.queue) := by
  simp only [State.rxDeliver, hfind, hframe, hon, hroom, hrec, hwrite, Nat.one_ne_zero, if_false]

/-- A written record moves the tail on, counts a gap, keeps the sequence number of an eCPRI frame and raises the line. -/
theorem State.rxDeliver_written {b : List Byte} {v w : State}
    (hwrite : s.gWrite (s.rxWho p f.queue) (s.rxSlot p f.queue) r false false = (t, .ok b))
    (hv : v = (t.setEth p { t.ethOf p with buf := (s.ethOf p).buf.eraseIdx i }).setRg (rxqReg p f.queue 0x10)
      (s.rg (rxqReg p f.queue 0x10) + 1))
    (hw : w = if gap then v.setRg (rxqReg p f.queue 0x1C) (satAdd (v.rg (rxqReg p f.queue 0x1C)) 1) else v) :
    s.rxDeliver p = State.rxIrq (if isEcpri f.bytes = true then w.setEth p { w.ethOf p with
      lastSeq := Tbl.set none (w.ethOf p).lastSeq f.queue (some (ecSeq f.bytes)) } else w) (s.rg (rxqReg p f.queue 0)) := by
  simp only [State.rxDeliver, hfind, hframe, hon, hroom, hrec, hwrite, hv, hw, Nat.one_ne_zero, if_false]

end

end

/-! ## The commands -/

section
variable {s : State} (h : s.awake = true) (port : Fin 16)
include h

section
variable {sp : Fin 4} {frame : List (BitVec 8)}

section
variable (hup : s.spUp port.val sp.val = true) (corr bad : BitVec 8)
include hup

/-- A bad FCS or length is counted alone. -/
theorem exec_frameReceive_bad {ok : Bool} (hbad : ok = false ∨ frame.length < 64 ∨ 9216 < frame.length) :
    exec (.frameReceive port sp frame ok corr bad) s = .next (s.finish
      ((s.fecCount port.val sp.val corr.toNat bad.toNat).bump .eth port.val (spOff sp.val 0x20) 1)) := by
  have hdrop : (!ok || decide (frame.length < 64) || decide (9216 < frame.length)) = true := by
    simpa only [Bool.or_eq_true, Bool.not_eq_true', decide_eq_true_eq, or_assoc] using hbad
  refine (show exec (.frameReceive port sp frame ok corr bad) s = execFrameReceive port sp frame ok corr bad s from rfl).trans
    ((perform_awake h).trans ?_)
  simp only [hup, hdrop, Bool.not_true, Bool.false_eq_true, if_false, if_true]

section
variable (hshort : 64 ≤ frame.length) (hlong : frame.length ≤ 9216)
include hshort hlong

/-- A MAC control frame is counted alone. -/
theorem exec_frameReceive_control (htype : etherType frame = 0x8808) :
    exec (.frameReceive port sp frame true corr bad) s = .next (s.finish
      ((s.fecCount port.val sp.val corr.toNat bad.toNat).bump .eth port.val (spOff sp.val 0x24) 1)) := by
  refine (show exec (.frameReceive port sp frame true corr bad) s = execFrameReceive port sp frame true corr bad s from
    rfl).trans ((perform_awake h).trans ?_)
  simp only [hup, htype, Nat.not_lt.2 hshort, Nat.not_lt.2 hlong, Bool.not_true, decide_false, Bool.or_self,
    Bool.false_eq_true, if_false, if_true]

/-- Any other frame is counted with its bytes and, without its FCS, recorded as a PTP message or classified. -/
theorem exec_frameReceive_taken (htype : etherType frame ≠ 0x8808) {t : State} {f : List (BitVec 8)}
    (hf : f = frame.take (frame.length - 4))
    (ht : t = ((s.fecCount port.val sp.val corr.toNat bad.toNat).bump64 .eth port.val (spOff sp.val 0x00) 1).bump64 .eth
      port.val (spOff sp.val 0x08) frame.length) :
    exec (.frameReceive port sp frame true corr bad) s = .next (s.finish
      (if (ptpAt f).isSome then t.ptpIn port.val sp.val f else t.classify port.val sp.val f)) := by
  refine (show exec (.frameReceive port sp frame true corr bad) s = execFrameReceive port sp frame true corr bad s from
    rfl).trans ((perform_awake h).trans ?_)
  simp only [hup, htype, hf, ht, Nat.not_lt.2 hshort, Nat.not_lt.2 hlong, Bool.not_true, decide_false, Bool.or_self,
    Bool.false_eq_true, if_false]

end

end

theorem exec_ptpFrameReceive (hup : s.spUp port.val sp.val = true) (hshort : 64 ≤ frame.length)
    (hlong : frame.length ≤ 9216) (hptp : ptpAt frame ≠ none) :
    exec (.ptpFrameReceive port sp frame) s = .next (s.finish
      (((s.bump64 .eth port.val (spOff sp.val 0x00) 1).bump64 .eth port.val (spOff sp.val 0x08) frame.length).ptpIn
        port.val sp.val (frame.take (frame.length - 4)))) := by
  refine (show exec (.ptpFrameReceive port sp frame) s = execPtpFrameReceive port sp frame s from rfl).trans
    ((perform_awake h).trans ?_)
  simp only [hup, hshort, hlong, Option.isSome_iff_ne_none.2 hptp, decide_true, Bool.and_self, if_true]

end

theorem exec_rxFrameDeliver :
    exec (.rxFrameDeliver port) s = .next (s.finish ((s.meterFrames port.val).rxDeliver port.val)) :=
  (show exec (.rxFrameDeliver port) s = execRxFrameDeliver port s from rfl).trans (perform_awake h)

end

/-- Settles O38: a frame that arrives by what it is, a buffered one by what its ring and its write answer. -/
theorem ethernetReceive : Obligations.EthernetReceive := by
  intro s port sp frame h
  refine ⟨fun hup => ⟨?_, fun hshort hlong => exec_ptpFrameReceive h port hup hshort hlong⟩, ?_⟩
  -- a frame arrives
  · rintro corr bad r rfl
    refine ⟨fun hlen ok => exec_frameReceive_bad h port hup corr bad (.inr hlen),
      exec_frameReceive_bad h port hup corr bad (.inl rfl), fun hshort hlong =>
        ⟨exec_frameReceive_control h port hup corr bad hshort hlong, fun t f htype hf ht => ?_⟩⟩
    rw [exec_frameReceive_taken h port hup corr bad hshort hlong htype hf ht]
    exact ⟨fun hnone => by rw [hnone]; rfl, fun hptp => by rw [if_pos (Option.isSome_iff_ne_none.2 hptp)]⟩
  -- a buffered frame is delivered
  · rintro i f c tail m rfl hfind hframe rfl hon rfl
    rw [exec_rxFrameDeliver h]
    refine ⟨fun hfull => ?_, fun t u r gap g hroom hrec hwrite hu =>
      ⟨fun b v w hg hv hw => ?_, fun st hg => ?_, fun hg => ?_⟩⟩
    · rw [State.rxDeliver_full hfind hframe hon hfull]
      rfl
    · subst hg hu
      rw [State.rxDeliver_written hfind hframe hon hroom hrec hwrite hv hw]
    · subst hg hu
      rw [State.rxDeliver_fails hfind hframe hon hroom hrec hwrite]
      rfl
    · subst hg
      rw [State.rxDeliver_waits hfind hframe hon hroom hrec hwrite]

end Sys2Proof.Machine
end

section
/-! SUPPORT. What a read at a global address leaves of every port's `ETH_CTRL`: it counts, corrects and reports on the pages of
HBM channels, links, the fabric and the fault unit alone. -/

namespace Sys2Proof.Machine

/-- `t` holds the same `ETH_CTRL` of every port as `s`. -/
def State.SameModes (s t : State) : Prop := ∀ p, t.pr .eth p 0x040 = s.pr .eth p 0x040

/-- Pages start at multiples of 4 KiB, those of optical modules apart. -/
theorem pageAddr_mod {k : PageKind} (h : k ≠ .optm) (i : Nat) : pageAddr k i % 0x1000 = 0 := by
  cases k with
  | optm => exact absurd rfl h
  | rdsp => simp only [pageAddr]; split <;> omega
  | _ => simp only [pageAddr] <;> omega

section
variable {s t : State}

theorem State.SameModes.refl (s : State) : s.SameModes s := fun _ => rfl

theorem State.SameModes.trans {u : State} (h : s.SameModes t) (g : t.SameModes u) : s.SameModes u :=
  fun p => (g p).trans (h p)

/-- A port whose `ETH_CTRL` stays keeps its sub-ports' rate. -/
theorem State.SameModes.serial (h : s.SameModes t) (p n : Nat) : t.serial p n = s.serial p n := by
  simp only [State.serial, State.spRate, State.subPorts, h p]

/-- Only the registers matter. -/
theorem State.SameModes.of_regs {u : State} (h : s.SameModes t) (hr : u.regs = t.regs) : s.SameModes u := fun p => by
  rw [← h p, State.pr, State.pr, State.rg, State.rg, hr]

theorem State.SameModes.of_pair {α : Type} {x : State × α} {a : α} (h : s.SameModes x.1) (hx : x = (t, a)) :
    s.SameModes t := by
  rw [hx] at h
  exact h

theorem State.SameModes.setRg (h : s.SameModes t) {a : Nat} (v : Word) (ha : ∀ p, pageAddr .eth p + 0x040 ≠ a) :
    s.SameModes (t.setRg a v) := fun p => (t.setRg_rg_other v (ha p)).trans (h p)

/-- An offset other than that of `ETH_CTRL` on any page. -/
theorem ethCtrl_ne {base off : Nat} (hbase : base % 0x1000 = 0) (hoff : off % 0x1000 ≠ 0x040) (p : Nat) :
    pageAddr .eth p + 0x040 ≠ base + off := by
  simp only [pageAddr]
  omega

section
variable {k : PageKind} {off : Nat}

theorem State.SameModes.setPr (h : s.SameModes t) (hk : k ≠ .optm) (i : Nat) (hoff : off % 0x1000 ≠ 0x040) (v : Word) :
    s.SameModes (t.setPr k i off v) := h.setRg v (ethCtrl_ne (pageAddr_mod hk i) hoff)

theorem State.SameModes.bump (h : s.SameModes t) (hk : k ≠ .optm) (i : Nat) (hoff : off % 0x1000 ≠ 0x040) (n : Nat) :
    s.SameModes (t.bump k i off n) := h.setPr hk i hoff _

theorem State.SameModes.bump64 (h : s.SameModes t) (hk : k ≠ .optm) (i : Nat) (hoff : off % 0x1000 ≠ 0x040)
    (hhigh : (off + 4) % 0x1000 ≠ 0x040) (n : Nat) : s.SameModes (t.bump64 k i off n) := by
  refine State.SameModes.setRg (h.setPr hk i hoff _) _ ?_
  rw [Nat.add_assoc]
  exact ethCtrl_ne (pageAddr_mod hk i) hhigh

end

/-! ## Events (R397 to R400, R417) -/

theorem State.SameModes.alert (h : s.SameModes t) (n : Nat) : s.SameModes (t.alert n) := by
  have hpend (v : Word) := h.setPr (k := .fault) (off := 0x064) (by decide) 0 (by decide) v
  unfold State.alert
  extract_lets old t'
  split
  · exact hpend _
  · exact (hpend _).of_regs rfl

theorem State.SameModes.enqueue (h : s.SameModes t) (e : FqEntry) : s.SameModes (t.enqueue e) := by
  unfold State.enqueue
  split
  · exact h.of_regs rfl
  · exact (h.bump (by decide) 0 (by decide) 1).alert 4

theorem State.SameModes.hold (h : s.SameModes t) : s.SameModes t.hold := by
  refine h.setRg _ fun p => ?_
  simp only [pageAddr]
  omega

theorem State.SameModes.latchErr (h : s.SameModes t) {p : Page} (hp : p.base % 0x1000 = 0) (src : Nat) (info : Word) :
    s.SameModes (t.latchErr p src info) := by
  unfold State.latchErr
  extract_lets first ovf
  split
  · exact (h.setRg _ (ethCtrl_ne hp (by decide))).setRg _ (ethCtrl_ne hp (by decide))
  · exact h.setRg _ (ethCtrl_ne hp (by decide))

theorem State.SameModes.report (h : s.SameModes t) (p : Page) (src sev : Nat) (info : Word) :
    s.SameModes (t.report p src sev info) := by
  unfold State.report
  split
  · exact h
  · extract_lets now s1 s2 s3
    have h3 : s.SameModes s3 := by
      have h2 : s.SameModes s2 := (h.enqueue _).of_regs rfl
      clear_value s2
      show s.SameModes (if _ then _ else _)
      split
      · exact h2.of_regs rfl
      · exact h2
    clear_value s3
    split
    · exact State.SameModes.hold (h3.of_regs rfl)
    · split
      · exact h3.of_regs rfl
      · exact h3

theorem State.SameModes.reportChange (h : s.SameModes t) (p : Page) (src sev : Nat) (info : Word) :
    s.SameModes (t.reportChange p src sev info) := (h.enqueue _).of_regs rfl

theorem State.SameModes.event (h : s.SameModes t) {p : Page} (hp : p.base % 0x1000 = 0) (i : Nat) (info : Word) :
    s.SameModes (t.event p i info).1 := by
  unfold State.event
  extract_lets src was s1 s2 now sev change full s3 s4 s5 s6
  have h2 : s.SameModes s2 := by
    show s.SameModes (match unitOfSource p i info with
      | some (c, u, true) => s1.scoreEvent c u
      | _ => s1)
    split <;> exact h.of_regs rfl
  clear_value s2
  have h4 : s.SameModes s4 := (h2.latchErr hp src info).report p src sev info
  clear_value s4
  have h5 : s.SameModes s5 := h4.reportChange p src sev info
  clear_value s5
  have h6 : s.SameModes s6 := by
    show s.SameModes (if change then
        (match unitOfSource p i info with
        | some (c, u, _) => s5.scoreChange c u
        | none => s5)
      else s4)
    split
    · split
      · exact h5.of_regs rfl
      · exact h5
    · exact h4
  clear_value s6
  split
  · exact h2
  · exact h6.of_regs rfl

theorem State.SameModes.raise (h : s.SameModes t) {p : Page} (hp : p.base % 0x1000 = 0) (i : Nat) (info : Word) :
    s.SameModes (t.raise p i info) := by
  have h1 : s.SameModes (t.raise0 p i info).1 := by
    unfold State.raise0
    dsimp only
    split
    · exact (h.event hp i info).event (by decide) 1 0
    · exact h.event hp i info
  exact h1.of_regs rfl

/-! ## HBM (R317 to R319, R328) -/

theorem hbmcPage_mod (i : Nat) : (pageAt .hbmc i).base % 0x1000 = 0 := pageAddr_mod (k := .hbmc) (by decide) i

theorem State.SameModes.eccLast (h : s.SameModes t) (inst p q kind : Nat) : s.SameModes (t.eccLast inst p q kind) :=
  h.setPr (by decide) inst (by decide) _

theorem State.SameModes.noteRow (h : s.SameModes t) (inst row n : Nat) : s.SameModes (t.noteRow inst row n) :=
  h.of_regs rfl

theorem State.SameModes.hbmWord (h : s.SameModes t) (f : Nat × Ecc) : s.SameModes (t.hbmWord f) := by
  unfold State.hbmWord
  dsimp only
  split
  · exact h
  · exact (((h.bump (by decide) _ (by decide) 1).eccLast _ _ _ _).noteRow _ _ _).raise (hbmcPage_mod _) _ _
  · exact (((h.bump (by decide) _ (by decide) 1).eccLast _ _ _ _).noteRow _ _ _).raise (hbmcPage_mod _) _ _
  · exact h.eccLast _ _ _ _

theorem State.SameModes.hbmPoison (h : s.SameModes t) (line : Nat) : s.SameModes (t.hbmPoison line) := by
  unfold State.hbmPoison
  extract_lets a inst t1
  have h1 : s.SameModes t1 := h.of_regs rfl
  clear_value t1
  exact ((h1.bump (by decide) _ (by decide) 1).noteRow _ _ _).raise (hbmcPage_mod _) _ _

theorem State.SameModes.hbmCheck (h : s.SameModes t) (w n : Nat) : s.SameModes (t.hbmCheck w n).1 := by
  unfold State.hbmCheck
  extract_lets c t1 t2
  have h2 : s.SameModes t2 := foldl_keeps s.SameModes State.hbmWord c.found t1 (h.of_regs rfl) fun _ f ht => ht.hbmWord f
  clear_value t2
  split
  · exact h2.hbmPoison _
  · show s.SameModes (if _ then _ else _)
    split
    · exact h2.of_regs rfl
    · exact h2

theorem State.SameModes.hbmLineRead (h : s.SameModes t) (line : Nat) (spec : Bool) :
    s.SameModes (t.hbmLineRead line spec).1 := by
  have hoff : (if spec then 0x054 else 0x044) % 0x1000 ≠ 0x040 ∧ ((if spec then 0x054 else 0x044) + 4) % 0x1000 ≠ 0x040 := by
    cases spec <;> decide
  unfold State.hbmLineRead
  extract_lets inst t1
  have h1 : s.SameModes t1 := h.bump64 (by decide) inst hoff.1 hoff.2 1
  clear_value t1
  split
  · exact h
  · split
    · exact h1.bump (by decide) inst (by decide) 1
    · have hc := h1.hbmCheck (8 * line) 8
      generalize t1.hbmCheck (8 * line) 8 = x at hc ⊢
      exact hc

theorem State.SameModes.hbmRead (h : s.SameModes t) (off n : Nat) (spec : Bool) :
    s.SameModes (t.hbmRead off n spec).1 :=
  foldl_keeps (fun x : State × Option (List Byte) => s.SameModes x.1) _ _ _ h fun _ sp hx => hx.hbmLineRead sp.1 spec

/-! ## Requests to other nodes (R340, R353, R354) -/

theorem State.SameModes.pump (h : s.SameModes t) (l fuel : Nat) : s.SameModes (t.pump l fuel) := by
  induction fuel generalizing t with
  | zero => exact h
  | succ fuel ih =>
    unfold State.pump
    dsimp only
    split
    · exact h
    · split
      · exact h
      · next m hm =>
        have hsent {x : Link} (n : Nat) : s.SameModes ((t.setLink l x).bump64 .glink l 0x058 n) :=
          State.SameModes.bump64 (h.of_regs rfl) (by decide) l (by decide) (by decide) n
        exact ih ((hsent _).of_regs rfl)

theorem State.SameModes.linkSend (h : s.SameModes t) (l : Nat) (m : LinkTx) : s.SameModes (t.linkSend l m) :=
  State.SameModes.pump (t := t.setLink l _) (h.of_regs rfl) l 64

theorem State.SameModes.transmit (h : s.SameModes t) (kind : Nat) (r : FabReq) (own : Option (Nat × Nat)) :
    s.SameModes (t.transmit kind r own).1 := by
  unfold State.transmit
  split
  · exact h
  · split
    · exact h.raise (by decide) _ _
    · exact h.linkSend _ _

theorem State.SameModes.issue (h : s.SameModes t) (kind : Nat) (r : FabReq) (origin own : Option (Nat × Nat)) :
    s.SameModes (t.issue kind r origin own).1 := by
  unfold State.issue
  dsimp only
  split
  · exact h
  · split
    · exact h
    · exact (h.transmit _ _ _).of_regs rfl

theorem State.SameModes.ask (h : s.SameModes t) (w : Who) (spec : Bool) (c : Nat × Nat) :
    s.SameModes (t.ask w spec c).1 := by
  unfold State.ask
  extract_lets dst
  have hissue (r : FabReq) := h.issue tyRd r (some (w.org, w.x)) (t.ownOf w)
  split
  · exact h
  · split
    · exact h
    · split
      · exact h
      · split <;> next heq => exact ((hissue _).of_pair heq).of_regs rfl

theorem State.SameModes.remoteRead (h : s.SameModes t) (w : Who) (ga n : Nat) (spec : Bool) :
    s.SameModes (t.remoteRead w ga n spec).1 := by
  have hasked := foldl_keeps (fun x : State × Bool => s.SameModes x.1)
    (fun (p : State × Bool) c => ((p.1.ask w spec c).1, p.2 && (p.1.ask w spec c).2)) (chunks ga n) (t, true) h
    fun _ c hx => hx.ask w spec c
  unfold State.remoteRead
  dsimp only
  split
  · exact hasked
  · split
    · exact hasked
    · split <;> exact hasked

theorem State.SameModes.translate (h : s.SameModes t) (v a n : Nat) : s.SameModes (t.translate v a n) := by
  unfold State.translate
  split
  · exact h.of_regs rfl
  · exact h

theorem State.SameModes.gRead (h : s.SameModes t) (w : Who) (ga n : Nat) (spec : Bool) :
    s.SameModes (t.gRead w ga n spec).1 := by
  unfold State.gRead
  split
  · exact h
  · split
    · split
      · exact h
      · split
        · exact h
        · dsimp only
          split <;> exact h.hbmRead _ _ _
    · split
      · exact h
      · split
        · exact h
        · exact h.translate _ _ _
    · exact h
    · exact h
    · split
      · exact h.remoteRead _ _ _ _
      · exact h

/-- Two reads, the second of what the first has left, change no serialisation time. -/
theorem State.serial_of_reads {u : State} {w w' : Who} {a n b m : Nat} {x y : Bool} {g g' : Got}
    (h : s.gRead w a n x = (t, g)) (h' : t.gRead w' b m y = (u, g')) (p k : Nat) : u.serial p k = s.serial p k := by
  have ht : s.SameModes t := ((State.SameModes.refl s).gRead w a n x).of_pair h
  have hu : s.SameModes u := (ht.gRead w' b m y).of_pair h'
  exact hu.serial p k

end

end Sys2Proof.Machine
end

section
/-! SUPPORT. What the transmitter does with a doorbell, with the descriptors it fetches, with a frame that starts and with one
that has left, and the statement about transmission. -/

namespace Sys2Proof.Machine

/-! ## Doorbells (R281, R283) -/

section
variable {s t : State} {p q : Nat} {v : Word} (ht : t = s.setRg (txqReg p q 0x10) v)
include ht

/-- A frame posted to an empty queue moves E(q) up to now. -/
theorem State.writeTxTail_empty (hempty : s.rg (txqReg p q 0x10) = s.rg (txqReg p q 0x14))
    (hpost : v ≠ t.rg (txqReg p q 0x14)) :
    s.writeTxTail p q v =
      t.setEth p { t.ethOf p with e := Tbl.upd 0 (t.ethOf p).e q fun e => max e (256 * t.time.clk) } := by
  subst ht
  simp only [State.writeTxTail, hempty, hpost, ne_eq, not_false_eq_true, decide_true, Bool.and_self, if_true]

theorem State.writeTxTail_posted (hposted : s.rg (txqReg p q 0x10) ≠ s.rg (txqReg p q 0x14)) : s.writeTxTail p q v = t := by
  subst ht
  simp only [State.writeTxTail, hposted, decide_false, Bool.false_and, Bool.false_eq_true, if_false]

end

/-! ## The descriptor that a fetch takes (R285) -/

/-- The scan passes the descriptors that were fetched before, and ends with the first other one that ends a fetch. -/
theorem State.txScan_first {s t : State} {p q n m : Nat} {idx : Word} (hnm : n < m)
    (hbefore : ∀ i, i < n → (s.ethOf p).has q (idx + BitVec.ofNat 32 i).toNat = true)
    (hfirst : (s.ethOf p).has q (idx + BitVec.ofNat 32 n).toNat = false)
    (hone : s.txFetchOne p q (idx + BitVec.ofNat 32 n).toNat = (t, true)) : s.txScan p q m idx = t := by
  induction n generalizing m idx with
  | zero =>
    obtain ⟨m, rfl⟩ := Nat.exists_eq_add_of_lt hnm
    have h0 : idx + BitVec.ofNat 32 0 = idx := BitVec.add_zero idx
    rw [h0] at hfirst hone
    simp only [Nat.zero_add, State.txScan, hfirst, hone, Bool.false_eq_true, if_false, if_true]
  | succ n ih =>
    obtain ⟨m, rfl⟩ := Nat.exists_eq_succ_of_ne_zero (Nat.ne_of_gt (Nat.zero_lt_of_lt hnm))
    have hnext (i : Nat) : idx + BitVec.ofNat 32 (i + 1) = idx + 1 + BitVec.ofNat 32 i := by
      rw [Nat.add_comm, BitVec.ofNat_add, ← BitVec.add_assoc, BitVec.ofNat_eq_ofNat]
    have hhead : (s.ethOf p).has q idx.toNat = true := by
      simpa only [BitVec.ofNat_eq_ofNat, BitVec.add_zero] using hbefore 0 (Nat.succ_pos n)
    rw [State.txScan, if_pos hhead]
    refine ih (Nat.lt_of_succ_lt_succ hnm) (fun i hi => ?_) ?_ ?_
    · rw [← hnext]
      exact hbefore (i + 1) (Nat.succ_lt_succ hi)
    · rw [← hnext]
      exact hfirst
    · rw [← hnext]
      exact hone

/-- The fetch of a queue that runs scans from its head, at most 2^16 descriptors. -/
theorem State.txFetch_first {s t : State} {p q n : Nat} (hon : s.txOn p q = true) (hn : n < 65536)
    (hposted : n < (s.rg (txqReg p q 0x10) - s.rg (txqReg p q 0x14)).toNat)
    (hbefore : ∀ i, i < n → (s.ethOf p).has q (s.rg (txqReg p q 0x14) + BitVec.ofNat 32 i).toNat = true)
    (hfirst : (s.ethOf p).has q (s.rg (txqReg p q 0x14) + BitVec.ofNat 32 n).toNat = false)
    (hone : s.txFetchOne p q (s.rg (txqReg p q 0x14) + BitVec.ofNat 32 n).toNat = (t, true)) : s.txFetch p q = t :=
  (if_pos hon).trans (State.txScan_first (Nat.lt_min.2 ⟨hposted, hn⟩) hbefore hfirst hone)

/-! ## The fetch of one descriptor (R281, R285) -/

/-- The frame of a descriptor's bytes, without the data it names. -/
def descFrame (q idx : Nat) (d : List Byte) : TxFrame :=
  { queue := q, idx := idx, bytes := [], win := bit (nb d 10 1) 0, winStart := leNat ((d.drop 12).take 4),
    winEnd := leNat ((d.drop 16).take 4), tsReq := bit (nb d 10 1) 2, status := 0 }

/-- Length and address of the data that a descriptor names. -/
abbrev descLen (d : List Byte) : Nat := leNat ((d.drop 8).take 2)
abbrev descAddr (d : List Byte) : Nat := leNat (d.take 8)

/-- Whether the frame of a descriptor is due. -/
abbrev State.txDue (s : State) (p q idx : Nat) (d : List Byte) : Bool :=
  if bit (nb d 10 1) 0 then
    decide (s.ahead p q (leNat ((d.drop 12).take 4)) ≤ 1000 * fld (s.pr .tmgr p 0x040) 24 8)
  else decide (idx = (s.rg (txqReg p q 0x14)).toNat)

theorem State.txDue_eq_false {s : State} {p q idx : Nat} {d : List Byte}
    (h : bit (nb d 10 1) 0 = true ∧ (1000 * fld (s.pr .tmgr p 0x040) 24 8 : Nat) < s.ahead p q (leNat ((d.drop 12).take 4))
      ∨ bit (nb d 10 1) 0 = false ∧ idx ≠ (s.rg (txqReg p q 0x14)).toNat) : s.txDue p q idx d = false := by
  obtain ⟨hwin, hfar⟩ | ⟨hwin, hbehind⟩ := h
  · rw [State.txDue, if_pos hwin, decide_eq_false (by push_cast at hfar; omega)]
  · rw [State.txDue, if_neg (Bool.eq_false_iff.1 hwin), decide_eq_false hbehind]

theorem State.txDue_eq_true {s : State} {p q idx : Nat} {d : List Byte}
    (hwindow : bit (nb d 10 1) 0 = true →
      s.ahead p q (leNat ((d.drop 12).take 4)) ≤ (1000 * fld (s.pr .tmgr p 0x040) 24 8 : Nat))
    (hhead : bit (nb d 10 1) 0 = false → idx = (s.rg (txqReg p q 0x14)).toNat) : s.txDue p q idx d = true := by
  unfold State.txDue
  split
  · next hwin => exact decide_eq_true (by have := hwindow hwin; push_cast at this; omega)
  · next hwin => exact decide_eq_true (hhead (Bool.eq_false_iff.2 hwin))

section
variable {s t u : State} {p q idx : Nat} {d b c : List Byte} {sat : Nat}
  (hmay : s.mayCross p (s.txDesc p q idx) 32 false (fld (s.txCtl p q) 6 1 == 1) (fld (s.txCtl p q) 12 4) = true)
  (hread : s.gRead (s.txWho p q) (s.txDesc p q idx) 32 false = (t, .ok d))
include hmay hread

/-- A frame that is not due leaves the descriptor read. -/
theorem State.txFetchOne_early (hdue : s.txDue p q idx d = false) : s.txFetchOne p q idx = (t, false) := by
  simp only [State.txFetchOne, hmay, hread, hdue, Bool.not_true, Bool.not_false, Bool.false_eq_true, if_false, if_true]

section
variable (hdue : s.txDue p q idx d = true)
include hdue

/-- A length outside the rules makes the frame MALFORMED. -/
theorem State.txFetchOne_badLength (hlen : descLen d < 60 ∨ (if bit (nb d 10 1) 1 then 16384 else 9212) < descLen d) :
    s.txFetchOne p q idx = (t.txKeep p { descFrame q idx d with status := 3 }, true) := by
  simp only [State.txFetchOne, hmay, hread, hdue, hlen, Bool.not_true, Bool.false_eq_true, if_false, if_true]
  rfl

section
variable (hlen : ¬(descLen d < 60 ∨ (if bit (nb d 10 1) 1 then 16384 else 9212) < descLen d))
  (hdata : t.mayCross p (descAddr d) (descLen d) false (fld (s.txCtl p q) 6 1 == 1) (fld (s.txCtl p q) 12 4) = true)
include hlen hdata

/-- Data that may not be read raise their source and end the frame with ACCESS. -/
theorem State.txFetchOne_noAccess (hbytes : t.gRead (s.txWho p q) (descAddr d) (descLen d) false = (u, .fail stAccess)) :
    s.txFetchOne p q idx =
      ((u.raise (pageAt .tmgr p) 2 (BitVec.ofNat 32 q)).txKeep p { descFrame q idx d with status := 4 }, true) := by
  simp only [State.txFetchOne, hmay, hread, hdue, hlen, hdata, hbytes, Bool.not_true, Bool.false_eq_true, if_false, if_true]
  rfl

section
variable (hbytes : t.gRead (s.txWho p q) (descAddr d) (descLen d) false = (u, .ok b))
include hbytes

/-- Data that compression finds malformed make the frame MALFORMED. -/
theorem State.txFetchOne_malformed (hcomp : (if bit (nb d 10 1) 1 then compressFrame b else some (b, 0)) = none) :
    s.txFetchOne p q idx = (u.txKeep p { descFrame q idx d with status := 3 }, true) := by
  simp only [State.txFetchOne, hmay, hread, hdue, hlen, hdata, hbytes, hcomp, Bool.not_true, Bool.false_eq_true, if_false]
  rfl

/-- The frame is kept with its bytes, MALFORMED where they are too long for a frame or for its window. -/
theorem State.txFetchOne_bytes (hcomp : (if bit (nb d 10 1) 1 then compressFrame b else some (b, 0)) = some (c, sat)) :
    s.txFetchOne p q idx = (u.txKeep p { descFrame q idx d with
      bytes := c, sat := sat,
      status := if decide (9216 < c.length + 4) || ((descFrame q idx d).win && decide
          (signed 32 ((descFrame q idx d).winEnd + 2 ^ 32 - (descFrame q idx d).winStart) < s.serial p c.length))
        then 3 else 0 }, true) := by
  simp only [State.txFetchOne, hmay, hread, hdue, hlen, hdata, hbytes, hcomp, Bool.not_true, Bool.false_eq_true, if_false]
  rfl

theorem State.txFetchOne_sendable (hcomp : (if bit (nb d 10 1) 1 then compressFrame b else some (b, 0)) = some (c, sat))
    (hfits : c.length + 4 ≤ 9216) (hwindow : (descFrame q idx d).win = false ∨ (u.serial p c.length : Int) ≤
      signed 32 ((descFrame q idx d).winEnd + 2 ^ 32 - (descFrame q idx d).winStart)) :
    s.txFetchOne p q idx = (u.txKeep p { descFrame q idx d with bytes := c, sat := sat, status := 0 }, true) := by
  rw [State.txFetchOne_bytes hmay hread hdue hlen hdata hbytes hcomp, decide_eq_false (Nat.not_lt.2 hfits),
    Bool.false_or, ← State.serial_of_reads hread hbytes, if_neg]
  rw [Bool.and_eq_true, decide_eq_true_eq]
  rintro ⟨hwin, hover⟩
  exact hwindow.elim (fun h => Bool.false_ne_true (h.symm.trans hwin)) fun h => absurd hover (Int.not_lt.2 h)

theorem State.txFetchOne_oversized (hcomp : (if bit (nb d 10 1) 1 then compressFrame b else some (b, 0)) = some (c, sat))
    (hover : 9216 < c.length + 4) :
    s.txFetchOne p q idx = (u.txKeep p { descFrame q idx d with bytes := c, sat := sat, status := 3 }, true) := by
  rw [State.txFetchOne_bytes hmay hread hdue hlen hdata hbytes hcomp, decide_eq_true hover, Bool.true_or, if_pos rfl]

end

end

end

end

/-! ## A free sub-port starts a frame (R282, R284) -/

section
variable {s t u : State} {p sp fuel : Nat} {f : TxFrame}
  (ht : t = (List.range 32).foldl (fun s q => s.txSettle p q 4) s) (hpick : t.txPick p sp = some f)
include ht hpick

/-- A frame that leaves in its window starts with its departure stamped. -/
theorem State.txStart_starts (hleaves : f.win = false ∨ (t.serial p f.bytes.length : Int) ≤ t.ahead p f.queue f.winEnd)
    {v : State} {st : List (Nat × Nat × Nat)}
    (hst : st = (List.range 8).map fun b => (t.baseOn (4 + p / 8) b).shifted (signed 16 (t.pr .eth p 0x04C).toNat))
    (hu : u = t.bump .tmgr p 0x048 f.sat)
    (hv : v = u.setEth p { u.ethOf p with
      fetched := (u.ethOf p).fetched.filter fun y => !(y.queue == f.queue && y.idx == f.idx),
      onWire := Tbl.set none (u.ethOf p).onWire sp (some { f with clk := u.time.clk, stamp := st }),
      rr := Tbl.set 31 (u.ethOf p).rr sp f.queue }) :
    s.txStart p sp (fuel + 1) = { v with
      out := .frame p sp (t.oneStep p f.bytes st ++ leBytes 4 (fcsOf (t.oneStep p f.bytes st)).toNat) :: v.out } := by
  have hlate : (f.win && decide (t.ahead p f.queue f.winEnd < t.serial p f.bytes.length)) = false := by
    rw [Bool.and_eq_false_iff, decide_eq_false_iff_not, Int.not_lt]
    exact hleaves
  simp only [State.txStart, ← ht, hpick, hlate, ← hst, ← hu, ← hv, Bool.false_eq_true, if_false]

/-- A frame that would leave after its window ends as late, and the choice begins again. -/
theorem State.txStart_late (hwin : f.win = true) (hlate : t.ahead p f.queue f.winEnd < t.serial p f.bytes.length)
    (hend : ({ t with free := t.free + 1 } : State).txEnd p f 2 (Config.freeWord t.free).toNat = some u) :
    s.txStart p sp (fuel + 1) = u.txStart p sp fuel := by
  simp only [State.txStart, ← ht, hpick, hwin, hlate, hend, decide_true, Bool.and_self, if_true]

end

/-! ## A frame has left (R281, R283, R306) -/

/-- Its status is written, its cost charged to E(q) and the sub-port free. -/
theorem State.txDone_ends {s t u : State} {p sp rate cost : Nat} {f : TxFrame}
    (hwire : Tbl.get none (s.ethOf p).onWire sp = some f)
    (hend : s.txEnd p f 1 (stampNs (nth (0, 0, 0) f.stamp (fld (s.txCtl p f.queue) 8 3))) = some t)
    (hrate : rate = (t.rg (txqReg p f.queue 0x18)).toNat)
    (hcost : cost = ((f.bytes.length + 4 + fld (t.pr .tmgr p 0x040) 8 8) * 8000 * 256 + rate - 1) / rate)
    (hu : u = t.setEth p { t.ethOf p with
      onWire := Tbl.set none (t.ethOf p).onWire sp none,
      e := if rate = 0 then (t.ethOf p).e else Tbl.upd 0 (t.ethOf p).e f.queue fun e =>
        max e (256 * (f.clk - (t.rg (txqReg p f.queue 0x1C)).toNat)) + cost }) :
    s.txDone p sp = ((u.bump64 .eth p (spOff sp 0x10) 1).bump64 .eth p (spOff sp 0x18) (f.bytes.length + 4)).txStamp p f := by
  subst hrate hcost hu
  simp only [State.txDone, hwire, hend]

/-! ## The commands -/

section
variable {s : State} (h : s.awake = true) (port : Fin 16)
include h

theorem exec_txqDoorbell (q : Fin 32) (v : Word) :
    exec (.txqDoorbell port q v) s = .next (s.finish (s.writeTxTail port.val q.val v)) :=
  (show exec (.txqDoorbell port q v) s = execTxqDoorbell port q v s from rfl).trans (perform_awake h)

theorem exec_txFrameFetch (q : Fin 32) : exec (.txFrameFetch port q) s = .next (s.finish (s.txFetch port.val q.val)) :=
  (show exec (.txFrameFetch port q) s = execTxFrameFetch port q s from rfl).trans (perform_awake h)

theorem exec_txFrameStart (sp : Fin 4) (hup : s.spUp port.val sp.val = true)
    (hfree : Tbl.get none (s.ethOf port.val).onWire sp.val = none) :
    exec (.txFrameStart port sp) s = .next (s.finish (s.txStart port.val sp.val 64)) := by
  refine (show exec (.txFrameStart port sp) s = execTxFrameStart port sp s from rfl).trans ((perform_awake h).trans ?_)
  simp only [hup, hfree, Option.isNone_none, Bool.and_self, if_true]

theorem exec_txFrameComplete (sp : Fin 4) :
    exec (.txFrameComplete port sp) s = .next (s.finish (s.txDone port.val sp.val)) :=
  (show exec (.txFrameComplete port sp) s = execTxFrameComplete port sp s from rfl).trans (perform_awake h)

end

/-- Settles O40: each command by the rules above. -/
theorem ethernetTransmit : Obligations.EthernetTransmit := by
  intro s port q sp val h
  refine ⟨fun t ht => ⟨fun hempty hpost => ?_, fun hposted => ?_⟩, ?_, ?_, ?_, ?_⟩
  -- the doorbell
  · rw [exec_txqDoorbell h, State.writeTxTail_empty ht hempty hpost]
  · rw [exec_txqDoorbell h, State.writeTxTail_posted ht hposted]
  -- the fetch
  · intro n t hon hn hposted hbefore hfirst hone
    rw [exec_txFrameFetch h, State.txFetch_first hon hn hposted hbefore hfirst hone]
  · rintro idx len ga t u d b win comp radio f rfl hmay hread rfl rfl rfl rfl rfl
    refine ⟨fun hearly => State.txFetchOne_early hmay hread (State.txDue_eq_false hearly), fun hwindow hhead => ?_⟩
    have hdue := State.txDue_eq_true hwindow hhead
    refine ⟨fun hbad => State.txFetchOne_badLength hmay hread hdue ?_, fun hshort hlong hdata => ?_⟩
    · obtain hshort | ⟨hcomp, hlong⟩ | ⟨hcomp, hlong⟩ := hbad
      · exact .inl hshort
      · exact .inr (by rwa [if_pos hcomp])
      · exact .inr (by rwa [if_neg (Bool.eq_false_iff.1 hcomp)])
    have hlen := not_or.2 ⟨Nat.not_lt.2 hshort, Nat.not_lt.2 hlong⟩
    refine ⟨fun hbytes => State.txFetchOne_noAccess hmay hread hdue hlen hdata hbytes, fun hbytes =>
        ⟨fun c sat hcomp => ⟨fun hfits hwin => ?_, fun hover => ?_⟩, fun hcomp => ?_⟩⟩
    · exact State.txFetchOne_sendable hmay hread hdue hlen hdata hbytes hcomp hfits hwin
    · exact State.txFetchOne_oversized hmay hread hdue hlen hdata hbytes hcomp hover
    · exact State.txFetchOne_malformed hmay hread hdue hlen hdata hbytes hcomp
  -- a frame starts
  · intro f t u v st hup hfree ht hpick
    rw [exec_txFrameStart h port sp hup hfree]
    refine ⟨fun hleaves hst hu hv => ?_, fun hwin hlate hend => ?_⟩
    · rw [State.txStart_starts ht hpick hleaves hst hu hv]
    · rw [State.txStart_late ht hpick hwin hlate hend]
  -- a frame has left
  · intro f t u rate cost hwire hend hrate hcost hu
    rw [exec_txFrameComplete h, State.txDone_ends hwire hend hrate hcost hu]
    rfl

end Sys2Proof.Machine
end

section
/-! SUPPORT. What form the meaning of every command has, that every step therefore keeps the queue's rest and leaves nothing to
settle, and what stands in the state at reset. -/

namespace Sys2Proof.Machine

/-! ## The form of a meaning -/

/-- The commands that act on a device which does not run: the resets and supplies, and the pins that end them (log 1). -/
def actsAsleep : Instr → Bool
  | .sysResetAssert | .sysResetRelease | .vinLow | .vinRestore | .aonLoss | .vddAonRestore => true
  | _ => false

/-- Every other command leads a running device to some state `u`, and leaves one that does not run; then it settles. -/
theorem exec_perform (c : Instr) (s : State) (h : actsAsleep c = false) :
    ∃ u, exec c s = .next (s.finish (if s.awake = true then u else s)) := by
  cases c with
  | sysResetAssert | sysResetRelease | vinLow | vinRestore | aonLoss | vddAonRestore => cases h
  | _ => exact ⟨_, rfl⟩

/-- A command is an effect with its automatic actions, or the return of the always-on supply, which raises nothing. -/
theorem exec_form (c : Instr) (s : State) :
    (∃ t, exec c s = .next (s.finish t)) ∨ exec c s = .next { s with rst := { s.rst with aonOk := true } } := by
  cases h : actsAsleep c with
  | false =>
    obtain ⟨u, hu⟩ := exec_perform c s h
    exact .inl ⟨_, hu⟩
  | true =>
    cases c with
    | sysResetAssert | sysResetRelease | vinLow | vinRestore | aonLoss => exact .inl ⟨_, rfl⟩
    | vddAonRestore => exact .inr rfl
    | _ => cases h

/-- Every command answers a next state with the queue it found, settled where it began settled. -/
theorem exec_keeps (c : Instr) (s : State) :
    ∃ t, exec c s = .next t ∧ t.pending = s.pending ∧ (s.Settled → t.Settled) := by
  rcases exec_form c s with ⟨t, ht⟩ | ht
  · exact ⟨_, ht, rfl, fun _ => rfl⟩
  · exact ⟨_, ht, rfl, id⟩

/-- On a device that does not run the other commands leave a settled state. -/
theorem exec_asleep {c : Instr} {s : State} (hs : s.awake = false) (hset : s.Settled) (hc : actsAsleep c = false) :
    exec c s = .next s := by
  obtain ⟨u, hu⟩ := exec_perform c s hc
  rw [hu, if_neg (Bool.eq_false_iff.1 hs), finish_self s hset]

theorem actsAsleep_eq_false {c : Instr} (h1 : c ≠ .sysResetAssert) (h2 : c ≠ .sysResetRelease) (h3 : c ≠ .vinLow)
    (h4 : c ≠ .vinRestore) (h5 : c ≠ .aonLoss) (h6 : c ≠ .vddAonRestore) : actsAsleep c = false := by
  unfold actsAsleep
  split
  · exact absurd rfl h1
  · exact absurd rfl h2
  · exact absurd rfl h3
  · exact absurd rfl h4
  · exact absurd rfl h5
  · exact absurd rfl h6
  · rfl

/-! ## A step -/

theorem step_of_cons {s : State} {c : Instr} {rest : List Instr} (h : s.pending = c :: rest) :
    step s = exec c { s with pending := rest } := by
  simp only [step, h]

theorem step_of_nil {s : State} (h : s.pending = []) : step s = .next s.idle := by
  simp only [step, h]

theorem State.idle_pending (s : State) : s.idle.pending = s.pending := by
  unfold State.idle
  split <;> rfl

theorem State.idle_settled {s : State} (h : s.Settled) : s.idle.Settled := by
  unfold State.idle
  split
  · rfl
  · exact h

/-- Settling with one action to take, which calls for no other, is that action. -/
theorem settle_of_one {t u : State} {a : DueAct} (ht : t.flt.due = [a])
    (hu : u = State.act { t with flt := { t.flt with due := [] } } a) (hdue : u.flt.due = []) : t.settle = u := by
  have hloop : t.settleLoop 64 = u := by
    simp only [State.settleLoop, ht, ← hu, hdue]
  simp only [State.settle, hloop, ← hdue]

/-- Settles O1: `step` by its two equations. -/
theorem stepIsTheFrontCommand : Obligations.StepIsTheFrontCommand :=
  ⟨fun _ _ _ => step_of_cons, fun s c rest => step_of_cons (s := { s with pending := c :: rest }) rfl, fun _ => step_of_nil⟩

/-- Settles O2, from the form of every command's meaning. -/
theorem everyCommandRuns : Obligations.EveryCommandRuns := by
  refine ⟨fun s c => exec_keeps c s, fun s c rest h => ?_, finish_of_settled, fun s t u a ht hu hdue => ?_,
    fun _ _ => ⟨rfl, rfl⟩⟩
  · obtain ⟨t, ht, hq, -⟩ := exec_keeps c { s with pending := rest }
    exact ⟨t, (step_of_cons h).trans ht, hq⟩
  · rw [State.finish, settle_of_one ht hu hdue]

/-- Settles O4: a command runs on a settled state with the queue's rest, and an idle step settles what it raises. -/
theorem settledKept : Obligations.SettledKept := by
  intro s t hset hq hstep
  cases hp : s.pending with
  | nil =>
    obtain rfl : s.idle = t := by simpa [step_of_nil hp] using hstep
    refine ⟨State.idle_settled hset, fun c hc => hq c ?_⟩
    rwa [State.idle_pending] at hc
  | cons c rest =>
    obtain ⟨u, hu, hrest, hkeep⟩ := exec_keeps c { s with pending := rest }
    obtain rfl : u = t := by simpa [step_of_cons hp, hu] using hstep
    refine ⟨hkeep hset, fun d hd => hq d ?_⟩
    rw [hrest] at hd
    exact hp ▸ List.mem_cons_of_mem c hd

/-- Settles O5, from the form of every command but the six. -/
theorem asleepDevice : Obligations.AsleepDevice :=
  fun _ _ hs hset h1 h2 h3 h4 h5 h6 => exec_asleep hs hset (actsAsleep_eq_false h1 h2 h3 h4 h5 h6)

/-- Settles O3: nothing is due or waits at reset, every byte memory is empty, and SYS_RESET_N is low. -/
theorem settledAtReset : Obligations.SettledAtReset :=
  ⟨rfl, rfl, fun _ h => absurd h List.not_mem_nil, ⟨rfl, rfl, rfl, rfl, rfl⟩, rfl, rfl⟩

/-! ## Pages -/

/-- PG_ID of a page that has one (R466). -/
theorem State.regVal_pgId (s : State) (p : Page) (h : (regSpec p.kind 0).isSome = true) :
    s.regVal p 0 = BitVec.ofNat 32 (typeCode p.kind * 2 ^ 24 + 2 ^ 16 + p.inst) := by
  obtain ⟨r, hr⟩ := Option.isSome_iff_exists.1 h
  simp [State.regVal, hr, State.driven, State.headerVal, w32]

/-- At reset no register differs from its reset value. -/
theorem State.reset_rg (a : Nat) : State.reset.rg a = regReset a := rfl

theorem PageKind.hasId (k : PageKind) : (regSpec k 0).isSome = true := by cases k <;> decide

/-- Settles O10: the map by evaluation, PG_ID by the page's kind, and reset values by the tables. -/
theorem pagesAndReset : Obligations.PagesAndReset := by
  refine ⟨by decide, by decide, by decide, by decide, by decide, by decide, by decide, ?_, ?_, by decide, by decide, ?_⟩
  · intro s i id kind h
    rw [s.regVal_pgId (pageAt kind i) (PageKind.hasId kind)]
    simp only [List.mem_cons, Prod.mk.injEq, List.not_mem_nil, or_false] at h
    obtain ⟨rfl, rfl, rfl⟩ | ⟨rfl, rfl, rfl⟩ | ⟨rfl, rfl, rfl⟩ | ⟨rfl, rfl, rfl⟩ | ⟨rfl, rfl, rfl⟩ | ⟨rfl, rfl, rfl⟩ := h
      <;> rfl
  · simp only [State.reset_rg]
    decide
  · decide

end Sys2Proof.Machine
end

section
/-! SUPPORT. What a tick of the time clock does to the bases and to the commands that wait for their apply ticks, and the
statements about the time unit. -/

namespace Sys2Proof.Machine

/-! ## A base -/

@[simp] theorem TBase.tick_inc (x : TBase) : x.tick.inc = x.inc := by
  unfold TBase.tick
  dsimp only
  split <;> rfl

/-- A base below 10^9 ns with an increment below 2 ns: one carry into SEC is enough, and a tick adds the increment word to
the time, modulo 2^48 s (R291). -/
theorem TBase.tick_spec {x : TBase} (hns : x.ns < 1000000000) (hfrac : x.frac < 2 ^ 32) (hsec : x.sec < 2 ^ 48)
    (hinc : x.inc.toNat < 2 ^ 33) :
    x.tick.ns < 1000000000 ∧ x.tick.frac < 2 ^ 32 ∧ x.tick.sec < 2 ^ 48
      ∧ (x.tick.sec * 1000000000 + x.tick.ns) * 2 ^ 32 + x.tick.frac
        = ((x.sec * 1000000000 + x.ns) * 2 ^ 32 + x.frac + x.inc.toNat) % (2 ^ 48 * 1000000000 * 2 ^ 32) := by
  unfold TBase.tick
  generalize x.inc.toNat = w at hinc ⊢
  dsimp only
  split
  · dsimp only
    omega
  · dsimp only
    omega

/-! ## Bases of a state -/

theorem nth_map {α β : Type} (f : α → β) (d : α) (e : β) {l : List α} {i : Nat} (h : i < l.length) :
    nth e (l.map f) i = f (nth d l i) := by
  simp [nth, h]

/-! ## What leaves the time unit alone -/

theorem State.police_time (s : State) (p m : Nat) (f : List Byte) (len : Nat) : (s.police p m f len).1.time = s.time := by
  unfold State.police
  extract_lets old reg ctl count two yellow x x' 
  split
  · rfl
  · show State.time (count _ _) = _
    cases old <;> rfl

theorem State.buffer_time (s : State) (p : Nat) (r : RxFrame) : (s.buffer p r).time = s.time := by
  unfold State.buffer
  dsimp only
  split
  · rfl
  · split
    · rw [State.raise_time]; rfl
    · rfl

/-- Frames at their meters and queues are nothing to the time unit. -/
theorem State.meterFrames_time (s : State) (p : Nat) : (s.meterFrames p).time = s.time := by
  unfold State.meterFrames
  split
  · rfl
  · refine foldl_keeps (fun t : State => t.time = s.time) _ _ _ rfl fun t x ht => ?_
    have hp : (t.police p x.1 x.2.bytes (x.2.bytes.length + 4)).1.time = s.time := (t.police_time _ _ _ _).trans ht
    dsimp only
    split
    · exact (State.buffer_time _ _ _).trans hp
    · exact hp

/-- `t` has the time unit of `s` but for the pulse outputs. -/
def State.SameClock (s t : State) : Prop := t.time = { s.time with tpo := t.time.tpo }

theorem State.SameClock.refl (s : State) : s.SameClock s := rfl

theorem State.SameClock.trans {s t u : State} (h : s.SameClock t) (g : t.SameClock u) : s.SameClock u := by
  unfold State.SameClock at *
  rw [g, h]

theorem State.sameClock_setTpo (s : State) (n : Nat) (x : Tpo) : s.SameClock (s.setTpo n x) := rfl
theorem State.sameClock_setRg (s : State) (a : Nat) (v : Word) : s.SameClock (s.setRg a v) := rfl
theorem State.sameClock_tpoFire (s : State) (n : Nat) : s.SameClock (s.tpoFire n) := rfl

theorem State.sameClock_tpoMoved (s : State) (b n old new : Nat) : s.SameClock (s.tpoMoved b n old new) := by
  unfold State.tpoMoved
  extract_lets y x s1 back next st missed s2
  have h1 : s.SameClock s1 := s.sameClock_setTpo n x
  have h2 : s1.SameClock s2 := by
    show s1.SameClock (if _ then _ else _)
    split
    · exact s1.sameClock_setRg _ _
    · exact State.SameClock.refl s1
  clear_value s1 s2 x
  split
  · exact h1
  · split
    · split
      · exact h1.trans ((s1.sameClock_setRg _ _).trans (State.sameClock_tpoFire _ n))
      · exact h1
    · exact (h1.trans h2).trans (s2.sameClock_setTpo n _)

/-- What follows a step or set of a base changes the pulse outputs alone of the time unit. -/
theorem State.sameClock_moved (s : State) (b old : Nat) : s.SameClock (s.moved b old) := by
  unfold State.moved
  extract_lets s1 s2 ro s3
  have h3 : s3.time = s.time := by
    show State.time (if _ then _ else _) = _
    split <;> exact State.raise_time s1 _ _ _
  clear_value s3
  refine foldl_keeps (fun t : State => s.SameClock t) _ _ s3 ?_ fun t n ht => ht.trans (State.sameClock_tpoMoved _ _ _ _ _)
  rw [State.SameClock, h3]

theorem State.ltcTick_time (s : State) :
    s.ltcTick.time = { s.time with ltcNs := s.ltcTick.time.ltcNs, ltcFrac := s.ltcTick.time.ltcFrac } := by
  unfold State.ltcTick
  dsimp only
  split <;> rfl

theorem State.copiesTick_time (s : State) : s.copiesTick.time = { s.time with copies := s.copiesTick.time.copies } := by
  unfold State.copiesTick
  split <;> rfl

/-! ## A tick of a running time unit -/

/-- Those that wait for a later apply tick are one tick nearer to it. -/
def waitOn (l : List (Nat × TCmd × Nat)) : List (Nat × TCmd × Nat) :=
  (l.filter fun p => decide (1 < p.2.2)).map fun p => (p.1, p.2.1, p.2.2 - 1)

/-- The commands `due` take effect by rank (R295). -/
def State.applyDue (s : State) (due : List (Nat × TCmd × Nat)) : State :=
  [0, 1, 2].foldl (fun s k => due.foldl (fun s p => if p.2.1.late = k then s.applyCmd p.1 p.2.1 else s) s) s

/-- A tick advances every base by its increment word, brings what waits nearer, and then applies what is due. -/
theorem State.tick_of_running {s : State} (h : s.time.running = true) :
    ∃ t : State, t.time.running = true ∧ t.time.bases = s.time.bases.map TBase.tick ∧ t.time.pend = waitOn s.time.pend
      ∧ s.tick = t.applyDue (s.time.pend.filter fun p => decide (p.2.2 ≤ 1)) := by
  unfold State.tick
  extract_lets s1 c1 s2 c2 s3 s4 s5 due c3 s6
  have h1 : s1.time = s.time :=
    foldl_keeps (fun t : State => t.time = s.time) _ _ _ rfl fun t p ht => (t.meterFrames_time p).trans ht
  clear_value s1
  have h2 : s2.time.running = true := (congrArg TimeSt.running h1).trans h
  have h5 : s5.time.running = s2.time.running ∧ s5.time.bases = s1.time.bases.map TBase.tick ∧ s5.time.pend = s1.time.pend := by
    rw [show s5 = s4.ltcTick from rfl, State.ltcTick_time, show s4 = s3.copiesTick from rfl, State.copiesTick_time]
    exact ⟨rfl, rfl, rfl⟩
  obtain ⟨hrun, hbases, hpend⟩ := h5
  rw [h1] at hbases hpend
  refine ⟨s6, hrun.trans h2, hbases, ?_, ?_⟩
  · show waitOn s5.time.pend = _
    rw [hpend]
  · rw [h2, show due = s.time.pend.filter _ from congrArg _ hpend]
    rfl

/-- Where nothing is due at it, a tick is of the bases alone. -/
theorem State.tick_waiting {s : State} (h : s.time.running = true) (hp : ∀ p ∈ s.time.pend, 1 < p.2.2) :
    s.tick.time.running = true ∧ s.tick.time.bases = s.time.bases.map TBase.tick
      ∧ s.tick.time.pend = s.time.pend.map fun p => (p.1, p.2.1, p.2.2 - 1) := by
  obtain ⟨t, hrun, hbases, hpend, htick⟩ := State.tick_of_running h
  have hdue : (s.time.pend.filter fun p => decide (p.2.2 ≤ 1)) = [] := by
    rw [List.filter_eq_nil_iff]
    intro p hm
    simpa using hp p hm
  have hwait : (s.time.pend.filter fun p => decide (1 < p.2.2)) = s.time.pend :=
    List.filter_eq_self.2 fun p hm => by simpa using hp p hm
  rw [waitOn, hwait] at hpend
  rw [htick, hdue]
  exact ⟨hrun, hbases, hpend⟩

theorem State.applyDue_one (s : State) (b n : Nat) (c : TCmd) : s.applyDue [(b, c, n)] = s.applyCmd b c := by
  cases c <;> simp [State.applyDue, TCmd.late]

/-- A tick at which the only command that waits is due: the command acts on what the tick has made. -/
theorem State.tick_due {s : State} (h : s.time.running = true) {b : Nat} {c : TCmd} (hp : s.time.pend = [(b, c, 1)]) :
    ∃ t : State, t.time.bases = s.time.bases.map TBase.tick ∧ t.time.pend = [] ∧ s.tick = t.applyCmd b c := by
  obtain ⟨t, -, hbases, hpend, htick⟩ := State.tick_of_running h
  rw [hp] at hpend htick
  exact ⟨t, hbases, hpend, htick.trans (t.applyDue_one b 1 c)⟩

/-- A step or a set replaces its base and leaves the commands that wait. -/
theorem State.applyCmd_base (s : State) {b : Nat} (hb : b < s.time.bases.length) {c : TCmd}
    (hc : (∃ adj, c = .step adj) ∨ ∃ sec ns, c = .setTo sec ns) :
    (s.applyCmd b c).base b = (s.base b).apply c ∧ (s.applyCmd b c).time.pend = s.time.pend := by
  obtain ⟨adj, rfl⟩ | ⟨sec, ns, rfl⟩ := hc
  all_goals
    simp only [State.applyCmd, State.base]
    rw [State.sameClock_moved]
    exact ⟨nth_set_self _ _ hb, rfl⟩

/-- The tick at which a step or a set is due: it acts on the result of its base's tick. -/
theorem State.tick_apply {s : State} (h : s.time.running = true) {b : Nat} (hb : b < s.time.bases.length) {c : TCmd}
    (hc : (∃ adj, c = .step adj) ∨ ∃ sec ns, c = .setTo sec ns) (hp : s.time.pend = [(b, c, 1)]) :
    s.tick.base b = (s.base b).tick.apply c ∧ s.tick.time.pend = [] := by
  obtain ⟨t, hbases, hpend, htick⟩ := State.tick_due h hp
  obtain ⟨hbase, hrest⟩ := t.applyCmd_base (b := b) (by rw [hbases, List.length_map]; exact hb) hc
  rw [htick, hbase, hrest, hpend, State.base, hbases, nth_map TBase.tick {} {} hb]
  exact ⟨rfl, rfl⟩

/-! ## Ticks before an apply tick -/

theorem State.ticks_succ (s : State) (n : Nat) : s.ticks (n + 1) = s.tick.ticks n := by
  delta State.ticks
  rfl

theorem State.ticks_succ_last (s : State) (n : Nat) : s.ticks (n + 1) = (s.ticks n).tick := by
  induction n generalizing s with
  | zero => rfl
  | succ n ih => rw [State.ticks_succ, ih, ← State.ticks_succ]

/-- While the only command waits, ticks bring it nearer and leave the increment words. -/
theorem State.ticks_waiting {s : State} (h : s.time.running = true) {b k n : Nat} {c : TCmd} (hb : b < s.time.bases.length)
    (hk : 0 < k) (hp : s.time.pend = [(b, c, k + n)]) :
    (s.ticks n).time.running = true ∧ (s.ticks n).time.bases.length = s.time.bases.length
      ∧ (s.ticks n).time.pend = [(b, c, k)] ∧ ((s.ticks n).base b).inc = (s.base b).inc := by
  induction n generalizing s with
  | zero => exact ⟨h, rfl, hp, rfl⟩
  | succ n ih =>
    obtain ⟨hrun, hbases, hpend⟩ := State.tick_waiting h (by rw [hp]; intro p hm; obtain rfl := List.mem_singleton.1 hm; dsimp only; omega)
    have hlen : s.tick.time.bases.length = s.time.bases.length := by rw [hbases, List.length_map]
    have hinc : (s.tick.base b).inc = (s.base b).inc := by
      rw [State.base, hbases, nth_map TBase.tick {} {} hb, TBase.tick_inc]
      rfl
    obtain ⟨h1, h2, h3, h4⟩ := ih hrun (hb.trans_eq hlen.symm) (by rw [hpend, hp]; rfl)
    rw [State.ticks_succ]
    exact ⟨h1, h2.trans hlen, h3, h4.trans hinc⟩

/-! ## Steps and sets -/

/-- What a step makes of SEC and NS (R294). -/
theorem TBase.shifted_total (x : TBase) (adj : Int) :
    (((x.shifted adj).1 * 1000000000 + (x.shifted adj).2.1 : Nat) : Int)
      = ((x.sec * 1000000000 + x.ns : Nat) + adj) % (2 ^ 48 * 1000000000 : Nat) := by
  unfold TBase.shifted
  dsimp only
  have hpos := Int.emod_nonneg (((x.sec * 1000000000 + x.ns : Nat) : Int) + adj)
    (b := ((2 ^ 48 * 1000000000 : Nat) : Int)) (by decide)
  generalize (((x.sec * 1000000000 + x.ns : Nat) : Int) + adj) % ((2 ^ 48 * 1000000000 : Nat) : Int) = t at hpos ⊢
  omega

theorem State.cmdPending_of_mem {s : State} {b n : Nat} {c : TCmd} (h : (b, c, n) ∈ s.time.pend)
    (hc : (∃ adj, c = .step adj) ∨ ∃ sec ns, c = .setTo sec ns) : s.cmdPending b = true := by
  refine List.any_eq_true.2 ⟨_, h, ?_⟩
  obtain ⟨adj, rfl⟩ | ⟨sec, ns, rfl⟩ := hc <;> simp

theorem State.writeTbCmd_pending {s : State} {b : Nat} (v : Word) (h : s.cmdPending b = true) : s.writeTbCmd b v = s := by
  simp [State.writeTbCmd, h]

theorem State.writeTbCmd_step {s : State} {b : Nat} (h : s.cmdPending b = false) :
    s.writeTbCmd b 1 = s.defer b (.step (BitVec.ofNat 64 (s.pair (tbReg b 0x18)))) := by
  simp [State.writeTbCmd, h, fld, bits]

theorem fld_set_bit (also : Bool) : fld (BitVec.ofNat 32 (2 + bn also)) 1 1 = 1 := by
  cases also <;> decide

theorem State.writeTbCmd_set {s : State} {b : Nat} (also : Bool) (h : s.cmdPending b = false)
    (hns : (s.rg (tbReg b 0x20)).toNat < 1000000000) : s.writeTbCmd b (BitVec.ofNat 32 (2 + bn also))
      = s.defer b (.setTo (s.pair (tbReg b 0x24) % 2 ^ 48) (s.rg (tbReg b 0x20)).toNat) := by
  simp only [State.writeTbCmd, h, fld_set_bit, Nat.not_le.2 hns, Bool.false_eq_true, if_false, if_true]

theorem State.writeTbCmd_setRefused {s : State} {b : Nat} (also : Bool) (h : s.cmdPending b = false)
    (hns : 1000000000 ≤ (s.rg (tbReg b 0x20)).toNat) : s.writeTbCmd b (BitVec.ofNat 32 (2 + bn also))
      = s.raise (pageAt .time 0) 3 (BitVec.ofNat 32 b) := by
  simp only [State.writeTbCmd, h, fld_set_bit, hns, Bool.false_eq_true, if_false, if_true]

/-! ## The commands -/

/-- On a running device a command leads to its effect, and settles. -/
theorem exec_awake {c : Instr} {s t : State} (h : s.awake = true)
    (hc : exec c s = .next (s.finish (if s.awake = true then t else s))) : exec c s = .next (s.finish t) := by
  rw [hc, if_pos h]

section
variable {s : State} (h : s.awake = true)
include h

theorem exec_tbIncCommit (req : Requestor) (b : Fin 8) (val : BitVec 32) :
    exec (.tbIncCommit req b val) s = .next (s.finish (s.incCommit req b.val val)) :=
  exec_awake h rfl

theorem exec_tbStep (b : Fin 8) : exec (.tbStep b) s = .next (s.finish (s.writeTbCmd b.val 1)) :=
  exec_awake h rfl

theorem exec_tbSet (b : Fin 8) (also : Bool) :
    exec (.tbSet b also) s = .next (s.finish (s.writeTbCmd b.val (BitVec.ofNat 32 (2 + bn also)))) :=
  exec_awake h rfl

theorem exec_timeApplyTick {b n : Nat} {c : TCmd} (hrun : s.time.running = true) (hp : s.time.pend = [(b, c, n)])
    (hn : n ≤ 64) : exec .timeApplyTick s = .next (s.finish (s.ticks n)) := by
  refine (exec_awake h rfl).trans ?_
  have hmin : minBy 64 (fun (p : Nat × TCmd × Nat) => p.2.2) [(b, c, n)] = n := Nat.min_eq_right hn
  simp only [hrun, hp, hmin, List.isEmpty_cons, Bool.not_false, Bool.and_self, if_true]

/-- A copy of the time unit by what its flips make of it (R299). -/
theorem exec_timeStateCheck (die : Fin 6) (flips : List (Fin 1216)) {l : List TBase} {n : Nat}
    (hrun : s.time.running = true) (hold : (l, n) = (Tbl.get none s.time.copies die.val).getD (s.time.bases, 0)) :
    exec (.timeStateCheck die flips) s = .next (s.finish
      (if flipTime l flips = s.time.bases then
        { s with time := { s.time with copies := Tbl.set none s.time.copies die.val none } }
      else if n = 0 ∧ crc32c ((flipTime l flips).flatMap TBase.bytes) ≠ crc32c (s.time.bases.flatMap TBase.bytes) then
        ({ s with time := { s.time with
          copies := Tbl.set none s.time.copies die.val (some (flipTime l flips, 2000)) } } : State).raise (pageAt .time 0) 2
            (BitVec.ofNat 32 (die.val * 256))
      else { s with time := { s.time with copies := Tbl.set none s.time.copies die.val (some (flipTime l flips, n)) } })) := by
  refine (exec_awake h rfl).trans ?_
  simp only [hrun, ← hold, Bool.not_true, Bool.false_eq_true, if_false]

theorem exec_tpoPulseStart (n : Fin 16) (hrun : s.time.running = true) (harm : (s.tpoOf n.val).armed = true)
    (hhigh : (s.tpoOf n.val).high = false)
    (hnext : (s.tpoOf n.val).next ≤ (s.base (fld (s.rg (tpoReg n.val 0)) 4 3)).total) :
    exec (.tpoPulseStart n) s = .next (s.finish (s.tpoFire n.val)) := by
  refine (exec_awake h rfl).trans ?_
  simp [hrun, harm, hhigh, hnext]

theorem exec_tpoPulseEnd (n : Fin 16) (hhigh : (s.tpoOf n.val).high = true)
    (hoff : (s.tpoOf n.val).off ≤ (s.base (fld (s.rg (tpoReg n.val 0)) 4 3)).total) :
    exec (.tpoPulseEnd n) s = .next (s.finish
      (if fld (s.rg (tpoReg n.val 0)) 0 1 = 1 then
        ((s.setTpo n.val { s.tpoOf n.val with high := false }).tpoPin n.val false).tpoLoad n.val
      else (s.setTpo n.val { s.tpoOf n.val with high := false }).tpoPin n.val false)) := by
  refine (exec_awake h rfl).trans ?_
  simp only [hhigh, hoff, decide_true, Bool.and_self, if_true]
  rfl

end

/-! ## Increment words (R292) -/

/-- The staged half, or the register's where none is staged, joined with the low byte of TB_INC_HI. -/
theorem State.takePair_low40 (s : State) (r : Requestor) (a : Nat) (hi : Word) :
    (s.takePair r a hi).2 % 2 ^ 40
      = ((Tbl.get none s.staged (pairKey r a)).getD (s.rg a)).toNat + 2 ^ 32 * (hi.toNat % 256) := by
  have hlo := ((Tbl.get none s.staged (pairKey r a)).getD (s.rg a)).isLt
  unfold State.takePair
  dsimp only
  omega

/-! ## Capture inputs (R303) -/

/-- EDGE selects the edge. -/
def edgeSelected (c : Word) (rising : Bool) : Prop :=
  fld c 1 2 = 0 ∧ rising = true ∨ fld c 1 2 = 1 ∧ rising = false ∨ fld c 1 2 = 2

section
variable {s : State} {n : Nat} {rising : Bool} (hrun : s.time.running = true) (hen : fld (s.rg (tciReg n 0)) 0 1 = 1)
  (hsel : edgeSelected (s.rg (tciReg n 0)) rising)
include hrun hen hsel

/-- A selected edge at an enabled input: missed within 16 ns of the last, dropped by a full FIFO, or captured. -/
theorem State.tciEdge_selected : s.tciEdge n rising =
    if (Tbl.get none s.time.lastEdge n).any (fun t => decide (s.time.clk ≤ t + 16)) = true then
      s.setRg (tciReg n 0x14) (setFld (s.rg (tciReg n 0x14)) 16 16 (min 0xFFFF (fld (s.rg (tciReg n 0x14)) 16 16 + 1)))
    else if 16 ≤ (s.tciOf n).length then
      (s.setRg (tciReg n 0x14) (s.rg (tciReg n 0x14) ||| 0x20)).raise (pageAt .time 0) 4
        (BitVec.ofNat 32 (fld (s.rg (tciReg n 0)) 4 3 + 16 * n))
    else { s with time := { s.time with
      tci := Tbl.upd [] s.time.tci n fun l => l ++ [{ ns := (s.base (fld (s.rg (tciReg n 0)) 4 3)).ns,
                                                      sec := (s.base (fld (s.rg (tciReg n 0)) 4 3)).sec,
                                                      ltc := s.time.ltcNs, rising := rising }],
      lastEdge := Tbl.set none s.time.lastEdge n (some s.time.clk) } } := by
  unfold State.tciEdge
  obtain ⟨hedge, rfl⟩ | ⟨hedge, rfl⟩ | hedge := hsel
  all_goals simp only [hrun, hen, hedge]; rfl

end

theorem any_recent_eq_true {x : Option Nat} {clk : Nat} (h : ∃ t, x = some t ∧ clk ≤ t + 16) :
    x.any (fun t => decide (clk ≤ t + 16)) = true := by
  obtain ⟨t, rfl, ht⟩ := h
  exact decide_eq_true ht

theorem any_recent_ne_true {x : Option Nat} {clk : Nat} (h : ∀ t, x = some t → t + 16 < clk) :
    ¬ x.any (fun t => decide (clk ≤ t + 16)) = true := by
  cases x with
  | none => exact Bool.false_ne_true
  | some t => simpa using h t rfl

/-! ## The statements -/

/-- Settles O41: a base's tick by arithmetic, a state's by what a tick does where nothing waits. -/
theorem tickOfABase : Obligations.TickOfABase := by
  refine ⟨fun x hns hfrac hsec hinc => ?_, fun s b hrun hp hlen => ?_, by decide⟩
  · obtain ⟨h1, h2, h3, h4⟩ := TBase.tick_spec hns hfrac hsec hinc
    exact ⟨h1, h2, h3, x.tick_inc, h4⟩
  · obtain ⟨-, hbases, -⟩ := State.tick_waiting hrun (by simp [hp])
    rw [State.base, hbases, nth_map TBase.tick {} {} (b.isLt.trans_eq hlen.symm)]
    rfl

/-- Settles O42: the joined word by its bounds. -/
theorem incrementCommit : Obligations.IncrementCommit := by
  intro s req b val w t h ht hw
  have hw' : (s.takePair req (tbReg b.val 0x10) val).2 % 2 ^ 40 = w := (s.takePair_low40 _ _ _).trans hw.symm
  have ht' : (s.takePair req (tbReg b.val 0x10) val).1 = t := ht.symm
  rw [exec_tbIncCommit h]
  simp only [State.incCommit, hw', ht']
  refine ⟨fun hlow hhigh => ?_, fun hbad => ?_⟩
  · rw [if_neg (by omega)]
    rfl
  · rw [if_pos hbad]

/-- Settles O43: steps and sets at their apply ticks, and each command by the rules above. -/
theorem timeCommands : Obligations.TimeCommands := by
  refine ⟨⟨fun s b sec ns hrun hlen hp => ?_, fun s b adj x hrun hlen hp hx => ?_, fun s b also c n h hset hmem hc => ?_⟩,
    fun s b h => ⟨fun hfree => ⟨?_, fun also => ⟨fun hns => ?_, fun hns => ?_⟩⟩, fun val => exec_awake h rfl,
      fun c n k hrun hp hn => exec_timeApplyTick h hrun hp hn, exec_awake h rfl, exec_awake h rfl,
      fun die flips l n hrun hold => ?_, fun n x hx hrun => ⟨fun harm hhigh hnext => ?_, fun t hhigh hoff ht => ?_⟩,
      fun n rising c st hc hst hrun hen hsel => ?_, fun n c l t hl ht => ?_, fun e l t hl ht => ?_⟩⟩
  -- a set at its apply tick
  · have hb : b.val < s.time.bases.length := b.isLt.trans_eq hlen.symm
    obtain ⟨hrun', hlen', hp', hinc⟩ := State.ticks_waiting (n := 63) (k := 1) hrun hb Nat.one_pos hp
    obtain ⟨hbase, hpend⟩ := State.tick_apply hrun' (hb.trans_eq hlen'.symm) (.inr ⟨sec, ns, rfl⟩) hp'
    rw [show s.ticks 64 = (s.ticks 63).tick from s.ticks_succ_last 63, hbase]
    refine ⟨hp', hpend, ?_⟩
    rw [TBase.apply, TBase.tick_inc, hinc]
  -- a step at its apply tick
  · obtain ⟨hbase, hpend⟩ := State.tick_apply hrun (b.isLt.trans_eq hlen.symm) (.inl ⟨adj, rfl⟩) hp
    rw [← hx] at hbase
    refine ⟨hpend, by rw [hbase]; rfl, ?_⟩
    rw [hbase]
    exact x.shifted_total adj.toInt
  -- a further TB_CMD write
  · have hpend := State.cmdPending_of_mem hmem hc
    rw [exec_tbStep h, exec_tbSet h, State.writeTbCmd_pending _ hpend, State.writeTbCmd_pending _ hpend, finish_self s hset]
    exact ⟨rfl, rfl⟩
  -- TB_STEP and TB_SET
  · rw [exec_tbStep h, State.writeTbCmd_step hfree]
  · rw [exec_tbSet h, State.writeTbCmd_set also hfree hns]
  · rw [exec_tbSet h, State.writeTbCmd_setRefused also hfree hns]
  -- a copy's check
  · rw [exec_timeStateCheck h die flips hrun hold]
    refine ⟨fun heq => ?_, fun hne hn hcrc => ?_, fun hne hor => ?_⟩
    · rw [if_pos heq]
    · rw [if_neg hne, if_pos ⟨hn, hcrc⟩]
    · rw [if_neg hne, if_neg]
      rintro ⟨hn, hcrc⟩
      exact hor.elim (absurd hn) hcrc
  -- pulses
  · subst hx
    exact exec_tpoPulseStart h n hrun harm hhigh hnext
  · subst hx ht
    rw [exec_tpoPulseEnd h n hhigh hoff]
    refine ⟨fun hoff => ?_, fun hon => ?_⟩
    · rw [if_neg (by omega)]
    · rw [if_pos hon]
  -- an edge
  · subst hc hst
    have hexec : exec (.tciEdge n rising) s = .next (s.finish (s.tciEdge n.val rising)) := exec_awake h rfl
    rw [hexec, State.tciEdge_selected hrun hen hsel]
    refine ⟨fun hsoon => ?_, fun hlate => ⟨fun hroom => ?_, fun hfull => ?_⟩⟩
    · rw [if_pos (any_recent_eq_true hsoon)]
    · rw [if_neg (any_recent_ne_true hlate), if_neg (Nat.not_le.2 hroom)]
    · rw [if_neg (any_recent_ne_true hlate), if_pos hfull]
  -- the heads of the FIFOs
  · have hexec : exec (.tciNsRead n) s = .next (s.finish (s.readTci n.val)) := exec_awake h rfl
    rw [hexec, State.readTci, hl, ht]
  · have hexec : exec .txtsInfoRead s = .next (s.finish s.readTxts) := exec_awake h rfl
    rw [hexec, State.readTxts, hl, ht]

end Sys2Proof.Machine
end

section
/-! SUPPORT. The address map of the HBM (R314): a granule's channel is its index with three bytes of its group folded in. -/

namespace Sys2Proof.Machine

/-- The three bytes of a group that the channel's number is folded with. -/
def groupFold (g : Nat) : Nat := (g ^^^ (g / 256) ^^^ (g / 65536)) % 256

theorem groupFold_lt (g : Nat) : groupFold g < 256 := Nat.mod_lt _ (by decide)

theorem xor_byte_lt {x y : Nat} (hx : x < 256) (hy : y < 256) : x ^^^ y < 256 := Nat.xor_lt_two_pow (n := 8) hx hy

theorem hbmChan_eq (a : Nat) : hbmChan a = a / 256 % 256 ^^^ groupFold (a / 65536) := rfl

theorem hbmChan_lt (a : Nat) : hbmChan a < 256 := xor_byte_lt (Nat.mod_lt _ (by decide)) (groupFold_lt _)

/-- The channel of byte `b` of granule `i` of group `g`. -/
theorem hbmChan_parts {g i b : Nat} (hi : i < 256) (hb : b < 256) : hbmChan (65536 * g + 256 * i + b) = i ^^^ groupFold g := by
  rw [hbmChan_eq, show (65536 * g + 256 * i + b) / 256 % 256 = i by omega, show (65536 * g + 256 * i + b) / 65536 = g by omega]

theorem hbmOffset_eq (inst la : Nat) : hbmOffset inst la
    = 65536 * (la / 256) + 256 * ((inst % 32 * 8 + inst / 32) ^^^ groupFold (la / 256)) + la % 256 := by
  unfold hbmOffset groupFold
  dsimp only
  omega

theorem hbmLa_lt {a : Nat} (h : a < hbmSize) : hbmLa a < 0xC0000000 := by
  unfold hbmLa
  unfold hbmSize at h
  omega

/-- The number of a channel page and the channel that it stands for. -/
theorem inst_of_chan {c : Nat} (hc : c < 256) : (c % 8 * 32 + c / 8) % 32 * 8 + (c % 8 * 32 + c / 8) / 32 = c := by omega

theorem chan_of_inst {i : Nat} (hi : i < 256) : (i % 32 * 8 + i / 32) % 8 * 32 + (i % 32 * 8 + i / 32) / 8 = i := by omega

theorem hbmOffset_hbmInst (a : Nat) : hbmOffset (hbmInst a) (hbmLa a) = a := by
  have hla : hbmLa a / 256 = a / 65536 ∧ hbmLa a % 256 = a % 256 := by
    unfold hbmLa
    omega
  rw [hbmOffset_eq, hla.1, hla.2, hbmInst, inst_of_chan (hbmChan_lt a), hbmChan_eq, Nat.xor_xor_cancel_right]
  omega

/-- An offset made of a channel and an address in it has that channel and that address. -/
theorem hbmOffset_inverse {inst la : Nat} (hi : inst < 256) (hla : la < 0xC0000000) :
    hbmOffset inst la < hbmSize ∧ hbmInst (hbmOffset inst la) = inst ∧ hbmLa (hbmOffset inst la) = la := by
  have hc : inst % 32 * 8 + inst / 32 < 256 := by omega
  have hx := xor_byte_lt hc (groupFold_lt (la / 256))
  rw [hbmOffset_eq]
  refine ⟨?_, ?_, ?_⟩
  · unfold hbmSize
    omega
  · rw [hbmInst, hbmChan_parts hx (Nat.mod_lt _ (by decide)), Nat.xor_xor_cancel_right, chan_of_inst hi]
  · unfold hbmLa
    omega

/-- Settles O44: folding a byte in is undone by folding it in again. -/
theorem channelMap : Obligations.ChannelMap := by
  refine ⟨fun a ha => ⟨?_, ?_, rfl, ?_, hbmLa_lt ha, hbmOffset_hbmInst a⟩, fun inst la => hbmOffset_inverse,
    fun g i j _ hi hj h => ?_, fun g c _ hc => ?_⟩
  · rw [hbmChan_eq, groupFold, Nat.div_div_eq_div_mul, Nat.div_div_eq_div_mul]
  · unfold hbmLa
    omega
  · have hc := hbmChan_lt a
    unfold hbmInst
    omega
  · have hi' := hbmChan_parts (g := g) (b := 0) hi (by decide)
    have hj' := hbmChan_parts (g := g) (b := 0) hj (by decide)
    exact Nat.xor_left_injective (hi'.symm.trans (h.trans hj'))
  · refine ⟨c ^^^ groupFold g, xor_byte_lt hc (groupFold_lt g), ?_⟩
    have h := hbmChan_parts (g := g) (b := 0) (xor_byte_lt hc (groupFold_lt g)) (by decide)
    exact h.trans (Nat.xor_xor_cancel_right _ _)

end Sys2Proof.Machine
end

section
/-! SUPPORT. What the check of words with at most two erring positions finds and does, and the statement about reads and
writes of a line of HBM. -/

namespace Sys2Proof.Machine

/-! ## What a check finds -/

/-- The outcomes of `n` words from word `w`, where each has at most two erring positions (R317). -/
def eccOutcomes (e : Tbl (List Nat)) (w n : Nat) : List (Nat × Ecc) :=
  (List.range' w n).map fun v => (v, eccFew (Tbl.get [] e v))

theorem Checked.words_few (c : Checked) (w n : Nat) (h : ∀ i, i < n → (Tbl.get [] c.ecc (w + i)).length ≤ 2) :
    c.words w n = { c with found := c.found ++ eccOutcomes c.ecc w n } := by
  induction n generalizing c w with
  | zero => simp [Checked.words, eccOutcomes]
  | succ n ih =>
    have hword : c.word w = { c with found := c.found ++ [(w, eccFew (Tbl.get [] c.ecc w))] } := by
      simp only [Checked.word, if_pos (show (Tbl.get [] c.ecc w).length ≤ 2 from h 0 n.succ_pos)]
    rw [Checked.words, hword, ih _ _ fun i hi => ?_]
    · simp [eccOutcomes, List.range'_succ]
    · have := h (i + 1) (Nat.succ_lt_succ hi)
      rwa [Nat.add_comm i, ← Nat.add_assoc] at this

/-- A check of such words: the events of each, and what an uncorrectable or a corrected one calls for. -/
theorem State.hbmCheck_few (s : State) (w n : Nat) (h : ∀ i, i < n → (Tbl.get [] s.ecc (w + i)).length ≤ 2) :
    s.hbmCheck w n =
      if ((eccOutcomes s.ecc w n).any fun f => f.2.isBad) = true then
        (((eccOutcomes s.ecc w n).foldl State.hbmWord s).hbmPoison (w / 8), false)
      else (if ((eccOutcomes s.ecc w n).any fun f => f.2.fixed) = true then
          { (eccOutcomes s.ecc w n).foldl State.hbmWord s with
            wb := addSorted (w / 8) ((eccOutcomes s.ecc w n).foldl State.hbmWord s).wb }
        else (eccOutcomes s.ecc w n).foldl State.hbmWord s, true) := by
  simp only [State.hbmCheck, Checked.words_few { mem := s.hbm, ecc := s.ecc, free := s.free, found := [] } w n h,
    List.nil_append]

/-- Words that are found good call for nothing. -/
theorem foldl_hbmWord_good {l : List (Nat × Ecc)} (h : ∀ f ∈ l, f.2 = .good) (s : State) : l.foldl State.hbmWord s = s := by
  induction l with
  | nil => rfl
  | cons f l ih =>
    have hf : s.hbmWord f = s := by
      unfold State.hbmWord
      rw [h f List.mem_cons_self]
    rw [List.foldl_cons, hf]
    exact ih fun g hg => h g (List.mem_cons_of_mem f hg)

theorem any_eq_false_of_good {l : List (Nat × Ecc)} (p : Ecc → Bool) (hp : p .good = false) (h : ∀ f ∈ l, f.2 = .good) :
    (l.any fun f => p f.2) = false := by
  rw [List.any_eq_false]
  intro f hf
  rw [h f hf, hp]
  exact Bool.false_ne_true

theorem eccOutcomes_good {e : Tbl (List Nat)} {w n : Nat} (h : ∀ i, i < n → Tbl.get [] e (w + i) = []) :
    ∀ f ∈ eccOutcomes e w n, f.2 = .good := by
  intro f hf
  obtain ⟨v, hv, rfl⟩ := List.mem_map.1 hf
  obtain ⟨i, hi, rfl⟩ := List.mem_range'.1 hv
  have := h i hi
  rw [Nat.one_mul]
  exact congrArg eccFew this

/-- Where one word alone errs, its outcome stands among good ones. -/
theorem eccOutcomes_one {e : Tbl (List Nat)} {w n k : Nat} (hk : k < n) (h : ∀ i, i < n → i ≠ k → Tbl.get [] e (w + i) = []) :
    ∃ a b, eccOutcomes e w n = a ++ (w + k, eccFew (Tbl.get [] e (w + k))) :: b
      ∧ (∀ f ∈ a, f.2 = .good) ∧ ∀ f ∈ b, f.2 = .good := by
  refine ⟨eccOutcomes e w k, eccOutcomes e (w + k + 1) (n - k - 1), ?_, eccOutcomes_good fun i hi => h i (hi.trans hk) hi.ne,
    eccOutcomes_good fun i hi => ?_⟩
  · obtain ⟨m, rfl⟩ : ∃ m, n = k + (m + 1) := ⟨n - k - 1, by omega⟩
    rw [show k + (m + 1) - k - 1 = m by omega]
    simp only [eccOutcomes, ← List.range'_append_1, List.map_append, List.range'_succ, List.map_cons]
  · have := h (k + 1 + i) (by omega) (by omega)
    rwa [← Nat.add_assoc, ← Nat.add_assoc] at this

/-! ## The checks of a line -/

section
variable {s : State} {w n : Nat}

theorem State.hbmCheck_clean (h : ∀ i, i < n → Tbl.get [] s.ecc (w + i) = []) : s.hbmCheck w n = (s, true) := by
  have hgood := eccOutcomes_good h
  rw [s.hbmCheck_few w n fun i hi => by rw [h i hi]; exact Nat.zero_le 2, foldl_hbmWord_good hgood,
    any_eq_false_of_good Ecc.isBad rfl hgood, any_eq_false_of_good Ecc.fixed rfl hgood]
  rfl

variable {k : Nat} (hk : k < n) (h : ∀ i, i < n → i ≠ k → Tbl.get [] s.ecc (w + i) = [])
include hk h

/-- One word errs in one or two positions: its outcome decides. -/
theorem State.hbmCheck_one {o : Ecc} (hlen : (Tbl.get [] s.ecc (w + k)).length ≤ 2)
    (ho : eccFew (Tbl.get [] s.ecc (w + k)) = o) :
    s.hbmCheck w n =
      if o.isBad = true then ((s.hbmWord (w + k, o)).hbmPoison (w / 8), false)
      else (if o.fixed = true then
          { s.hbmWord (w + k, o) with wb := addSorted (w / 8) (s.hbmWord (w + k, o)).wb }
        else s.hbmWord (w + k, o), true) := by
  obtain ⟨a, b, hab, ha, hb⟩ := eccOutcomes_one hk h
  have hany (p : Ecc → Bool) (hp : p .good = false) : ((eccOutcomes s.ecc w n).any fun f => p f.2) = p o := by
    rw [hab, List.any_append, List.any_cons, any_eq_false_of_good p hp ha, any_eq_false_of_good p hp hb, ho, Bool.or_false,
      Bool.false_or]
  have hfold : (eccOutcomes s.ecc w n).foldl State.hbmWord s = s.hbmWord (w + k, o) := by
    rw [hab, List.foldl_append, foldl_hbmWord_good ha, List.foldl_cons, foldl_hbmWord_good hb, ho]
  rw [s.hbmCheck_few w n fun i hi => ?_, hany Ecc.isBad rfl, hany Ecc.fixed rfl, hfold]
  by_cases hik : i = k
  · rw [hik]
    exact hlen
  · rw [h i hi hik]
    exact Nat.zero_le 2

/-- A corrected word: counted, raised, and its line noted for the write-back. -/
theorem State.hbmCheck_fixed {o : Ecc} (hlen : (Tbl.get [] s.ecc (w + k)).length ≤ 2)
    (ho : eccFew (Tbl.get [] s.ecc (w + k)) = o) (hbad : o.isBad = false) (hfixed : o.fixed = true) :
    s.hbmCheck w n = ({ s.hbmWord (w + k, o) with wb := addSorted (w / 8) (s.hbmWord (w + k, o)).wb }, true) := by
  rw [State.hbmCheck_one hk h hlen ho, hbad, hfixed]
  rfl

/-- Two positions that are not adjacent: the line is poisoned. -/
theorem State.hbmCheck_bad {p q : Nat} (hpq : Tbl.get [] s.ecc (w + k) = [p, q]) (hne : q ≠ p + 1) :
    s.hbmCheck w n = ((s.eccLast (hbmInst (8 * (w + k))) p 0x7F 3).hbmPoison (w / 8), false) := by
  have ho : eccFew (Tbl.get [] s.ecc (w + k)) = .bad p := by rw [hpq]; exact if_neg hne
  rw [State.hbmCheck_one hk h (by rw [hpq]; exact Nat.le_refl 2) ho]
  rfl

end

/-! ## What events of a word leave -/

theorem State.noteRow_hbm (s : State) (inst row n : Nat) : (s.noteRow inst row n).hbm = s.hbm := State.setHc_hbm _ _ _

theorem State.eccLast_hbm (s : State) (inst p q kind : Nat) : (s.eccLast inst p q kind).hbm = s.hbm :=
  State.setPr_hbm _ _ _ _ _

theorem State.hbmWord_hbm (s : State) (f : Nat × Ecc) : (s.hbmWord f).hbm = s.hbm := by
  unfold State.hbmWord
  dsimp only
  split
  · rfl
  · rw [State.raise_hbm, State.noteRow_hbm, State.eccLast_hbm, State.bump_hbm]
  · rw [State.raise_hbm, State.noteRow_hbm, State.eccLast_hbm, State.bump_hbm]
  · rw [State.eccLast_hbm]

theorem mem_addSorted (x : Nat) (l : List Nat) : x ∈ addSorted x l := by
  induction l with
  | nil => exact List.mem_singleton.2 rfl
  | cons y l ih =>
    unfold addSorted
    split
    · exact List.mem_cons_self
    · split
      · next h => exact h ▸ List.mem_cons_self
      · exact List.mem_cons_of_mem y ih

theorem State.hbmPoison_poison (s : State) (line : Nat) : (s.hbmPoison line).poison = addSorted line s.poison := by
  have hnote (t : State) (inst row n : Nat) : (t.noteRow inst row n).poison = t.poison := State.setHc_poison _ _ _
  unfold State.hbmPoison
  extract_lets a inst t
  rw [State.raise_poison, hnote, State.bump_poison]

/-! ## Reads and writes of a line -/

section
variable {s : State} {line : Nat} {spec : Bool} {c : State}
variable (hc : c = s.bump64 .hbmc (hbmInst (64 * line)) (if spec then 0x054 else 0x044) 1)

theorem State.hbmLineRead_fault (hf : s.stackFault (hbmInst (64 * line)) = true) : s.hbmLineRead line spec = (s, none) := by
  simp only [State.hbmLineRead, hf, if_true]

include hc

theorem State.hbmLineRead_poisoned (hf : s.stackFault (hbmInst (64 * line)) = false) (hp : s.poison.contains line = true) :
    s.hbmLineRead line spec = (c.bump .hbmc (hbmInst (64 * line)) 0x070 1, none) := by
  have hp' : c.poison.contains line = true := by rw [hc, State.bump64_poison]; exact hp
  subst hc
  simp only [State.hbmLineRead, hf, Bool.false_eq_true, if_false, hp', if_true]

theorem State.hbmLineRead_checked (hf : s.stackFault (hbmInst (64 * line)) = false) (hp : s.poison.contains line = false) :
    s.hbmLineRead line spec = ((c.hbmCheck (8 * line) 8).1,
      if (c.hbmCheck (8 * line) 8).2 then some ((c.hbmCheck (8 * line) 8).1.hbm.read (64 * line) 64) else none) := by
  have hp' : c.poison.contains line = false := by rw [hc, State.bump64_poison]; exact hp
  subst hc
  simp only [State.hbmLineRead, hf, hp', Bool.false_eq_true, if_false]

end

/-- What a partial write checks before it is applied: the words that it covers in part (R476). -/
def State.checkPart (s : State) (line first n : Nat) : State × Bool :=
  (partWords first n).foldl (fun (p : State × Bool) i => if p.2 then p.1.hbmCheck (8 * line + i) 1 else p) (s, true)

section
variable {s : State} {line first : Nat} {data : List Byte} {t : State}

theorem State.hbmLineWrite_fault (poison : Bool) (hf : s.stackFault (hbmInst (64 * line)) = true) :
    s.hbmLineWrite line data poison = (s, false) := by
  simp only [State.hbmLineWrite, hf, if_true]

variable (ht : t = s.bump64 .hbmc (hbmInst (64 * line)) 0x04C 1) (hf : s.stackFault (hbmInst (64 * line)) = false)
include ht hf

theorem State.hbmLineWrite_whole (poison : Bool) (hlen : data.length = 64) : s.hbmLineWrite line data poison
    = ({ t with
          hbm := t.hbm.write (64 * line) data, ecc := clearEcc t.ecc (8 * line) 8,
          poison := if poison then addSorted line t.poison else t.poison.erase line, wb := t.wb.erase line }, true) := by
  subst ht
  simp only [State.hbmLineWrite, hf, Bool.false_eq_true, if_false, List.take_of_length_le hlen.le]

theorem State.hbmPartWrite_poisoned (hp : t.poison.contains line = true) : s.hbmPartWrite line first data = (t, false) := by
  subst ht
  simp only [State.hbmPartWrite, hf, hp, Bool.false_eq_true, if_false, if_true]

theorem State.hbmPartWrite_checked (hp : t.poison.contains line = false) {v : State} {ok : Bool}
    (hv : t.checkPart line first data.length = (v, ok)) : s.hbmPartWrite line first data =
      if ok = true then
        ({ v with
            hbm := v.hbm.write (64 * line + first) data,
            ecc := (touchedWords first data.length).foldl (fun e i => Tbl.set [] e (8 * line + i) []) v.ecc,
            wb := v.wb.erase line }, true)
      else (v, false) := by
  subst ht
  unfold State.checkPart at hv
  simp only [State.hbmPartWrite, hf, hp, hv, Bool.false_eq_true, if_false]

end

/-! ## The commands -/

section
variable {s : State} {line : BitVec 34} (h : s.awake = true) (hup : s.lineUp line.toNat = true)
include h hup

theorem exec_hbmRead (spec retried : Bool) (flips : List (Fin 576)) {r u v : State} {m : Option (List Byte)}
    (hr : r = if retried then s.raise (pageAt .hbmc (hbmInst (64 * line.toNat))) 6 (hbmInfo (hbmLa (64 * line.toNat))) else s)
    (hu : u = { r with ecc := flipBits r.ecc (8 * line.toNat) flips }) (hread : u.hbmLineRead line.toNat spec = (v, m)) :
    exec (.hbmRead line spec retried flips) s = .next (s.finish { v with mdata := m }) := by
  refine (exec_awake h rfl).trans ?_
  simp only [hup, Bool.not_true, Bool.false_eq_true, if_false]
  rw [← hr, ← hu, hread]

theorem exec_hbmWrite (data : BitVec 512) (poison : Bool) {u : State} {ok : Bool}
    (hwrite : s.hbmLineWrite line.toNat (leBytes 64 data.toNat) poison = (u, ok)) :
    exec (.hbmWrite line data poison) s = .next (s.finish
      (if ok then { u.mirrorOwner (64 * line.toNat) (leBytes 64 data.toNat) with mdata := some [] }
        else { u with mdata := none })) := by
  refine (exec_awake h rfl).trans ?_
  simp only [hup, Bool.not_true, Bool.false_eq_true, if_false, lineBytes, hwrite]

theorem exec_hbmPartialWrite {first : Fin 64} {data : List (BitVec 8)} (hlen : first.val + data.length ≤ 64) {u : State}
    {ok : Bool} (hwrite : s.hbmPartWrite line.toNat first.val data = (u, ok)) :
    exec (.hbmPartialWrite line first data) s = .next (s.finish
      (if ok then { u.mirrorOwner (64 * line.toNat + first.val) data with mdata := some [] }
        else { u with mdata := none })) := by
  refine (exec_awake h rfl).trans ?_
  simp only [hup, Bool.not_true, Bool.false_eq_true, if_false, List.take_of_length_le (show data.length ≤ 64 - first.val by omega),
    hwrite]

theorem exec_correctedWriteBack (hwb : s.wb.contains line.toNat = true) (hp : s.poison.contains line.toNat = false) :
    exec (.correctedWriteBack line) s = .next (s.finish
      { s with wb := s.wb.erase line.toNat, ecc := clearEcc s.ecc (8 * line.toNat) 8 }) := by
  refine (exec_awake h rfl).trans ?_
  simp only [hwb, hup, hp, Bool.not_true, Bool.or_self, Bool.false_eq_true, if_false]

omit hup in
theorem exec_correctedWriteBack_none (hwb : s.wb.contains line.toNat = false) :
    exec (.correctedWriteBack line) s = .next (s.finish s) := by
  refine (exec_awake h rfl).trans ?_
  simp only [hwb, Bool.not_false, Bool.true_or, if_true]

end

/-- Settles O45: a read by what its check finds, a write by what it covers. -/
theorem lineOutcomes : Obligations.LineOutcomes := by
  intro s line spec inst h hup hinst
  subst hinst
  refine ⟨fun retried flips r u c hr hu hc => ⟨fun hf hp => ?_, fun hf hp => ?_, fun hf => ?_⟩,
    fun data poison t u hf ht hu => ?_, fun data poison hf => ?_, fun first data t hlen hf ht => ⟨fun hp => ?_, ?_⟩,
    fun hwb hp => exec_correctedWriteBack h hup hwb hp,
    fun hwb hset => by rw [exec_correctedWriteBack_none h hwb, finish_self s hset]⟩
  -- a line that is not poisoned
  · have hread := State.hbmLineRead_checked hc hf hp
    have hdiv : 8 * line.toNat / 8 = line.toNat := by omega
    have hecc : c.ecc = u.ecc := by rw [hc, State.bump64_ecc]
    have hhbm : c.hbm = u.hbm := by rw [hc, State.bump64_hbm]
    have hdone (t : State) (ok : Bool) (hcheck : c.hbmCheck (8 * line.toNat) 8 = (t, ok)) :
        exec (.hbmRead line spec retried flips) s = .next (s.finish
          { t with mdata := if ok then some (t.hbm.read (64 * line.toNat) 64) else none }) := by
      rw [hcheck] at hread
      exact exec_hbmRead h hup spec retried flips hr hu hread
    rw [← hecc, ← hhbm]
    refine ⟨fun hclean => hdone c true (State.hbmCheck_clean hclean),
      fun k p hk hother => ⟨fun hone t ht => ?_, fun htwo t ht => ?_, fun q hne htwo t ht => ?_⟩, hdone⟩
    · have hcheck := State.hbmCheck_fixed (o := .single p) hk hother (by rw [hone]; exact Nat.le_succ 1) (by rw [hone]; rfl) rfl rfl
      have hkept : t.hbm = c.hbm := by rw [ht, State.hbmWord_hbm]
      rw [← ht, hdiv] at hcheck
      rw [hdone _ _ hcheck, ← hkept]
      rfl
    · have hcheck := State.hbmCheck_fixed (o := .pair p) hk hother (by rw [htwo]; exact Nat.le_refl 2)
        (by rw [htwo]; exact if_pos rfl) rfl rfl
      have hkept : t.hbm = c.hbm := by rw [ht, State.hbmWord_hbm]
      rw [← ht, hdiv] at hcheck
      rw [hdone _ _ hcheck, ← hkept]
      rfl
    · have hcheck := State.hbmCheck_bad hk hother htwo hne
      have hpoison : t.poison.contains line.toNat = true := by
        rw [ht, State.hbmPoison_poison]
        exact List.contains_iff_mem.2 (mem_addSorted _ _)
      rw [hdiv, ← ht] at hcheck
      exact ⟨hpoison, hdone t false hcheck⟩
  -- a poisoned line, and a stack in fault state
  · exact exec_hbmRead h hup spec retried flips hr hu (State.hbmLineRead_poisoned hc hf hp)
  · exact exec_hbmRead h hup spec retried flips hr hu (State.hbmLineRead_fault hf)
  -- a whole line's write
  · rw [exec_hbmWrite h hup data poison (State.hbmLineWrite_whole ht hf poison (length_leBytes 64 _)), ← hu]
    rfl
  · rw [exec_hbmWrite h hup data poison (State.hbmLineWrite_fault poison hf)]
    rfl
  -- a partial write
  · rw [exec_hbmPartialWrite h hup hlen (State.hbmPartWrite_poisoned ht hf hp)]
    rfl
  · intro v ok u hp hcheck hu
    have hwrite := State.hbmPartWrite_checked (first := first.val) (data := data) ht hf hp hcheck
    rw [← hu] at hwrite
    refine ⟨fun hnone => ?_, fun hok => ?_, fun hok => ?_⟩
    · rw [hnone] at hcheck
      obtain ⟨rfl, rfl⟩ := Prod.mk.inj hcheck
      exact ⟨rfl, rfl⟩
    · rw [hok, if_pos rfl] at hwrite
      rw [exec_hbmPartialWrite h hup hlen hwrite]
      rfl
    · rw [hok, if_neg Bool.false_ne_true] at hwrite
      rw [exec_hbmPartialWrite h hup hlen hwrite]
      rfl

end Sys2Proof.Machine
end

section
/-! SUPPORT. What scrubbing, row repair, wipes and translation do, and the statement about the upkeep of the memories. -/

namespace Sys2Proof.Machine

/-! ## Scrubbing and repair (R320 to R323) -/

section
variable {s : State} (h : s.awake = true)
include h

theorem exec_hbmScrubRead {ch : Fin 256} (flips : List (Fin 576)) {x : HbmCh} {line : Nat} {t v : State}
    (hx : x = s.hcOf ch.val) (hline : line = hbmOffset ch.val (64 * (x.scrub % chanLines)) / 64) (hup : s.hbmUp ch.val = true)
    (hwipe : s.fullWipe = false) (hmaint : s.maintOff = false) (hserve : s.mayServe (16 + ch.val) 0x11 = true)
    (ht : t = (s.setHc ch.val { x with scrub := x.scrub + 1 }).bump64 .hbmc ch.val 0x05C 1)
    (hv : v = { t with ecc := flipBits t.ecc (8 * line) flips }) {w : State}
    (hw : w = if (v.poison.contains line || v.stackFault ch.val) = true then v else (v.hbmCheck (8 * line) 8).1) :
    exec (.hbmScrubRead ch flips) s = .next (s.finish (w.setPr .hash 0 0x068 (BitVec.ofNat 32 w.passes))) := by
  have hgo : ¬(!s.hbmUp ch.val || s.fullWipe || s.maintOff || !s.mayServe (16 + ch.val) 0x11) = true := by
    rw [hup, hwipe, hmaint, hserve]
    exact Bool.false_ne_true
  subst hw hv ht hline hx
  refine (exec_awake h rfl).trans ?_
  dsimp only
  rw [if_neg hgo]

theorem exec_csScrubRead {cl : Fin 144} (flips : List (Fin 576)) {line : Nat} {t v : State}
    (hline : line = cl.val * 49152 + (s.clOf cl.val).scrub % 49152) (hpwr : (s.clOf cl.val).pwr ≠ .dark)
    (hmaint : s.maintOff = false) (hwarm : s.rst.warm = false) (hdom : s.rst.doms.contains (cl.val / 36) = false)
    (ht : t = s.setCl cl.val { s.clOf cl.val with scrub := ((s.clOf cl.val).scrub + 1) % 49152 })
    (hv : v = { t with csEcc := flipBits t.csEcc (8 * line) flips }) :
    exec (.csScrubRead cl flips) s = .next (s.finish
      (if v.csPoison.contains line = true then v else (v.csCheck cl.val (8 * line) 8).1)) := by
  have hgo : ¬((s.clOf cl.val).pwr = .dark ∨ s.maintOff = true ∨ s.rst.warm = true
      ∨ s.rst.doms.contains (cl.val / 36) = true) := by
    simp only [hpwr, hmaint, hwarm, hdom, Bool.false_eq_true, or_self, not_false_eq_true]
  subst hv ht hline
  refine (exec_awake h rfl).trans ?_
  dsimp only
  rw [if_neg hgo]
  rfl

theorem exec_rowRepairPpr {ch : Fin 256} {r : Repair} {t : State} (hr : (s.hcOf ch.val).repair = some r)
    (hup : s.hbmUp ch.val = true) (hnew : r.issued = false)
    (howner : s.ownerNow (16 + ch.val) = 0x11 ∨ s.ownerNow (16 + ch.val) = 0x1F)
    (ht : t = (rowLines ch.val r.row).foldl State.copyLine s) : exec (.rowRepairPpr ch) s = .next (s.finish
      (t.setHc ch.val { t.hcOf ch.val with repair := some { r with issued := true } })) := by
  refine (exec_awake h rfl).trans ?_
  have hmay : (s.ownerNow (16 + ch.val) == 0x11 || s.ownerNow (16 + ch.val) == 0x1F) = true := by
    simpa only [Bool.or_eq_true, beq_iff_eq] using howner
  simp only [hr, hup, hnew, hmay, Bool.not_false, Bool.and_self, if_true, ← ht]

/-- The end of a repair: failed or without a spare row, or done. -/
theorem exec_rowRepairComplete {ch : Fin 256} (ok : Bool) {r : Repair} (hr : (s.hcOf ch.val).repair = some r)
    (hup : s.hbmUp ch.val = true) (hissued : r.issued = true) :
    (ok = false ∨ spareRows ≤ Tbl.get 0 (s.hcOf ch.val).used (bankOf r.row) →
      exec (.rowRepairComplete ch ok) s = .next (s.finish ((s.setHc ch.val { s.hcOf ch.val with
        repair := (s.hcOf ch.val).due (fld (s.pr .hbmc ch.val 0x080) 0 8) r.row }).raise (pageAt .hbmc ch.val) 5
          (hbmInfo (rowLa r.row)))))
    ∧ (∀ (u : State) (x : Tbl Nat), ok = true → Tbl.get 0 (s.hcOf ch.val).used (bankOf r.row) < spareRows →
      x = Tbl.upd 0 (s.hcOf ch.val).used (bankOf r.row) (· + 1) →
      u = s.setHc ch.val { s.hcOf ch.val with
        repair := (s.hcOf ch.val).due (fld (s.pr .hbmc ch.val 0x080) 0 8) r.row, used := x,
        rows := (s.hcOf ch.val).rows.filter (fun p => p.1 != r.row) } →
      exec (.rowRepairComplete ch ok) s = .next (s.finish
        ((((u.bump .hbmc ch.val 0x078 1).setPr .hbmc ch.val 0x07C
          (BitVec.ofNat 32 (spareRows - maxBy (·.2) x))).raise (pageAt .hbmc ch.val) 4 (hbmInfo (rowLa r.row))).logEvent
            (pageAt .hbmc ch.val) 0x1804 6 0 (hbmInfo (rowLa r.row)) (rowLa r.row)))) := by
  refine ⟨fun hbad => (exec_awake h rfl).trans ?_, fun u x hok hleft hx hu => (exec_awake h rfl).trans ?_⟩
  · have hbad' : (!ok) = true ∨ spareRows ≤ Tbl.get 0 (s.hcOf ch.val).used (bankOf r.row) := by simpa using hbad
    simp only [hr, hup, hissued, Bool.not_true, Bool.or_self, Bool.false_eq_true, if_false, if_pos hbad']
  · have hgood : ¬((!ok) = true ∨ spareRows ≤ Tbl.get 0 (s.hcOf ch.val).used (bankOf r.row)) := by
      simpa [hok] using hleft
    simp only [hr, hup, hissued, Bool.not_true, Bool.or_self, Bool.false_eq_true, if_false, if_neg hgood, ← hx, ← hu]

/-! ## Wipes (R325, R326) -/

theorem exec_wipeStart_full (hphase : s.boot.phase = 4) (hnone : s.fullWipe = false) :
    exec (.wipeStart .full) s = .next (s.finish { s with wipes := [.full], wipeAt := s.time.clk }) := by
  refine (exec_awake h rfl).trans ?_
  simp only [hphase, hnone, Bool.not_false, and_self, if_true]

theorem exec_wipeStart_strike (v : Fin 256) (hdue : s.wipeDue v.val = true) (hnone : s.wipes = []) :
    exec (.wipeStart (.strike v)) s = .next (s.finish { s with wipes := [.strike v] }) := by
  refine (exec_awake h rfl).trans ?_
  simp only [hdue, hnone, List.isEmpty_nil, Bool.and_self, if_true]

/-- The memories after a full wipe, the patrol at the start of its pass. -/
def State.wiped (s : State) : State :=
  { ({ s with wipes := s.wipes.erase .full } : State).wipeAll with
    hc := (s.hc.map fun p => (p.1, { p.2 with scrub := p.2.scrub / chanLines * chanLines })).filter
      fun p => decide (p.2 ≠ ({} : HbmCh)) }

theorem exec_wipeComplete_full (hrun : s.fullWipe = true) : exec (.wipeComplete .full) s = .next (s.finish
    (s.wiped.setPr .hash 0 0x05C (BitVec.ofNat 32 ((s.time.clk - s.wipeAt) / 1000)))) := by
  have hrun' : s.wipes.contains .full = true := hrun
  refine (exec_awake h rfl).trans ?_
  simp only [hrun', Bool.not_true, Bool.false_eq_true, if_false]
  rfl

theorem exec_wipeComplete_strike (v : Fin 256) (hrun : s.wipes.contains (.strike v) = true) {t : State}
    (ht : t = ({ s with wipes := s.wipes.erase (.strike v) } : State).wipeFn v.val) :
    exec (.wipeComplete (.strike v)) s = .next (s.finish (t.setFn v.val { t.fnOf v.val with wiped := true })) := by
  refine (exec_awake h rfl).trans ?_
  simp only [hrun, Bool.not_true, Bool.false_eq_true, if_false, ← ht]

theorem exec_wipeTimeout (hrun : s.fullWipe = true) : exec .wipeTimeout s = .next (s.finish
    (({ s with free := s.free + 1 } : State).raise (pageAt .hash 0) 1 (Config.freeWord s.free))) := by
  refine (exec_awake h rfl).trans ?_
  simp only [hrun, if_true]

end

/-! ## Translation and temperature (R327, R329) -/

/-- XL_ADDR_HI of an address in the window. -/
theorem State.writeXl_inside {s t : State} {req : Requestor} {v : Word} {x : Nat} (ht : s.takePair req 0x300040 v = (t, x))
    (hx : x < hbmSize) : s.writeXl req v
      = (((t.setRg 0x300040 (BitVec.ofNat 32 x)).setRg 0x300044 v).setRg 0x300048
          (BitVec.ofNat 32 (hbmChan x + 256 * (hbmChan x % 8) + 2048 * (hbmChan x / 8) + 2 ^ 31))).setRg 0x30004C
            (BitVec.ofNat 32 (hbmLa x)) := by
  have ht' : s.takePair req (pageAddr .hash 0 + 0x040) v = (t, x) := ht
  simp only [State.writeXl, ht', hx, if_true]
  rfl

/-- A channel page of a stack that is UP takes the temperature. -/
def State.channelTemp (temp : BitVec 8) (s : State) (i : Nat) : State :=
  if s.hbmUp i then s.setPr .hbmc i 0x040 (setFld (s.pr .hbmc i 0x040) 8 8 temp.toNat) else s

/-- What a temperature makes of a channel's state and its page's word. -/
def shownTemp (temp : BitVec 8) (x : Bool × Word) : Bool × Word := (x.1, if x.1 then setFld x.2 8 8 temp.toNat else x.2)

theorem pageAddr_hbmc_ne {i j : Nat} (h : j ≠ i) : pageAddr .hbmc j + 0x040 ≠ pageAddr .hbmc i + 0x040 := by
  unfold pageAddr
  dsimp only
  omega

theorem State.setPr_hbmUp (s : State) (k : PageKind) (i off : Nat) (v : Word) (j : Nat) :
    (s.setPr k i off v).hbmUp j = s.hbmUp j := rfl

theorem State.channelTemp_self (temp : BitVec 8) (s : State) (i : Nat) :
    ((s.channelTemp temp i).hbmUp i, (s.channelTemp temp i).pr .hbmc i 0x040) = shownTemp temp (s.hbmUp i, s.pr .hbmc i 0x040) := by
  unfold State.channelTemp shownTemp
  split
  · rw [State.setPr_hbmUp]
    exact congrArg _ (s.setRg_rg _ _)
  · rfl

theorem State.channelTemp_other (temp : BitVec 8) (s : State) {i j : Nat} (h : j ≠ i) :
    ((s.channelTemp temp i).hbmUp j, (s.channelTemp temp i).pr .hbmc j 0x040) = (s.hbmUp j, s.pr .hbmc j 0x040) := by
  unfold State.channelTemp
  split
  · rw [State.setPr_hbmUp]
    exact congrArg _ (s.setRg_rg_other _ (pageAddr_hbmc_ne h))
  · rfl

/-- Settles O46: each command by the rules above. -/
theorem memoryMaintenance : Obligations.MemoryMaintenance := by
  intro s ch cl h
  refine ⟨fun x line t hx hline hup hwipe hmaint hserve ht flips v hv => ⟨fun hskip => ?_, fun hp hf u hu => ?_⟩,
    fun line hline hpwr hmaint hwarm hdom t v flips ht hv => ⟨fun hp => ?_, fun hp => ?_⟩,
    fun r hr hup => ⟨fun hnew howner t ht => exec_rowRepairPpr h hr hup hnew howner ht, fun hissued =>
      ⟨fun ok => (exec_rowRepairComplete h ok hr hup hissued).1,
        fun u x => (exec_rowRepairComplete h true hr hup hissued).2 u x rfl⟩⟩,
    exec_wipeStart_full h, exec_wipeStart_strike h, fun hrun => ⟨?_, exec_wipeTimeout h hrun⟩,
    fun v t hrun ht => exec_wipeComplete_strike h v hrun ht, fun req val t x ht hx => ?_,
    fun val hset => ⟨fun hon => ?_, fun hoff => ?_⟩, fun stack temp => ?_⟩
  -- the patrol
  · exact exec_hbmScrubRead h flips hx hline hup hwipe hmaint hserve ht hv (by rw [if_pos]; simpa using hskip)
  · exact exec_hbmScrubRead h flips hx hline hup hwipe hmaint hserve ht hv (by rw [hp, hf]; exact hu)
  · rw [exec_csScrubRead h flips hline hpwr hmaint hwarm hdom ht hv, if_pos hp]
  · rw [exec_csScrubRead h flips hline hpwr hmaint hwarm hdom ht hv, hp, if_neg Bool.false_ne_true]
  -- the full wipe
  · exact ⟨_, exec_wipeComplete_full h hrun, State.setPr_hbm _ _ _ _ _, State.setPr_store _ _ _ _ _,
      State.setPr_dspMem _ _ _ _ _, State.setPr_poison _ _ _ _ _, State.setPr_csPoison _ _ _ _ _, State.setPr_ecc _ _ _ _ _,
      State.setPr_csEcc _ _ _ _ _, State.setPr_dspEcc _ _ _ _ _, State.setPr_wb _ _ _ _ _, State.setPr_wipes _ _ _ _ _,
      State.setRg_rg _ _ _⟩
  -- registers
  · have hexec : exec (.xlTranslate req val) s = .next (s.finish (s.writeXl req val)) := exec_awake h rfl
    rw [hexec, State.writeXl_inside ht hx]
  · have hexec : exec (.hbmcCntClr ch val) s = .next (s.finish (s.writeHbmcClr ch.val val)) := exec_awake h rfl
    rw [State.writeHbmcClr, if_pos hon] at hexec
    exact (s.cleared_clearRegs .hbmc ch.val (offsets 0x044 0x070)).outcome hset hexec
  · have hexec : exec (.hbmcCntClr ch val) s = .next (s.finish (s.writeHbmcClr ch.val val)) := exec_awake h rfl
    rw [hexec, State.writeHbmcClr, if_neg (by omega), finish_self s hset]
  -- the temperature
  · refine ⟨(List.range 32).foldl (fun s c => s.channelTemp temp (stack.val * 32 + c)) s, exec_awake h rfl, fun i hi hup => ?_⟩
    have hview := foldl_ports_view (fun t i => (t.hbmUp i, t.pr .hbmc i 0x040)) (State.channelTemp temp) (shownTemp temp)
      (State.channelTemp_self temp) (fun s _ _ => s.channelTemp_other temp) (stack.val * 32) 32 s (stack.val * 32 + i)
    rw [if_pos (by omega)] at hview
    have hword := congrArg Prod.snd hview
    dsimp only [shownTemp] at hword
    rw [hword, hup, if_pos rfl]
    exact fld_setFld_self _ temp.isLt (by decide)

end Sys2Proof.Machine
end

section
/-! SUPPORT. How a link of the fabric moves between its states, and the statement about them. -/

namespace Sys2Proof.Machine

/-! ## A command with a guard -/

section
variable {c : Instr} {s t u : State} {p : Prop} [Decidable p] (h : s.awake = true)
  (hc : exec c s = .next (s.finish (if s.awake = true then (if p then t else u) else s)))
include h hc

theorem exec_guard_pos (hp : p) : exec c s = .next (s.finish t) := by
  rw [exec_awake h hc, if_pos hp]

theorem exec_guard_neg (hp : ¬p) : exec c s = .next (s.finish u) := by
  rw [exec_awake h hc, if_neg hp]

end

/-! ## Changes of state (R334, R344, R353) -/

section
variable (s : State) (l : Nat)

theorem State.setPr_linkOf (k : PageKind) (i off : Nat) (v : Word) (j : Nat) : (s.setPr k i off v).linkOf j = s.linkOf j := rfl

theorem State.linkTo_kept {st : LinkState} (h : (s.linkOf l).st ≠ .active ∨ st = .active) :
    s.linkTo l st = s.setLink l { s.linkOf l with
      st := st, since := s.time.clk, left := if (s.linkOf l).st = .active then s.time.clk else (s.linkOf l).left } :=
  if_neg fun ⟨hact, hst⟩ => h.elim (absurd hact) hst

theorem State.linkTo_left {st : LinkState} (hact : (s.linkOf l).st = .active) (hst : st ≠ .active) :
    s.linkTo l st = (s.setLink l { s.linkOf l with st := st, since := s.time.clk, left := s.time.clk }).reroute l := by
  unfold State.linkTo
  rw [if_pos ⟨hact, hst⟩, if_pos hact]

theorem State.linkStart_disabled (hst : (s.linkOf l).st = .disabled) (hen : fld (s.glCtrl l) 0 1 = 1)
    (hok : s.linkOk l = true) : s.linkStart l = s.linkTo l .detect :=
  if_pos ⟨hst, hen, hok⟩

theorem State.linkStart_kept (h : (s.linkOf l).st ≠ .disabled ∨ s.linkOk l = false) : s.linkStart l = s :=
  if_neg fun ⟨hst, _, hok⟩ => h.elim (absurd hst) fun hno => Bool.false_ne_true (hno ▸ hok)

theorem State.linkRetrain_active (hact : (s.linkOf l).st = .active) {t : State}
    (ht : t = s.setLink l { s.linkOf l with pen := addPen s.time.clk (s.linkOf l).pen 500 }) :
    s.linkRetrain l = ((t.bump .glink l 0x078 1).scoreEvent 6 l).linkTo l .retrain := by
  rw [ht]
  unfold State.linkRetrain
  rw [if_pos (.inl hact), if_pos hact]

theorem State.linkRetrain_out (hout : (s.linkOf l).st = .damped ∨ (s.linkOf l).st = .down) {t : State}
    (ht : t = s.setLink l { s.linkOf l with pen := addPen s.time.clk (s.linkOf l).pen 500 }) : s.linkRetrain l = t := by
  have hact : (s.linkOf l).st ≠ .active := by
    rcases hout with hst | hst <;> simp [hst]
  rw [ht]
  unfold State.linkRetrain
  rw [if_pos (.inr hout), if_neg hact]

theorem State.linkRetrain_other (h1 : (s.linkOf l).st ≠ .active) (h2 : (s.linkOf l).st ≠ .damped)
    (h3 : (s.linkOf l).st ≠ .down) : s.linkRetrain l = s :=
  if_neg fun hst => hst.elim h1 fun hst => hst.elim h2 h3

theorem State.undamp_damped (hst : (s.linkOf l).st = .damped) {t : State}
    (ht : t = s.setLink l { s.linkOf l with pen := (0, 0), lanePen := [] }) : s.undamp l = t.linkTo l .detect := by
  rw [ht]
  unfold State.undamp
  exact if_pos (by rw [State.setLink_linkOf]; exact hst)

theorem State.undamp_other (hst : (s.linkOf l).st ≠ .damped) {t : State}
    (ht : t = s.setLink l { s.linkOf l with pen := (0, 0), lanePen := [] }) : s.undamp l = t := by
  rw [ht]
  unfold State.undamp
  exact if_neg (by rw [State.setLink_linkOf]; exact hst)

end

/-! ## A retrain that completes (R343) -/

section
variable {s : State} {l : Fin 48} {lanes : BitVec 10} {t : State} (h : s.awake = true)
  (hst : (s.linkOf l.val).st = .retrain) (hage : s.linkAge l.val ≤ 100000)
  (ht : t = (s.setLaneMap l.val (setFld (s.laneMap l.val) 16 10
    (fld (s.laneMap l.val) 16 10 - s.returning l.val lanes.toNat))).setLink l.val { s.linkOf l.val with returnReq := false })
include h hst hage ht

theorem exec_linkRetrainComplete_up (hup : 5 ≤ lanesIn (t.inService l.val lanes.toNat)) :
    exec (.linkRetrainComplete l lanes) s = .next (s.finish
      ((t.resumeLanes l.val (t.inService l.val lanes.toNat)
        ((s.linkOf l.val).returnReq || (s.linkOf l.val).width != 5)).linkUp l.val)) := by
  subst ht
  refine (exec_guard_pos h rfl ⟨hst, hage⟩).trans ?_
  exact congrArg (fun t => Host.Outcome.next (s.finish t)) (if_neg (Nat.not_lt.2 hup))

theorem exec_linkRetrainComplete_down (hdown : lanesIn (t.inService l.val lanes.toNat) < 5) :
    exec (.linkRetrainComplete l lanes) s = .next (s.finish (t.linkDown l.val)) := by
  subst ht
  refine (exec_guard_pos h rfl ⟨hst, hage⟩).trans ?_
  exact congrArg (fun t => Host.Outcome.next (s.finish t)) (if_pos hdown)

end

/-- Settles O47: each command by the state it finds the link in. -/
theorem linkStates : Obligations.LinkStates := by
  intro s l x h hx
  subst hx
  refine ⟨fun st => ⟨s.linkTo_kept l.val, s.linkTo_left l.val⟩, fun t ht => ⟨fun hst hok hen => ?_, fun hno => ?_⟩,
    fun t ht => ?_, fun lanes hlanes => ⟨fun hst => exec_guard_pos h rfl ⟨hst, hlanes⟩,
      fun hst hage => exec_guard_pos h rfl ⟨hst, hlanes, hage⟩⟩,
    fun hst hage => exec_guard_pos h rfl ⟨hst, hage⟩, fun node pl lr map t hst ht => ?_, fun t ht => ?_,
    fun mask => ⟨rfl, rfl⟩, fun lanes t hst hage ht => ⟨exec_linkRetrainComplete_up h hst hage ht,
      exec_linkRetrainComplete_down h hst hage ht⟩,
    fun hst hage => exec_guard_pos h rfl ⟨hst, hage⟩, fun hst => exec_guard_pos h rfl hst, fun h1 h2 hset => ?_,
    fun hst hage => exec_guard_pos h rfl ⟨hst, hage⟩, fun hst hpen => exec_guard_pos h rfl ⟨hst, hpen⟩,
    fun hst hpen hset => ?_, fun t ht => ⟨fun hst => ?_, fun hst => ?_⟩, fun h1 h2 h3 hset => ?_,
    fun t ht => ⟨fun hst => ?_, fun hst => ?_⟩, fun val hset => ⟨fun hon => ?_, fun hoff => ?_⟩⟩
  -- EN
  · have hexec : exec (.linkEnable l) s = .next (s.finish (t.linkStart l.val)) := by
      rw [ht]
      exact exec_awake h rfl
    have hlink : t.linkOf l.val = s.linkOf l.val := by rw [ht, State.setPr_linkOf]
    rw [hexec, t.linkStart_disabled l.val (hlink ▸ hst) hen hok]
  · have hexec : exec (.linkEnable l) s = .next (s.finish (t.linkStart l.val)) := by
      rw [ht]
      exact exec_awake h rfl
    have hlink : t.linkOf l.val = s.linkOf l.val := by rw [ht, State.setPr_linkOf]
    rw [hexec, t.linkStart_kept l.val (hlink ▸ hno)]
  · have hexec : exec (.linkDisable l) s = .next (s.finish (t.linkDisabled l.val)) := by
      rw [ht]
      exact exec_awake h rfl
    have hlink : t.linkOf l.val = s.linkOf l.val := by rw [ht, State.setPr_linkOf]
    rw [hexec, State.linkDisabled, hlink]
  -- a link becomes ACTIVE
  · rw [ht]
    exact exec_guard_pos h rfl hst
  · rw [ht]
    rfl
  -- commands that find the link in another state
  · rw [exec_guard_neg h rfl (fun hst => hst.elim h1 h2), finish_self s hset]
  · rw [exec_guard_neg h rfl (fun hlow => Nat.not_lt.2 hpen hlow.2), finish_self s hset]
  -- a retrain on request
  · have hexec : exec (.glRetrain l) s = .next (s.finish (s.linkRetrain l.val)) := exec_awake h rfl
    rw [hexec, s.linkRetrain_active l.val hst ht]
  · have hexec : exec (.glRetrain l) s = .next (s.finish (s.linkRetrain l.val)) := exec_awake h rfl
    rw [hexec, s.linkRetrain_out l.val hst ht]
  · have hexec : exec (.glRetrain l) s = .next (s.finish (s.linkRetrain l.val)) := exec_awake h rfl
    rw [hexec, s.linkRetrain_other l.val h1 h2 h3, finish_self s hset]
  -- UNDAMP
  · have hexec : exec (.glUndamp l) s = .next (s.finish (s.undamp l.val)) := exec_awake h rfl
    rw [hexec, s.undamp_damped l.val hst ht]
  · have hexec : exec (.glUndamp l) s = .next (s.finish (s.undamp l.val)) := exec_awake h rfl
    rw [hexec, s.undamp_other l.val hst ht]
  -- CNT_CLR
  · exact (s.cleared_clearRegs .glink l.val (offsets 0x058 0x080 ++ offsets 0x0C0 0x0E4)).outcome hset
      (exec_guard_pos h rfl hon)
  · rw [exec_guard_neg h rfl (show ¬fld val 0 1 = 1 by omega), finish_self s hset]

end Sys2Proof.Machine
end

section
/-! SUPPORT. What flits, acknowledgements and lanes do to a link, and the statement about them. -/

namespace Sys2Proof.Machine

/-! ## Flits (R336, R338 to R340) -/

/-- What the FEC of a flit counts and raises. -/
def State.flitFec (s : State) (l : Nat) (f : Flit) : State :=
  let c := s.countSymbols l f.corrected
  if f.uncorrectable then (c.bump .glink l 0x06C 1).raise (pageAt .glink l) 1 (c.linkInfo l 0xF) else c

section
variable (s : State) (l : Nat)

/-- A flit in sequence, or one out of it. -/
def State.flitData (f : Flit) : State :=
  if f.fseq.toNat = ((s.linkOf l).rxSeq + 1) % 4096 then
    (((s.setLink l { ((s.linkOf l).ackTo f.fack.toNat).addCredit f.credit with
      rxSeq := f.fseq.toNat, nakSent := false }).bump64 .glink l 0x060 1).takeMap l (if f.ty = .ctrl then f.map else none)).pump
        l 64
  else s.askReplay l

/-- A flit once its FEC has counted: asked for again where its CRC is bad, else taken by its kind. -/
def State.flitTaken (f : Flit) : State :=
  if !f.crcOk then ((s.bump .glink l 0x070 1).raise (pageAt .glink l) 2 (s.linkInfo l 0xF)).askReplay l
  else
    match f.ty with
    | .nak => (s.nak l f.fack.toNat).pump l 64
    | .idle => if (s.linkOf l).nakSent then s
        else (s.setLink l (((s.linkOf l).ackTo f.fack.toNat).addCredit f.credit)).pump l 64
    | .data | .ctrl => s.flitData l f

theorem State.flitIn_eq (f : Flit) : s.flitIn l f = (s.flitFec l f).flitTaken l f := rfl

theorem State.flitTaken_bad {f : Flit} (hbad : f.crcOk = false) : s.flitTaken l f
    = ((s.bump .glink l 0x070 1).raise (pageAt .glink l) 2 (s.linkInfo l 0xF)).askReplay l := by
  unfold State.flitTaken
  rw [hbad]
  rfl

theorem State.flitTaken_nak {f : Flit} (hok : f.crcOk = true) (hty : f.ty = .nak) :
    s.flitTaken l f = (s.nak l f.fack.toNat).pump l 64 := by
  unfold State.flitTaken
  rw [hok, hty]
  rfl

theorem State.flitTaken_idle {f : Flit} (hok : f.crcOk = true) (hty : f.ty = .idle) : s.flitTaken l f
    = if (s.linkOf l).nakSent then s else (s.setLink l (((s.linkOf l).ackTo f.fack.toNat).addCredit f.credit)).pump l 64 := by
  unfold State.flitTaken
  rw [hok, hty]
  rfl

theorem State.flitTaken_data {f : Flit} (hok : f.crcOk = true) (hty : f.ty = .data ∨ f.ty = .ctrl) :
    s.flitTaken l f = s.flitData l f := by
  unfold State.flitTaken
  rcases hty with hty | hty
  · rw [hok, hty]
    rfl
  · rw [hok, hty]
    rfl

theorem State.countSymbols_nil : s.countSymbols l [] = s.bump .glink l 0x068 0 := rfl

theorem State.askReplay_again (h : (s.linkOf l).nakSent = true) : s.askReplay l = s := if_pos h

theorem State.askReplay_first (h : (s.linkOf l).nakSent = false) : s.askReplay l
    = { s.setLink l { s.linkOf l with nakSent := true } with out := .linkNak l (s.linkOf l).rxSeq :: s.out } :=
  if_neg (Bool.eq_false_iff.1 h)

/-- An acknowledgement of the flit that is already the last acknowledged changes nothing. -/
theorem Link.ackTo_self (x : Link) : x.ackTo x.txAcked = x := by
  unfold Link.ackTo
  split <;> rfl

/-- A NAK for the oldest unacknowledged flit with no replay in the last millisecond: one replay, from the flit after it. -/
theorem State.nak_oldest {fack : Nat} (hsome : 0 < (s.linkOf l).unacked) (hack : (s.linkOf l).txAcked = fack)
    (hnone : (s.linkOf l).replays = []) {t : State}
    (ht : t = (s.setLink l { s.linkOf l with replays := [(s.time.clk, (s.linkOf l).txNext)] }).bump .glink l 0x074 1) :
    s.nak l fack = { t with out := .linkReplay l ((fack + 1) % 4096) :: t.out } := by
  have hfew (p : Nat × Nat → Bool) : ¬8 ≤ ([(s.time.clk, (s.linkOf l).txNext)].filter p).length := by
    have hle := List.length_filter_le p [(s.time.clk, (s.linkOf l).txNext)]
    rw [List.length_singleton] at hle
    omega
  subst hack ht
  have hgo : ¬((s.linkOf l).unacked = 0 ∨ (s.linkOf l).txAcked ≠ (s.linkOf l).txAcked) :=
    fun hor => hor.elim hsome.ne' fun hne => hne rfl
  unfold State.nak
  simp only [Link.ackTo_self, hnone, List.filter_nil, if_neg hgo, if_neg (hfew _)]

end

/-! ## Lanes (R341 to R344) -/

section
variable (s : State) (l k : Nat)

theorem State.spareLane_out (h : fld (s.laneMap l) k 1 = 0) : s.spareLane l k = s := if_pos h

/-- A lane in service with a spare: the spare takes its place. -/
theorem State.spareLane_spared (hin : fld (s.laneMap l) k 1 = 1) {sp : Nat} (hsp : sp = fld (s.laneMap l) 10 4) (hlt : sp < 10) :
    s.spareLane l k =
      ((s.setLaneMap l (setFld (setFld (setFld (setFld (s.laneMap l) k 1 0) sp 1 1) 10 4 0xF) (16 + k) 1 1)).bump
        .glink l 0x080 1).raise (pageAt .glink l) 3 (s.linkInfo l k) := by
  subst hsp
  unfold State.spareLane
  rw [if_neg (by omega), if_pos hlt]

/-- Without a spare: the link degrades and retrains. -/
theorem State.spareLane_degraded (hin : fld (s.laneMap l) k 1 = 1) (hnone : 10 ≤ fld (s.laneMap l) 10 4) {t : State}
    (ht : t = s.setLaneMap l (setFld (setFld (s.laneMap l) k 1 0) (16 + k) 1 1)) :
    s.spareLane l k = (t.raise (pageAt .glink l) 4 (t.linkInfo l k)).linkRetrain l := by
  subst ht
  unfold State.spareLane
  rw [if_neg (by omega), if_neg (Nat.not_lt.2 hnone)]

theorem State.lockGone_of_late {t : Nat} (h : Tbl.get 0 (s.linkOf l).noLock k = t + 1) (hlate : t + 10000 ≤ s.time.clk) :
    s.lockGone l k = true := by
  have hage : t + 1 + 9999 ≤ s.time.clk := (Nat.add_assoc t 1 9999).trans_le hlate
  rw [show s.lockGone l k = (Tbl.get 0 (s.linkOf l).noLock k != 0
    && decide (Tbl.get 0 (s.linkOf l).noLock k + 9999 ≤ s.time.clk)) from rfl, h]
  exact Bool.and_eq_true_iff.2 ⟨bne_iff_ne.2 t.succ_ne_zero, decide_eq_true hage⟩

end

/-- Settles O48: flits by kind, CRC and sequence, lanes by whether they are in service and a spare is left. -/
theorem flitsAndLanes : Obligations.FlitsAndLanes := by
  intro s l x h hx
  subst hx
  have hflit (f : Flit) (t c : State) (hact : s.linkActive l.val = true) (hc : c = s.countSymbols l.val f.corrected)
      (ht : t = if f.uncorrectable then (c.bump .glink l.val 0x06C 1).raise (pageAt .glink l.val) 1 (c.linkInfo l.val 0xF)
        else c) : exec (.flitReceive l f) s = .next (s.finish (t.flitTaken l.val f)) := by
    rw [ht, hc]
    exact exec_guard_pos h rfl hact
  refine ⟨fun hact f c t hc ht => ⟨fun hnone => ?_, fun hok hty hseq u hu => ⟨fun hplain => ?_, fun m hctrl hm => ?_⟩,
      fun hok hty hseq => ?_, fun hok hty => ?_, fun hok hty => ⟨fun hnak => ?_, fun hnak => ?_⟩, fun hbad => ?_⟩,
    s.askReplay_again l.val, s.askReplay_first l.val, fun hact fack => ⟨exec_guard_pos h rfl hact, fun hsome hack hnone t =>
      s.nak_oldest l.val hsome hack hnone⟩,
    fun k p t hp ht => ⟨fun hlow => ?_, fun hhigh => ?_⟩,
    fun k => ⟨exec_awake h rfl, fun hgone => exec_guard_pos h rfl ?_, s.spareLane_out l.val k.val,
      fun hin => ⟨fun sp hsp hlt => s.spareLane_spared l.val k.val hin hsp hlt,
        fun hnone t ht => s.spareLane_degraded l.val k.val hin hnone ht⟩⟩,
    fun k t ht => ⟨fun hk => ?_, fun hk => ?_⟩, exec_awake h rfl⟩
  -- flits
  · rw [hc, hnone, State.countSymbols_nil]
  · have hmap : (if f.ty = .ctrl then f.map else none) = none := by
      rcases hplain with hdata | hnone
      · rw [hdata]
        rfl
      · rw [hnone, ite_self]
    rw [hflit f t c hact hc ht, t.flitTaken_data l.val hok hty, State.flitData, if_pos hseq, ← hu, hmap]
    rfl
  · rw [hflit f t c hact hc ht, t.flitTaken_data l.val hok hty, State.flitData, if_pos hseq, ← hu, if_pos hctrl, hm]
    rfl
  · rw [hflit f t c hact hc ht, t.flitTaken_data l.val hok hty, State.flitData, if_neg hseq]
  · rw [hflit f t c hact hc ht, t.flitTaken_nak l.val hok hty]
  · rw [hflit f t c hact hc ht, t.flitTaken_idle l.val hok hty, hnak, if_pos rfl]
  · rw [hflit f t c hact hc ht, t.flitTaken_idle l.val hok hty, hnak, if_neg Bool.false_ne_true]
  · rw [hflit f t c hact hc ht, t.flitTaken_bad l.val hbad]
  -- a lane that lost lock
  · subst hp ht
    exact exec_guard_neg h rfl (Nat.not_le.2 hlow)
  · subst hp ht
    exact exec_guard_pos h rfl hhigh
  -- a hard failure
  · rcases hgone with ⟨t, ht, hlate⟩ | hfault
    · rw [s.lockGone_of_late l.val k.val ht hlate, Bool.true_or]
    · rw [hfault, Bool.or_true]
  -- FORCE
  · rw [ht]
    exact exec_guard_pos h rfl hk
  · rw [ht]
    exact exec_guard_neg h rfl (Nat.not_lt.2 hk)

end Sys2Proof.Machine
end

section
/-! SUPPORT. The registers that a report of an event and an access to the HBM leave as they are. -/

namespace Sys2Proof.Machine

/-! ## Reports (R397 to R400, R404, R417) -/

/-- Whether a register is none of those that a report writes: the error words of a page's header, FAULT_CTRL, the count of
lost entries and ALERT_PEND. -/
def offReports (a : Nat) : Bool :=
  !([0x010, 0x014, 0x018].contains (a % 0x100)) && !([0x10040, 0x10060, 0x10064].contains a)

theorem pageAddr_mod_256 (k : PageKind) (i : Nat) : pageAddr k i % 0x100 = 0 := by
  cases k with
  | rdsp => simp only [pageAddr]; split <;> omega
  | _ => simp only [pageAddr] <;> omega

theorem State.rg_of_regs {s t : State} (h : t.regs = s.regs) (a : Nat) : t.rg a = s.rg a := by
  rw [State.rg, State.rg, h]

section
variable {s t : State} {a : Nat}

theorem offReports_header (ha : offReports a = true) {b o : Nat} (hb : b % 0x100 = 0) (ho : o ∈ [0x010, 0x014, 0x018]) :
    a ≠ b + o := by
  rintro rfl
  have hlow : (b + o) % 0x100 = o := by
    simp only [List.mem_cons, List.not_mem_nil, or_false] at ho
    omega
  rw [offReports, hlow, List.contains_iff_mem.2 ho] at ha
  exact Bool.false_ne_true ha

theorem offReports_fault (ha : offReports a = true) {o : Nat} (ho : o ∈ [0x10040, 0x10060, 0x10064]) : a ≠ o := by
  rintro rfl
  rw [offReports, List.contains_iff_mem.2 ho, Bool.not_true, Bool.and_false] at ha
  exact Bool.false_ne_true ha

variable (ha : offReports a = true)
include ha

theorem State.alert_rg (s : State) (n : Nat) : (s.alert n).rg a = s.rg a := by
  have hpend (v : Word) : (s.setPr .fault 0 0x064 v).rg a = s.rg a := s.setRg_rg_other v (offReports_fault ha (by decide))
  unfold State.alert
  extract_lets old s'
  split
  · exact hpend _
  · exact (State.rg_of_regs rfl a).trans (hpend _)

theorem State.enqueue_rg (s : State) (e : FqEntry) : (s.enqueue e).rg a = s.rg a := by
  unfold State.enqueue
  split
  · exact State.rg_of_regs rfl a
  · exact (State.alert_rg ha _ 4).trans (s.setRg_rg_other _ (offReports_fault ha (by decide)))

theorem State.hold_rg (s : State) : s.hold.rg a = s.rg a := s.setRg_rg_other _ (offReports_fault ha (by decide))

theorem State.report_rg (s : State) (p : Page) (src sev : Nat) (info : Word) : (s.report p src sev info).rg a = s.rg a := by
  unfold State.report
  split
  · rfl
  · extract_lets now s1 s2 s3
    have h2 : s2.rg a = s.rg a := (State.rg_of_regs rfl a).trans (State.enqueue_rg ha s _)
    clear_value s2
    have h3 : s3.rg a = s.rg a := by
      refine Eq.trans ?_ h2
      show (if _ then _ else _ : State).rg a = _
      split
      · exact State.rg_of_regs rfl a
      · rfl
    clear_value s3
    split
    · exact (State.hold_rg ha s3.pulse).trans ((State.rg_of_regs rfl a).trans h3)
    · split
      · exact (State.rg_of_regs rfl a).trans h3
      · exact h3

theorem State.reportChange_rg (s : State) (p : Page) (src sev : Nat) (info : Word) :
    (s.reportChange p src sev info).rg a = s.rg a :=
  (State.rg_of_regs rfl a).trans (State.enqueue_rg ha s _)

theorem State.latchErr_rg (s : State) {p : Page} (hp : p.base % 0x100 = 0) (src : Nat) (info : Word) :
    (s.latchErr p src info).rg a = s.rg a := by
  unfold State.latchErr
  extract_lets first ovf
  split
  · exact (State.setRg_rg_other _ _ (offReports_header ha hp (by decide))).trans
      (s.setRg_rg_other _ (offReports_header ha hp (by decide)))
  · exact s.setRg_rg_other _ (offReports_header ha hp (by decide))

theorem State.event_rg (s : State) {p : Page} (hp : p.base % 0x100 = 0) (i : Nat) (info : Word) :
    (s.event p i info).1.rg a = s.rg a := by
  unfold State.event
  extract_lets src was s1 s2 now sev change full s3 s4 s5 s6
  have h2 : s2.rg a = s.rg a := by
    show (match unitOfSource p i info with
      | some (c, u, true) => s1.scoreEvent c u
      | _ => s1).rg a = s.rg a
    split <;> exact State.rg_of_regs rfl a
  clear_value s2
  have h4 : s4.rg a = s.rg a := (State.report_rg ha s3 p src sev info).trans ((State.latchErr_rg ha s2 hp src info).trans h2)
  clear_value s4
  have h5 : s5.rg a = s.rg a := (State.reportChange_rg ha s4 p src sev info).trans h4
  clear_value s5
  have h6 : s6.rg a = s.rg a := by
    show (if change then
        (match unitOfSource p i info with
        | some (c, u, _) => s5.scoreChange c u
        | none => s5)
      else s4).rg a = s.rg a
    split
    · split
      · exact (State.rg_of_regs rfl a).trans h5
      · exact h5
    · exact h4
  clear_value s6
  split
  · exact h2
  · exact (State.rg_of_regs rfl a).trans h6

/-- Raising an event on a page leaves every register that no report writes. -/
theorem State.raise_rg (s : State) (k : PageKind) (j i : Nat) (info : Word) : (s.raise (pageAt k j) i info).rg a = s.rg a := by
  have h1 : (s.raise0 (pageAt k j) i info).1.rg a = s.rg a := by
    unfold State.raise0
    dsimp only
    split
    · exact (State.event_rg ha _ (pageAddr_mod_256 .fault 0) 1 0).trans (State.event_rg ha s (pageAddr_mod_256 k j) i info)
    · exact State.event_rg ha s (pageAddr_mod_256 k j) i info
  exact (State.rg_of_regs rfl a).trans h1

end

/-! ## HBM (R317 to R319, R328) -/

theorem State.noteRow_rg (s : State) (inst row n a : Nat) : (s.noteRow inst row n).rg a = s.rg a := rfl

section
variable {a : Nat} (ha : offReports a = true)
include ha

variable (hctl : a % 0x1000 = 0x040)
include hctl

omit ha in
/-- A channel's register other than that at 0x040. -/
theorem State.setPr_hbmc_rg (s : State) (i : Nat) {off : Nat} (hoff : off % 0x1000 ≠ 0x040) (v : Word) :
    (s.setPr .hbmc i off v).rg a = s.rg a := by
  refine s.setRg_rg_other v ?_
  have hbase := pageAddr_mod (k := .hbmc) (by decide) i
  omega

omit ha in
theorem State.bump_hbmc_rg (s : State) (i : Nat) {off : Nat} (hoff : off % 0x1000 ≠ 0x040) (n : Nat) :
    (s.bump .hbmc i off n).rg a = s.rg a :=
  State.setPr_hbmc_rg hctl s i hoff _

omit ha in
theorem State.eccLast_rg (s : State) (i p q kind : Nat) : (s.eccLast i p q kind).rg a = s.rg a :=
  State.setPr_hbmc_rg hctl s i (by decide) _

theorem State.hbmWord_rg (s : State) (f : Nat × Ecc) : (s.hbmWord f).rg a = s.rg a := by
  have hone (t : State) (i off p q k row n src : Nat) (info : Word) (hoff : off % 0x1000 ≠ 0x040) :
      ((((t.bump .hbmc i off 1).eccLast i p q k).noteRow i row n).raise (pageAt .hbmc i) src info).rg a = t.rg a :=
    by rw [State.raise_rg ha, State.noteRow_rg, State.eccLast_rg hctl, State.bump_hbmc_rg hctl _ _ hoff]
  unfold State.hbmWord
  dsimp only
  split
  · rfl
  · exact hone _ _ _ _ _ _ _ _ _ _ (by decide)
  · exact hone _ _ _ _ _ _ _ _ _ _ (by decide)
  · exact State.eccLast_rg hctl _ _ _ _ _

theorem State.hbmPoison_rg (s : State) (line : Nat) : (s.hbmPoison line).rg a = s.rg a := by
  unfold State.hbmPoison
  extract_lets b inst t
  have ht : t.rg a = s.rg a := State.rg_of_regs rfl a
  clear_value t
  rw [State.raise_rg ha, State.noteRow_rg, State.bump_hbmc_rg hctl _ _ (by decide), ht]

theorem State.hbmCheck_rg (s : State) (w n : Nat) : (s.hbmCheck w n).1.rg a = s.rg a := by
  unfold State.hbmCheck
  extract_lets c t u
  have hu : u.rg a = s.rg a := foldl_keeps (fun x : State => x.rg a = s.rg a) State.hbmWord c.found t (State.rg_of_regs rfl a)
    fun x f hx => (State.hbmWord_rg ha hctl x f).trans hx
  clear_value u
  split
  · exact (State.hbmPoison_rg ha hctl _ _).trans hu
  · refine Eq.trans ?_ hu
    show (if _ then _ else _ : State).rg a = _
    split
    · exact State.rg_of_regs rfl a
    · rfl

omit ha in
theorem State.countWrite_rg (s : State) (i : Nat) : (s.bump64 .hbmc i 0x04C 1).rg a = s.rg a := by
  have hbase := pageAddr_mod (k := .hbmc) (by decide) i
  exact (State.setRg_rg_other _ _ (by omega)).trans (s.setRg_rg_other _ (by omega))

omit ha in
theorem State.hbmLineWrite_rg (s : State) (line : Nat) (d : List Byte) (poison : Bool) :
    (s.hbmLineWrite line d poison).1.rg a = s.rg a := by
  unfold State.hbmLineWrite
  extract_lets inst t
  have ht : t.rg a = s.rg a := State.countWrite_rg hctl s inst
  clear_value t
  split
  · rfl
  · exact (State.rg_of_regs (s := t) (by rfl) a).trans ht

theorem State.hbmPartWrite_rg (s : State) (line first : Nat) (d : List Byte) :
    (s.hbmPartWrite line first d).1.rg a = s.rg a := by
  unfold State.hbmPartWrite
  extract_lets inst t
  have ht : t.rg a = s.rg a := State.countWrite_rg hctl s inst
  clear_value t
  have hchecked := foldl_keeps (fun x : State × Bool => x.1.rg a = s.rg a)
    (fun (p : State × Bool) i => if p.2 then p.1.hbmCheck (8 * line + i) 1 else p) (partWords first d.length) (t, true) ht
    fun x i hx => by
      show (if _ then _ else _ : State × Bool).1.rg a = _
      split
      · exact (State.hbmCheck_rg ha hctl _ _ _).trans hx
      · exact hx
  split
  · rfl
  · split
    · exact ht
    · dsimp only
      split
      · exact (State.rg_of_regs rfl a).trans hchecked
      · exact hchecked

/-- A write to the HBM leaves every register at 0x040 of a page but FAULT_CTRL. -/
theorem State.hbmWrite_rg (s : State) (off : Nat) (d : List Byte) (poison : Bool) :
    (s.hbmWrite off d poison).1.rg a = s.rg a := by
  refine foldl_keeps (fun x : State × Bool => x.1.rg a = s.rg a) _ _ (s, true) rfl fun x sp hx => ?_
  dsimp only
  split
  · exact (State.hbmLineWrite_rg hctl _ _ _ _).trans hx
  · split
    · exact (State.rg_of_regs rfl a).trans hx
    · exact (State.hbmPartWrite_rg ha hctl _ _ _ _).trans hx

end

theorem State.hbmWrite_node (s : State) (off : Nat) (d : List Byte) (poison : Bool) :
    (s.hbmWrite off d poison).1.node = s.node := by
  have hreg : (s.hbmWrite off d poison).1.pr .fabric 0 0x040 = s.pr .fabric 0 0x040 :=
    State.hbmWrite_rg (a := 0x430040) (by decide) (by decide) s off d poison
  rw [State.node, State.node, hreg]

end Sys2Proof.Machine
end

section
/-! SUPPORT. How requests of other nodes are taken, held and applied, and the statement about them. -/

namespace Sys2Proof.Machine

@[simp] theorem State.dstPair_setDstPair_self (s : State) (key : Nat) (p : PairDst) :
    (s.setDstPair key p).dstPair key = p :=
  Tbl.get_set_self ({} : PairDst) s.fab.dst key p

/-! ## Arrivals (R346, R354, R358) -/

section
variable (s : State) (kind : Nat) (r : FabReq)

theorem State.arrive_off (hoff : fld (s.pr .fabric 0 0x044) 0 1 = 0) : s.arrive kind r = s := if_pos hoff

theorem State.flushIn_off (hoff : fld (s.pr .fabric 0 0x044) 0 1 = 0) : s.flushIn r = s := if_pos hoff

section
variable (hon : fld (s.pr .fabric 0 0x044) 0 1 = 1)
include hon

theorem State.arrive_other (hm : s.isMine r.dst.val = false) : s.arrive kind r = s.forward kind r := by
  rw [State.arrive, if_neg (by omega), hm]
  rfl

theorem State.flushIn_other (hm : s.isMine r.dst.val = false) : s.flushIn r = s.forward tyFlush r := by
  rw [State.flushIn, if_neg (by omega), hm]
  rfl

theorem State.arrive_mine (hm : s.isMine r.dst.val = true) :
    s.arrive kind r = if s.rst.warm then (s.hear r.src.val).respErr r 4 else (s.hear r.src.val).takeReq kind r := by
  rw [State.arrive, if_neg (by omega), hm]
  rfl

end

/-- A flush of this node's, of the pair's epoch or a newer one. -/
def State.takeFlush (key : Nat) : State :=
  match s.takeEpoch key r.epoch with
  | none => s.bump .fabric 0 0x084 1
  | some t => (t.setDstPair key { t.dstPair key with flushes := (t.dstPair key).flushes ++ [r.seqNo.toNat] }).answerFlushes key

theorem State.flushIn_mine (hon : fld (s.pr .fabric 0 0x044) 0 1 = 1) (hm : s.isMine r.dst.val = true) :
    s.flushIn r = if s.rst.warm then (s.hear r.src.val).respErr r 4
      else (s.hear r.src.val).takeFlush r (s.pairOf r.src.val r.dst.val) := by
  rw [State.flushIn, if_neg (by omega), hm]
  rfl

theorem State.forward_linked (hfwd : fld (s.pr .fabric 0 0x044) 2 1 = 1) {l : Nat}
    (hl : s.linkFor r.dst.val r.off.toNat r.fpid.toNat r.attempt.toNat = some l) :
    s.forward kind r = (s.linkSend l
      { vc := vcOf kind, slots := slotsOf r.tag.isSome r.data.length, msg := reqMsg kind r }).bump64 .fabric 0 0x0A8 1 := by
  rw [State.forward, if_neg (by omega), hl]

variable (key : Nat)

theorem State.takeEpoch_same {e : BitVec 8} (h : (s.dstPair key).epoch = e) : s.takeEpoch key e = some s := by
  subst h
  exact if_pos (by rw [BitVec.sub_self]; rfl)

theorem State.takeEpoch_newer {e : BitVec 8} (hpos : 0 < (e - (s.dstPair key).epoch).toNat)
    (hle : (e - (s.dstPair key).epoch).toNat ≤ 127) : s.takeEpoch key e = some (s.setDstPair key
      { s.dstPair key with epoch := e, expect := 0, held := [], sinceAck := 0, flushes := [] }) :=
  (if_neg hpos.ne').trans (if_pos hle)

theorem State.takeEpoch_older {e : BitVec 8} (hge : 128 ≤ (e - (s.dstPair key).epoch).toNat) : s.takeEpoch key e = none :=
  (if_neg (by omega)).trans (if_neg (by omega))

/-- A request of the pair's epoch: a copy, one too many held, or one more held to be applied in order. -/
def State.takeNumbered : State :=
  if !seqLe (s.dstPair key).expect r.seqNo.toNat ∨ (s.dstPair key).held.any (fun h => h.2.seqNo.toNat == r.seqNo.toNat) then
    s.bump .fabric 0 0x084 1
  else if r.seqNo.toNat ≠ (s.dstPair key).expect ∧ 16384 ≤ s.reorder then s.bump .fabric 0 0x088 1
  else (s.setDstPair key { s.dstPair key with held := (s.dstPair key).held ++ [(kind, r)] }).applyNext key 16384

variable {key}

theorem State.takeReq_of_epoch (hkey : s.pairOf r.src.val r.dst.val = key) {t : State} (h : s.takeEpoch key r.epoch = some t) :
    s.takeReq kind r = t.takeNumbered kind r key := by
  subst hkey
  unfold State.takeReq
  dsimp only
  rw [h]
  rfl

theorem State.takeReq_older (hkey : s.pairOf r.src.val r.dst.val = key) (h : s.takeEpoch key r.epoch = none) :
    s.takeReq kind r = s.bump .fabric 0 0x084 1 := by
  subst hkey
  unfold State.takeReq
  dsimp only
  rw [h]

theorem State.takeFlush_of_epoch {t : State} (h : s.takeEpoch key r.epoch = some t) : s.takeFlush r key =
    (t.setDstPair key { t.dstPair key with flushes := (t.dstPair key).flushes ++ [r.seqNo.toNat] }).answerFlushes key := by
  unfold State.takeFlush
  rw [h]

theorem State.takeFlush_older (h : s.takeEpoch key r.epoch = none) : s.takeFlush r key = s.bump .fabric 0 0x084 1 := by
  unfold State.takeFlush
  rw [h]

end

theorem seqLe_self {a : Nat} (h : a < 2 ^ 32) : seqLe a a = true := by
  unfold seqLe
  rw [decide_eq_true_eq, Nat.mod_eq_of_lt h, Nat.add_sub_cancel_left]
  decide

/-! ## Applying in order (R354, R356) -/

section
variable (s : State) (key : Nat)

theorem State.answerFlushes_none (h : (s.dstPair key).flushes = []) : s.answerFlushes key = s := by
  unfold State.answerFlushes
  simp only [h, List.any_nil, Bool.false_eq_true, if_false]

theorem State.applyNext_waiting (h : ((s.dstPair key).held.find? fun h => h.2.seqNo.toNat == (s.dstPair key).expect) = none)
    (fuel : Nat) : s.applyNext key fuel = s := by
  cases fuel with
  | zero => rfl
  | succ fuel =>
    unfold State.applyNext
    simp only [h]

variable (kind : Nat) (r : FabReq)

theorem State.applyNext_ahead (hheld : (s.dstPair key).held = [(kind, r)]) (hne : r.seqNo.toNat ≠ (s.dstPair key).expect)
    (fuel : Nat) : s.applyNext key fuel = s := by
  refine s.applyNext_waiting key ?_ fuel
  rw [hheld, List.find?_cons_of_neg (by rwa [beq_iff_eq]), List.find?_nil]

/-- The one request a pair holds is next in order and can be applied: the pair expects the next. -/
theorem State.applyNext_alone (hheld : (s.dstPair key).held = [(kind, r)]) (hseq : r.seqNo.toNat = (s.dstPair key).expect)
    {v : State} (happ : s.applyReq kind r = (v, .done)) {q : PairDst} (hq : q = v.dstPair key) (hsame : q.held = [(kind, r)])
    (hflush : q.flushes = []) (hfew : q.sinceAck + 1 < 64) (fuel : Nat) : s.applyNext key (fuel + 1) = v.setDstPair key
      { q with held := [], expect := (q.expect + 1) % 2 ^ 32, sinceAck := q.sinceAck + 1,
               firstAt := if q.sinceAck = 0 then v.time.clk else q.firstAt } := by
  have hfind : ((s.dstPair key).held.find? fun h => h.2.seqNo.toNat == (s.dstPair key).expect) = some (kind, r) := by
    rw [hheld, List.find?_cons_of_pos (by rwa [beq_iff_eq])]
  have hdrop : q.held.filter (fun x => x.2.seqNo.toNat != r.seqNo.toNat) = [] := by
    rw [hsame, List.filter_cons_of_neg (by simp), List.filter_nil]
  unfold State.applyNext
  simp only [hfind, happ, ← hq, hdrop]
  rw [if_neg (fun h => by omega), State.answerFlushes_none _ _ (by rw [State.dstPair_setDstPair_self]; exact hflush),
    State.applyNext_waiting _ _ (by rw [State.dstPair_setDstPair_self]; rfl)]

end

/-! ## Taking a request of the pair's epoch -/

section
variable (s : State) (key kind : Nat) (r : FabReq)

theorem State.takeNumbered_copy (hold : seqLe (s.dstPair key).expect r.seqNo.toNat = false) :
    s.takeNumbered kind r key = s.bump .fabric 0 0x084 1 :=
  if_pos (.inl (by rw [hold]; rfl))

theorem State.takeNumbered_empty (hseq : seqLe (s.dstPair key).expect r.seqNo.toNat = true) (hheld : (s.dstPair key).held = [])
    (hroom : r.seqNo.toNat = (s.dstPair key).expect ∨ s.reorder < 16384) : s.takeNumbered kind r key =
      (s.setDstPair key { s.dstPair key with held := [(kind, r)] }).applyNext key 16384 := by
  unfold State.takeNumbered
  rw [hseq, hheld, if_neg (by simp), if_neg (fun h => hroom.elim h.1 (Nat.not_lt.2 h.2)), List.nil_append]

end

/-! ## Applying by type (R346, R349, R350, R359, R362) -/

section
variable (s : State) (r : FabReq)

theorem State.applyTagged_untagged (f : State → State × Nat × Nat) (ans : State → Nat → Nat → State) (htag : r.tag = none) :
    s.applyTagged r f ans = (ans (f s).1 (f s).2.1 (f s).2.2, .done) := by
  unfold State.applyTagged
  rw [htag]

theorem State.applyTagged_recorded (f : State → State × Nat × Nat) (ans : State → Nat → Nat → State) {t : EffTag} {rc : TagRec}
    (htag : r.tag = some t) (hrec : s.tagRec r.src.val r.off.toNat t = some rc) :
    s.applyTagged r f ans = (ans s rc.status rc.old.toNat, .done) := by
  unfold State.applyTagged
  dsimp only
  rw [htag]
  dsimp only
  rw [hrec]

theorem State.applyRd_denied (h : s.fpOk r.fpid r.off.toNat (r.bytes.toNat + 1) false = false) :
    s.applyRd r = (s.respErr r 1, .done) :=
  if_pos (by rw [h]; rfl)

/-- How a read answers what its home has read. -/
def State.answerRd (x : State × Option (List Byte)) : State × Applied :=
  match x.2 with
  | some b => (x.1.respond r tyRdrsp r.rid.toNat 0 b, .done)
  | none => (x.1.respond r tyRdrsp r.rid.toNat 2 [], .done)

theorem State.applyRd_granted (hok : s.fpOk r.fpid r.off.toNat (r.bytes.toNat + 1) false = true)
    (hspec : r.spec = false ∨ s.specOk r.off.toNat = true) (hgo : s.hbmWaits r.off.toNat (r.bytes.toNat + 1) = false) :
    s.applyRd r = State.answerRd r ((s.bump64 .fabric 0 (if r.spec then 0x098 else 0x0A0) 1).hbmRead
      r.off.toNat (r.bytes.toNat + 1) r.spec) := by
  have hgranted : (!s.fpOk r.fpid r.off.toNat (r.bytes.toNat + 1) false || (r.spec && !s.specOk r.off.toNat)) = false := by
    rw [hok]
    rcases hspec with hspec | hspec
    · rw [hspec]
      rfl
    · rw [hspec, Bool.not_true, Bool.and_false]
      rfl
  exact (if_neg (Bool.eq_false_iff.1 hgranted)).trans (if_neg (Bool.eq_false_iff.1 hgo))

variable {d : List Byte} (hd : d = r.data.take (r.bytes.toNat + 1))
include hd

theorem State.applyWr_denied (hoff : r.off.toNat < 0xC010000000) (h : s.fpOk r.fpid r.off.toNat d.length true = false) :
    s.applyWr r = (s.respErr r 1, .done) := by
  subst hd
  exact (if_neg fun h => Nat.not_le.2 hoff h.1).trans (if_pos (by rw [h]; rfl))

/-- An untagged write that its page admits and its line takes is mirrored and not answered. -/
theorem State.applyWr_granted (hoff : r.off.toNat < 0xC010000000) (hok : s.fpOk r.fpid r.off.toNat d.length true = true)
    (hgo : s.hbmWaits r.off.toNat d.length = false) (htag : r.tag = none) {v : State}
    (hw : s.hbmWrite r.off.toNat d r.poison = (v, true)) :
    s.applyWr r = (v.mirrorW ((v.ownerOf r.off.toNat).getD 0) r.off.toNat d
      (some (mirrorOrg (s.pairOf r.src.val r.dst.val), r.seqNo.toNat)), .done) := by
  subst hd
  refine (if_neg fun h => Nat.not_le.2 hoff h.1).trans ((if_neg (by rw [hok]; exact Bool.false_ne_true)).trans
    ((if_neg (Bool.eq_false_iff.1 hgo)).trans ((s.applyTagged_untagged r _ _ htag).trans ?_)))
  have hkey : v.pairOf r.src.val r.dst.val = s.pairOf r.src.val r.dst.val := by
    have hnode := s.hbmWrite_node r.off.toNat (r.data.take (r.bytes.toNat + 1)) r.poison
    rw [hw] at hnode
    rw [State.pairOf, State.pairOf, hnode]
  dsimp only
  rw [hw, ← hkey]
  rfl

/-- A mirror write of the understudy's lead changes the copy and is not answered. -/
theorem State.applyMirw_taken (hund : s.compareOnly s.undFn = true) (hsrc : r.src.val = s.undPeer)
    (howns : s.ownsHbm s.undFn r.off.toNat d.length = true) (hgo : s.hbmWaits r.off.toNat d.length = false) {v : State}
    (hw : s.hbmWrite r.off.toNat d r.poison = (v, true)) : s.applyMirw r = (v, .done) := by
  subst hd
  have hmay : ¬((!s.compareOnly s.undFn) = true ∨ r.src.val ≠ s.undPeer
      ∨ (!s.ownsHbm s.undFn r.off.toNat (r.data.take (r.bytes.toNat + 1)).length) = true) := by
    rw [hund, howns]
    exact fun h => h.elim Bool.false_ne_true fun h => h.elim (fun hne => hne hsrc) Bool.false_ne_true
  unfold State.applyMirw
  dsimp only
  rw [if_neg hmay, if_neg (Bool.eq_false_iff.1 hgo), hw]
  rfl

end

section
variable (s : State) (r : FabReq) {n : Nat} (hn : n = if r.w64 then 8 else 4)
include hn

/-- An untagged atomic that its page admits is answered by what it did: its old value, or its status. -/
theorem State.applyAtom_granted (halign : r.off.toNat % n = 0) (hok : s.fpOk r.fpid r.off.toNat n true = true)
    (hop : r.aopc.toNat ≤ 10) (hgo : s.hbmWaits r.off.toNat n = false) (htag : r.tag = none) {v : State} {st old : Nat}
    (hatom : s.hbmAtom ((s.ownerOf r.off.toNat).getD 0) r.off.toNat r.aopc.toNat n (fb r.data 0 8) (fb r.data 8 8) f32add
      (some (mirrorOrg (s.pairOf r.src.val r.dst.val), r.seqNo.toNat)) = (v, st, old)) :
    s.applyAtom r = (if st = 0 then v.respond r tyAtrsp r.rid.toNat 0 (leBytes 8 old) else v.respErr r (respCode st), .done) := by
  subst hn
  have hlegal : ¬(r.off.toNat % (if r.w64 then 8 else 4) ≠ 0
      ∨ (!s.fpOk r.fpid r.off.toNat (if r.w64 then 8 else 4) true) = true ∨ 10 < r.aopc.toNat) := by
    rw [hok]
    exact fun h => h.elim (fun h => h halign) fun h => h.elim Bool.false_ne_true (Nat.not_lt.2 hop)
  refine (if_neg hlegal).trans ((if_neg (Bool.eq_false_iff.1 hgo)).trans ((s.applyTagged_untagged r _ _ htag).trans ?_))
  rw [hatom]

end

theorem State.applyTagrel_tagged (s : State) (r : FabReq) {t : EffTag} (htag : r.tag = some t) : s.applyTagrel r =
    ((s.freeTags r.src.val t).mirrorC s.undFn (effTagBytes t ++ leBytes 4 r.src.val), .done) := by
  unfold State.applyTagrel
  rw [htag]

/-- Settles O49: an arrival by the destination it names, its epoch and its place in SEQ order; then each type as applied. -/
theorem requestsArrive : Obligations.RequestsArrive := by
  intro s r h
  have hflush : exec (.flush r) s = .next (s.finish (s.flushIn r)) := exec_awake h rfl
  refine ⟨⟨exec_awake h rfl, exec_awake h rfl, exec_awake h rfl, exec_awake h rfl, exec_awake h rfl, exec_awake h rfl⟩,
    fun hoff hset kind => ⟨s.arrive_off kind r hoff, ?_⟩,
    fun t p key kind ht hkey hp hon => ⟨fun hm hwarm => ⟨?_, ?_⟩, fun hm hwarm => ?_, fun hm l hl hfwd => ⟨?_, ?_⟩⟩,
    fun u v b hok hspec hgo hu => ⟨fun hread => ?_, fun hread => ?_⟩, s.applyRd_denied r,
    fun d hd hoff => ⟨s.applyWr_denied r hd hoff, fun v f hok hgo htag hw hf => ?_⟩,
    fun n v st old hn halign hok hop hgo htag hatom => ⟨fun hst => ?_, fun hst => ?_⟩,
    fun t htag => s.applyTagrel_tagged r htag,
    fun d v hd hund hsrc howns hgo hw => s.applyMirw_taken r hd hund hsrc howns hgo hw,
    fun t rc f ans htag hrec => s.applyTagged_recorded r f ans htag hrec⟩
  · rw [hflush, s.flushIn_off r hoff, finish_self s hset]
  -- this node's, during a warm reset
  · rw [s.arrive_mine kind r hon hm, hwarm, if_pos rfl, ht]
  · rw [hflush, s.flushIn_mine r hon hm, hwarm, if_pos rfl, ht]
  -- this node's
  · have htake : s.arrive kind r = t.takeReq kind r := by
      rw [s.arrive_mine kind r hon hm, hwarm, if_neg Bool.false_ne_true, ht]
    have htakeF : s.flushIn r = t.takeFlush r key := by
      rw [s.flushIn_mine r hon hm, hwarm, if_neg Bool.false_ne_true, ht, hkey]
    have hpair : t.pairOf r.src.val r.dst.val = key := by
      rw [hkey, ht]
      rfl
    rw [htake, hflush, htakeF]
    refine ⟨fun hep => ?_, fun hold => ?_, fun hpos hle => ?_⟩
    · have hepoch : t.takeEpoch key r.epoch = some t := t.takeEpoch_same key (by rw [← hp, hep])
      rw [t.takeReq_of_epoch kind r hpair hepoch, t.takeFlush_of_epoch r hepoch]
      refine ⟨fun u v q hseq hheld hu happ hq hsame hfl hfew => ?_, fun hold => ?_, fun hseq hne hheld hroom => ?_, by rw [hp]⟩
      · have hle : seqLe (t.dstPair key).expect r.seqNo.toNat = true := by
          rw [← hp, ← hseq]
          exact seqLe_self r.seqNo.isLt
        rw [t.takeNumbered_empty key kind r hle (by rw [← hp, hheld]) (.inl (by rw [← hp, hseq])), ← hp, ← hu]
        exact u.applyNext_alone key kind r (by rw [hu, State.dstPair_setDstPair_self])
          (by rw [hu, State.dstPair_setDstPair_self, hseq]) happ hq hsame hfl hfew 16383
      · exact t.takeNumbered_copy key kind r (by rw [← hp, hold])
      · rw [t.takeNumbered_empty key kind r (by rw [← hp, hseq]) (by rw [← hp, hheld]) (.inr hroom), ← hp]
        exact State.applyNext_ahead _ key kind r (by rw [State.dstPair_setDstPair_self])
          (by rw [State.dstPair_setDstPair_self]; exact hne) _
    · have hepoch : t.takeEpoch key r.epoch = none := t.takeEpoch_older key (by rw [← hp]; exact hold)
      rw [t.takeReq_older kind r hpair hepoch, t.takeFlush_older r hepoch]
      exact ⟨rfl, rfl⟩
    · rw [t.takeReq_of_epoch kind r hpair (t.takeEpoch_newer key (by rw [← hp]; exact hpos) (by rw [← hp]; exact hle)), ← hp]
      refine (State.takeReq_of_epoch (t.setDstPair key _) kind r hpair (State.takeEpoch_same _ key ?_)).symm
      rw [State.dstPair_setDstPair_self]
  -- another node's
  · rw [s.arrive_other kind r hon hm, s.forward_linked kind r hfwd hl]
  · rw [hflush, s.flushIn_other r hon hm, s.forward_linked tyFlush r hfwd hl]
  -- reads
  · rw [s.applyRd_granted r hok hspec hgo, ← hu, hread]
    rfl
  · rw [s.applyRd_granted r hok hspec hgo, ← hu, hread]
    rfl
  -- writes
  · rw [hf]
    exact s.applyWr_granted r hd hoff hok hgo htag hw
  -- atomics
  · rw [s.applyAtom_granted r hn halign hok hop hgo htag hatom, if_pos hst]
  · rw [s.applyAtom_granted r hn halign hok hop hgo htag hatom, if_neg hst]

end Sys2Proof.Machine
end

section
/-! SUPPORT. How responses, timers, lost nodes and the fabric's tables act, and the statement about them. -/

namespace Sys2Proof.Machine

/-! ## Lost nodes (R357, R358) -/

section
variable (s : State) {n : Nat}

theorem State.nodeLost_again (h : s.fab.lost.contains n = true) : s.nodeLost n = s := if_pos h

/-- A loss sets the lost bit, counts and raises, ends what went to the node, and the pairing where it is the peer. -/
theorem State.nodeLost_first (h : s.fab.lost.contains n = false) {t u : State}
    (ht : t = ((({ s with fab := { s.fab with
      lost := addSorted n s.fab.lost, tags := s.fab.tags.filter fun r => r.src != n } } : State).setSrcPair n
        { s.srcPair n with unacked := [] }).bump .fabric 0 0x08C 1).raise (pageAt .fabric 0) 2 (fabInfo n 63))
    (hu : u = (s.srcPair n).unacked.foldl (fun s u => s.endUnacked u stNodeLost)
      ((t.fab.reads.filter fun o => o.dst == n).foldl (fun s o => s.land o stNodeLost []) t)) :
    s.nodeLost n = if u.undRole = 1 ∧ u.undPeer = n ∧ u.und.st ≠ .none then u.mirrorLost else u := by
  subst hu ht
  exact if_neg (Bool.eq_false_iff.1 h)

theorem State.revive_lost (h : s.fab.lost.contains n = true) {t : State}
    (ht : t = { s with fab := { s.fab with lost := s.fab.lost.erase n } }) :
    s.revive n = t.setSrcPair n { t.srcPair n with epoch := (t.srcPair n).epoch + 1, seqNo := 0, unacked := [] } := by
  subst ht
  exact if_pos h

theorem State.revive_known (h : s.fab.lost.contains n = false) : s.revive n = s := if_neg (Bool.eq_false_iff.1 h)

end

/-! ## Groups (R361) -/

theorem distinct_iff (m : List Nat) : distinct m = true ↔ m.Nodup := by
  induction m with
  | nil => simp only [distinct, List.nodup_nil]
  | cons x m ih => simp only [distinct, Bool.and_eq_true, ih, List.nodup_cons, Bool.not_eq_true', List.contains_eq_mem,
      decide_eq_false_iff_not]

theorem findFrom_eq_none {a : Nat} {m : List Nat} (h : a ∉ m) (i : Nat) : findFrom (· == a) m i = none := by
  induction m generalizing i with
  | nil => rfl
  | cons x m ih =>
    rw [List.mem_cons, not_or] at h
    rw [findFrom, if_neg (by rw [beq_iff_eq]; exact Ne.symm h.1), ih h.2]

section
variable (s : State) (req : Requestor) (g : Nat) (val : BitVec 32) {t u : State} {x k : Nat}

/-- The table of groups with one entry replaced. -/
def State.putGroup (y : Group) : State := { s with fab := { s.fab with groups := Tbl.set {} s.fab.groups g y } }

/-- What the list of a group makes of its entry. -/
def State.groupRead (s : State) (g : Nat) (m : List Nat) : State :=
  match findFrom (· == s.node) m 0 with
  | some r => if distinct m then s.putGroup g { members := m, valid := true, rank := r } else s.putGroup g { err := true }
  | none => s.putGroup g { err := true }

theorem State.groupRead_valid {m : List Nat} (hm : m.Nodup) {r : Nat} (hr : findFrom (· == s.node) m 0 = some r) :
    s.groupRead g m = s.putGroup g { members := m, valid := true, rank := r } := by
  unfold State.groupRead
  rw [hr]
  exact if_pos ((distinct_iff m).2 hm)

theorem State.groupRead_bad {m : List Nat} (h : ¬m.Nodup ∨ s.node ∉ m) : s.groupRead g m = s.putGroup g { err := true } := by
  unfold State.groupRead
  split
  · next r hr =>
    refine if_neg fun hd => ?_
    rcases h with h | h
    · exact h ((distinct_iff m).1 hd)
    · rw [findFrom_eq_none h] at hr
      exact absurd hr nofun
  · rfl

/-- A group's entry once its registers hold the address and length of its list. -/
def State.groupTaken (u : State) (g k x : Nat) : State :=
  if k = 0 ∨ 16384 < k ∨ x / 2 ^ 50 ≠ u.node ∨ hbmSize < x % 2 ^ 50 + 2 * k then u.putGroup g { err := true }
  else
    match u.hbmRead (x % 2 ^ 50) (2 * k) false with
    | (v, none) => v.putGroup g { err := true }
    | (v, some l) => v.groupRead g ((List.range k).map fun i => fb l (2 * i) 2)

variable (hx : s.takePair req (0x430404 + 0x10 * g) val = (t, x))
  (hu : u = (t.setRg (0x430404 + 0x10 * g) (BitVec.ofNat 32 x)).setRg (0x430408 + 0x10 * g) val)
  (hk : k = fld (u.rg (0x430400 + 0x10 * g)) 0 15)
include hx hu hk

theorem State.commitGroup_eq : s.commitGroup req g val = u.groupTaken g k x := by
  unfold State.commitGroup
  extract_lets b
  have hb : b = 0x430400 + 0x10 * g := rfl
  clear_value b
  have hlo : b + 4 = 0x430404 + 0x10 * g := by omega
  have hhi : b + 8 = 0x430408 + 0x10 * g := by omega
  rw [hlo, hhi, hx, hb]
  dsimp only
  rw [← hu, ← hk, State.groupTaken]
  generalize u.hbmRead (x % 2 ^ 50) (2 * k) false = r
  obtain ⟨v, _ | l⟩ := r <;> rfl

theorem State.commitGroup_length (hlen : k = 0 ∨ 16384 < k) : s.commitGroup req g val = u.putGroup g { err := true } :=
  (s.commitGroup_eq req g val hx hu hk).trans (if_pos (hlen.imp_right .inl))

theorem State.commitGroup_list (hpos : 0 < k) (hle : k ≤ 16384) (hnode : x / 2 ^ 50 = u.node)
    (hfit : x % 2 ^ 50 + 2 * k ≤ hbmSize) {v : State} {l : List Byte}
    (hread : u.hbmRead (x % 2 ^ 50) (2 * k) false = (v, some l)) :
    s.commitGroup req g val = v.groupRead g ((List.range k).map fun i => fb l (2 * i) 2) := by
  have hlegal : ¬(k = 0 ∨ 16384 < k ∨ x / 2 ^ 50 ≠ u.node ∨ hbmSize < x % 2 ^ 50 + 2 * k) := by
    rintro (h | h | h | h)
    · exact hpos.ne' h
    · exact Nat.not_lt.2 hle h
    · exact h hnode
    · exact Nat.not_lt.2 hfit h
  rw [s.commitGroup_eq req g val hx hu hk, State.groupTaken, if_neg hlegal, hread]

end

/-- Settles O50: responses by who they name and what they answer, the timers by their conditions, and the tables. -/
theorem fabricResponses : Obligations.FabricResponses := by
  intro s h
  refine ⟨fun g u n hon hu hn => ?_, fun n q u hfind => ⟨fun hbusy hlate => ?_, fun hlink hlate => ⟨fun hfew => ?_, fun hmany => ?_⟩⟩,
    fun n t hheld hlate ht hdone => ?_, fun n hun hlate hwait => exec_guard_pos h rfl ⟨hun, hlate, hwait⟩,
    fun n t u p hp => ⟨s.nodeLost_again, fun hnew ht hu => ?_⟩,
    fun n => ⟨fun hlost t ht => ?_, fun hknown hset => ?_⟩,
    fun req val lo i t u hi hlo ht hu => ?_, fun i w hi hw => ?_,
    fun req g val t u x k hx hu hk => ?_, fun val hset => ⟨fun hclr => ?_, fun hkeep => ?_⟩⟩
  -- responses
  · subst hn
    have hmine {c : Instr} {vc slots : Nat} {m : OutMsg} {f : State → State} (hm : s.isMine g.dst.val = true)
        (hc : exec c s = .next (s.finish (if s.awake = true then s.takeResp g vc slots m f else s))) :
        exec c s = .next (s.finish (f u)) := by
      rw [exec_awake h hc, State.takeResp_mine hon hm, hu]
    have hother {c : Instr} {vc slots l : Nat} {m : OutMsg} {f : State → State} (hm : s.isMine g.dst.val = false)
        (hfwd : fld (s.pr .fabric 0 0x044) 2 1 = 1)
        (hl : s.linkFor g.dst.val g.off.toNat g.fpid.toNat g.attempt.toNat = some l)
        (hc : exec c s = .next (s.finish (if s.awake = true then s.takeResp g vc slots m f else s))) :
        exec c s = .next (s.finish ((s.linkSend l { vc := vc, slots := slots, msg := m }).bump64 .fabric 0 0x0A8 1)) := by
      rw [exec_awake h hc, State.takeResp_forwarded hon hm hfwd hl]
    refine ⟨fun hm => ⟨fun rid o => ⟨fun hread d => ⟨?_, ?_⟩, fun hread old => ?_⟩, fun rid => ⟨fun hnone p d => ?_, fun hnone old => ?_⟩,
      fun q e t => ⟨fun hep ht => ?_, fun hep => ?_⟩, fun q rid x hfind => ⟨fun st hst hrd hat => ?_, fun st o hst hkind hfo => ?_⟩,
      fun q rid => ?_⟩,
      fun hm hfwd l hl rid => ⟨fun p d => ?_, fun old => ?_, fun q e => ?_, fun q st => ?_⟩⟩
    · exact (hmine hm rfl).trans (by rw [hread]; rfl)
    · exact (hmine hm rfl).trans (by rw [hread]; rfl)
    · exact (hmine hm rfl).trans (by rw [hread])
    · exact (hmine hm rfl).trans (by rw [hnone])
    · exact (hmine hm rfl).trans (by rw [hnone])
    · exact (hmine hm rfl).trans (by rw [if_neg (not_not.2 hep), ht])
    · exact (hmine hm rfl).trans (by rw [if_pos hep])
    · refine (hmine hm rfl).trans ?_
      dsimp only
      rw [if_neg hst, hfind]
      dsimp only
      rw [if_neg (by simp [hrd, hat])]
    · refine (hmine hm rfl).trans ?_
      dsimp only
      rw [if_neg hst, hfind]
      dsimp only
      rw [if_pos (by simpa using hkind), hfo]
    · refine (hmine hm rfl).trans ?_
      dsimp only
      rw [if_pos rfl]
    · exact hother hm hfwd hl rfl
    · exact hother hm hfwd hl rfl
    · exact hother hm hfwd hl rfl
    · exact hother hm hfwd hl rfl
  -- retries and timers
  · refine (exec_awake h rfl).trans ?_
    dsimp only
    rw [hfind]
    dsimp only
    rw [if_pos ⟨hbusy, hlate⟩]
  · refine (exec_awake h rfl).trans ?_
    dsimp only
    rw [hfind]
    dsimp only
    rw [if_neg (fun hor => hor.elim hlink (Nat.not_lt.2 hlate)), if_neg (Nat.not_lt.2 hfew)]
  · refine (exec_awake h rfl).trans ?_
    dsimp only
    rw [hfind]
    dsimp only
    rw [if_neg (fun hor => hor.elim hlink (Nat.not_lt.2 hlate)), if_pos hmany]
  · refine (exec_awake h rfl).trans ?_
    dsimp only
    rw [List.foldl_cons, if_pos ⟨hheld, hlate⟩, ← ht, List.foldl_cons, hdone,
      if_neg (fun hboth => Nat.not_lt_zero _ hboth.1), List.foldl_nil]
  -- lost nodes
  · subst hp
    exact s.nodeLost_first hnew ht hu
  · have hexec : exec (.revive n) s = .next (s.finish (s.revive n.val)) := exec_awake h rfl
    rw [hexec, s.revive_lost hlost ht]
  · have hexec : exec (.revive n) s = .next (s.finish (s.revive n.val)) := exec_awake h rfl
    rw [hexec, s.revive_known hknown, finish_self s hset]
  -- tables
  · subst hi hlo hu ht
    exact exec_awake h rfl
  · have hword : BitVec.ofNat 32 (sumBy (fun b => if s.fab.lost.contains (32 * i + b) then 2 ^ b else 0) (List.range 32)) = w := by
      rw [← hw, BitVec.ofNat_toNat, BitVec.setWidth_eq]
    subst hi
    rw [← hword]
    exact exec_awake h rfl
  · have hexec : exec (.groupCommit req g val) s = .next (s.finish (s.commitGroup req g.val val)) := exec_awake h rfl
    rw [hexec]
    refine ⟨fun hlen => ?_, fun v l m hpos hle hnode hfit hread hm => ⟨fun rank hdup hr => ?_, fun hbad => ?_⟩⟩
    · rw [s.commitGroup_length req g.val val hx hu hk hlen]
      rfl
    · rw [s.commitGroup_list req g.val val hx hu hk hpos hle hnode hfit hread, ← hm, v.groupRead_valid g.val hdup hr]
      rfl
    · rw [s.commitGroup_list req g.val val hx hu hk hpos hle hnode hfit hread, ← hm, v.groupRead_bad g.val hbad]
      rfl
  · exact (s.cleared_clearRegs .fabric 0 (offsets 0x080 0x0AC)).outcome hset (exec_guard_pos h rfl hclr)
  · exact (exec_guard_neg h rfl (by omega)).trans (by rw [finish_self s hset])

end Sys2Proof.Machine
end

section
/-! SUPPORT. How optical modules come, go, are polled and raise OPT_INT, and the statement about them. -/

namespace Sys2Proof.Machine

theorem State.keepModule_present (s : State) {i : Nat} (h : (s.modOf i).present = true) (hon : s.modOn i = true) :
    s.keepModule i = (s.keepLaser (s.modIdent i) (s.modOf i).laser).setMod i {} := by
  unfold State.keepModule
  dsimp only
  rw [h, hon]
  rfl

section
variable (s : State) (i : Nat) (o : ModuleObs)

theorem State.pollModule_failed (h : o.busOk = false) : s.pollModule i o =
    (s.setPr .optm i 0x044 (setFld (s.pr .optm i 0x044) 4 1 1)).raise (pageAt .optm i) 3 0xF :=
  if_pos (by rw [h]; rfl)

theorem State.pollModule_read (h : o.busOk = true) {t u v w : State}
    (ht : t = (s.setPr .optm i 0x044 (BitVec.ofNat 32
      (1 + 2 * o.state.toNat + 64 * o.txFault.toNat + 65536 * o.rxLos.toNat))).setPr .optm i 0x048
        (BitVec.ofNat 32 (o.temp.toNat + 65536 * o.vcc.toNat)))
    (hu : u = (List.range 10).foldl (fun s k => s.setPr .optm i (0x0A0 + 4 * k) (nth 0 o.lanes k)) t)
    (hv : v = u.setMod i { u.modOf i with
      laser := (u.modOf i).laser.poll (max 1 (fld (u.pr .optm i 0x040) 8 8)) o.state.toNat
        ((List.range 10).map fun k => fld (nth 0 o.lanes k) 0 16) })
    (hw : w = if o.alarm then v.raise (pageAt .optm i) 2 0xF else v) : s.pollModule i o = w.faultyLanes i := by
  subst hw hv hu ht
  exact if_neg (by rw [h]; exact Bool.false_ne_true)

end

/-- Settles O52: each command by whether the module is there, its bus answers and its flags say. -/
theorem opticalModules : Obligations.OpticalModules := by
  intro s m h hon
  refine ⟨fun habs ident t u ht hton hu => ?_, fun hpres => ⟨fun hset ident => ?_, fun t u ht hu huon => ?_,
    fun o => ⟨fun hbus => ?_, fun hbus t u v w ht hu hv hw => ?_⟩⟩, fun t ht => ⟨?_, fun f u v hf hpres hu hv => ?_⟩⟩
  · refine (exec_awake h rfl).trans ?_
    dsimp only
    rw [if_neg (Bool.eq_false_iff.1 habs), ← ht, hton, ← hu]
    rfl
  · refine (exec_awake h rfl).trans ?_
    dsimp only
    rw [if_pos hpres, finish_self s hset]
  · refine (exec_awake h rfl).trans ?_
    dsimp only
    rw [hpres, s.keepModule_present hpres hon, ← ht, ← hu, huon]
    rfl
  · have hpoll : exec (.modulePoll m o) s = .next (s.finish (s.pollModule m.val o)) :=
      exec_guard_pos h rfl (by rw [hpres, hon]; rfl)
    rw [hpoll, s.pollModule_failed m.val o hbus]
  · have hpoll : exec (.modulePoll m o) s = .next (s.finish (s.pollModule m.val o)) :=
      exec_guard_pos h rfl (by rw [hpres, hon]; rfl)
    rw [hpoll, s.pollModule_read m.val o hbus ht hu hv hw]
    rfl
  · rw [ht]
    exact exec_awake h rfl
  · subst hf
    have hthere : ((t.modOf f.m.val).present && t.modOn f.m.val) = true := by
      rw [ht]
      exact Bool.and_eq_true_iff.2 ⟨hpres, hon⟩
    refine (exec_awake h rfl).trans ?_
    dsimp only
    rw [← ht, List.foldl_cons, List.foldl_nil, if_pos hthere, ← hu, ← hv]
    rfl

end Sys2Proof.Machine
end

section
/-! SUPPORT. A restore that still awaits a read keeps what has landed for it, and the statement that says otherwise. -/

namespace Sys2Proof.Machine

/-! ## A valid image (R390, R391) -/

/-- A RESTORE that reads a valid image that fits puts it back from the state that the reads left. -/
theorem State.vfRestore_valid {s t u : State} {v : Nat} {h b : List Byte} (hv : v ≠ 0) (hst : (s.fnOf v).st = .setting)
    (hhead : s.gRead (s.smWho 0 0 0) s.imgAddr 256 false = (t, .ok h)) (hmagic : fb h 0 4 = 0x31474D49) (hver : fb h 4 2 = 1)
    (hmin : 288 ≤ fb h 8 8) (hmax : fb h 8 8 ≤ 2 ^ 41)
    (hread : t.gRead (t.smWho 0 0 0) t.imgAddr (fb h 8 8) false = (u, .ok b)) (hok : imageOk b = true)
    (hfits : u.imageFits v (sectionAt b 6) = true) : s.vfRestore v = u.restoreImage v b := by
  have hgo : ¬(v = 0 ∨ (s.fnOf v).st ≠ .setting) := fun h => h.elim hv fun h => h hst
  have hlegal : ¬(fb h 0 4 ≠ 0x31474D49 ∨ fb h 4 2 ≠ 1 ∨ fb h 8 8 < 288 ∨ 2 ^ 41 < fb h 8 8) := by
    rintro (h | h | h | h)
    · exact h hmagic
    · exact h hver
    · exact Nat.not_lt.2 hmin h
    · exact Nat.not_lt.2 hmax h
  unfold State.vfRestore
  rw [if_neg hgo, hhead]
  dsimp only
  rw [if_neg hlegal, hread]
  dsimp only
  rw [hok, hfits]
  rfl

/-- The ACCEPT record of an item whose descriptor lies at node 2. -/
def farRecord : List Byte := List.replicate 8 0 ++ [1] ++ List.replicate 15 0 ++ leBytes 8 (2 ^ 51) ++ List.replicate 32 0

/-- Header and sections of an image of function 1: a prompt-book record, every other section empty. -/
def farBody : List Byte :=
  leBytes 4 0x31474D49 ++ leBytes 2 1 ++ leBytes 2 8 ++ leBytes 8 352 ++ leBytes 1 1 ++ List.replicate 47 0
    ++ ((List.range 8).flatMap fun i => leBytes 1 (i + 1) ++ List.replicate 3 0
      ++ leBytes 4 (if i = 1 then (crc32c farRecord).toNat else 0) ++ leBytes 8 (if i < 2 then 256 else 320))
    ++ List.replicate 64 0 ++ farRecord

/-- The image: its body and the digest. -/
def farImage : List Byte := farBody ++ digBytes (sha3 farBody)

theorem length_farBody : farBody.length = 320 := by decide +kernel

theorem length_farImage : farImage.length = 352 := by
  rw [farImage, List.length_append, length_farBody, digBytes, length_leBytes]

theorem take_drop_append_left {α : Type} (l m : List α) {o n : Nat} (h : o + n ≤ l.length) :
    ((l ++ m).drop o).take n = (l.drop o).take n := by
  rw [List.drop_append_of_le_length (by omega), List.take_append_of_le_length (by rw [List.length_drop]; omega)]

/-- What a header field of the image reads is what it reads of the body. -/
theorem fb_farImage {o n : Nat} (h : o + n ≤ 320) : fb farImage o n = fb farBody o n := by
  rw [fb, fb, farImage, take_drop_append_left _ _ (length_farBody ▸ h)]

/-- Where section `i` of the image begins. -/
def farOff (i : Nat) : Nat := fb farBody (64 + 16 * i + 8) 8

theorem farOff_eq : (List.range 8).map farOff = [256, 256, 320, 320, 320, 320, 320, 320] := by decide

theorem sectionAt_farImage {i : Nat} (h : i < 7) (hend : farOff i + (farOff (i + 1) - farOff i) ≤ 320) :
    sectionAt farImage i = (farBody.drop (farOff i)).take (farOff (i + 1) - farOff i) := by
  unfold sectionAt
  dsimp only
  rw [if_neg (by omega), fb_farImage (by omega), fb_farImage (by omega), farImage]
  exact take_drop_append_left _ _ (length_farBody ▸ hend)

theorem sectionAt_farImage_last : sectionAt farImage 7 = [] := by
  have hoff : fb farImage (64 + 16 * 7 + 8) 8 = 320 := by
    rw [fb_farImage (by decide)]
    decide
  unfold sectionAt
  dsimp only
  rw [hoff, if_pos rfl, length_farImage, List.take_zero]

theorem farImage_checks : ((List.range 7).all fun i => fb farBody (64 + 16 * i) 1 == i + 1
    && fb farBody (64 + 16 * i + 4) 4 == (crc32c ((farBody.drop (farOff i)).take (farOff (i + 1) - farOff i))).toNat
    && decide (farOff i + (farOff (i + 1) - farOff i) ≤ 320)) = true := by
  decide +kernel

theorem farSection_one : (farBody.drop (farOff 1)).take (farOff 2 - farOff 1) = farRecord := by decide +kernel

theorem sectionAt_farImage_record : sectionAt farImage 1 = farRecord :=
  (sectionAt_farImage (by decide) (by decide +kernel)).trans farSection_one

theorem sectionAt_farImage_grants : sectionAt farImage 6 = [] :=
  (sectionAt_farImage (by decide) (by decide +kernel)).trans (by decide +kernel)

theorem imageOk_farImage : imageOk farImage = true := by
  have hmagic : fb farImage 0 4 = 0x31474D49 := (fb_farImage (by decide)).trans (by decide)
  have hver : fb farImage 4 2 = 1 := (fb_farImage (by decide)).trans (by decide)
  have hbody : farImage.take 320 = farBody := List.take_left' length_farBody
  have hdigest : farImage.drop 320 = digBytes (sha3 farBody) := List.drop_left' length_farBody
  have hsections : ((List.range 8).all fun i => fb farImage (64 + 16 * i) 1 == i + 1
      && fb farImage (64 + 16 * i + 4) 4 == (crc32c (sectionAt farImage i)).toNat) = true := by
    rw [List.range_succ, List.all_append, Bool.and_eq_true, List.all_eq_true]
    refine ⟨fun i hi => ?_, ?_⟩
    · have hlt : i < 7 := List.mem_range.1 hi
      have hcheck := List.all_eq_true.1 farImage_checks i hi
      rw [Bool.and_eq_true, decide_eq_true_eq] at hcheck
      rw [sectionAt_farImage hlt hcheck.2, fb_farImage (by omega), fb_farImage (by omega)]
      exact hcheck.1
    · rw [List.all_cons, sectionAt_farImage_last, fb_farImage (by decide), fb_farImage (by decide)]
      decide +kernel
  unfold imageOk
  rw [hmagic, hver, length_farImage, hsections, hbody, hdigest, beq_self_eq_true]
  rfl

/-! ## A restore that waits for a descriptor (R391) -/

/-- A running device with function 1 SETTING and selected, the image address at node 1, what has landed for reads, and a read at
node 2 not yet answered. -/
def restoring (l : List Landed) : State :=
  { rst := { cold := false, sysResetN := true }, boot := { phase := 7, ready := true },
    regs := [(0x800044, 1), (0x800054, 0x40000)],
    hst := { fns := [(1, { st := .setting })] },
    fab := { landed := l, reads := [⟨0, 2, 7000, 2 ^ 51, false⟩] } }

/-- Both chunks of the image, as they have landed. -/
def farLanded : List Landed := [⟨7000, 2 ^ 50, 0, farImage⟩, ⟨7000, 2 ^ 50 + 256, 0, []⟩]

section
variable (l : List Landed)

theorem restoring_imgAddr : (restoring l).imgAddr = 2 ^ 50 := by
  have h : (restoring []).imgAddr = 2 ^ 50 := by decide
  exact h

theorem restoring_vfSel : (restoring l).vfSel = 1 := by
  have h : (restoring []).vfSel = 1 := by decide
  exact h

theorem restoring_place_image : (restoring l).place 0 (2 ^ 50) = .remote 1 0 := by
  have h : (restoring []).place 0 (2 ^ 50) = .remote 1 0 := by decide
  exact h

theorem restoring_place_descriptor : (restoring l).place 1 (2 ^ 51) = .remote 2 0 := by
  have h : (restoring []).place 1 (2 ^ 51) = .remote 2 0 := by decide
  exact h

theorem restoring_settled : (restoring l).Settled := rfl

theorem restoring_imageFits : (restoring l).imageFits 1 [] = true := by
  have h : (restoring []).imageFits 1 [] = true := by decide
  exact h

end

theorem restoring_readHeader : (restoring farLanded).gRead ((restoring farLanded).smWho 0 0 0) (restoring farLanded).imgAddr 256 false
    = (restoring farLanded, .ok farImage) := by
  have hchunks : chunks (2 ^ 50) 256 = [(2 ^ 50, 256)] := by decide
  rw [restoring_imgAddr, State.gRead, if_neg (by decide), show ((restoring farLanded).smWho 0 0 0).v = 0 from rfl,
    restoring_place_image]
  dsimp only
  rw [if_pos (by decide), State.remoteRead, hchunks, ← List.append_nil farImage]
  rfl

theorem restoring_readImage : (restoring farLanded).gRead ((restoring farLanded).smWho 0 0 0) (restoring farLanded).imgAddr 352 false
    = (restoring farLanded, .ok farImage) := by
  have hchunks : chunks (2 ^ 50) 352 = [(2 ^ 50, 256), (2 ^ 50 + 256, 96)] := by decide
  rw [restoring_imgAddr, State.gRead, if_neg (by decide), show ((restoring farLanded).smWho 0 0 0).v = 0 from rfl,
    restoring_place_image]
  dsimp only
  rw [if_pos (by decide), State.remoteRead, hchunks, ← List.append_nil farImage]
  rfl

section
variable {l : List Landed} (h : (restoring l).landedAt 7000 (2 ^ 51) = none)
include h

/-- The read of the descriptor has been asked for and is not answered: it waits, and nothing changes. -/
theorem restoring_descriptor_waits (x : Nat) :
    (restoring l).gRead ((restoring l).smWho 1 x 0) (2 ^ 51) 64 false = (restoring l, .wait) := by
  have hchunks : chunks (2 ^ 51) 64 = [(2 ^ 51, 64)] := by decide
  have hask : (restoring l).ask ((restoring l).smWho 1 x 0) false (2 ^ 51, 64) = (restoring l, true) := if_pos (Bool.or_true _)
  rw [State.gRead, if_neg (by decide), show ((restoring l).smWho 1 x 0).v = 1 from rfl, restoring_place_descriptor]
  dsimp only
  rw [if_pos (by decide), State.remoteRead, hchunks, List.foldl_cons, List.foldl_nil, hask]
  dsimp only
  rw [List.map_cons, List.map_nil, show (restoring l).landedAt ((restoring l).smWho 1 x 0).org (2 ^ 51) = none from h]
  rfl

theorem restoring_acceptRecord {r : PbRec} (hfn : r.fn = 1) (hdesc : r.desc = 2 ^ 51) :
    (restoring l).acceptRecord r [] = (restoring l, none) := by
  have hwait := restoring_descriptor_waits h 0
  have hbase (b : Item) (hb : b.fn = 1) (hd : b.desc = 2 ^ 51) :
      (restoring l).acceptGraph b (2 ^ 40) .again = (restoring l, none) := by
    unfold State.acceptGraph
    rw [hb, hd]
    dsimp only
    rw [if_pos (by decide), hwait]
  exact hbase _ hfn hdesc

/-- The record as a restore reads it. -/
def farAccept : PbRec := { recOfBytes farRecord with fn := 1 }

/-- The accepted records of the image: one, whose descriptor has not been read. -/
theorem restoring_restoreImage : (restoring l).restoreImage 1 farImage = restoring l := by
  have haccepts : (recsOf 1 farRecord).filter (fun r => r.kind == kAccept) = [farAccept] := by decide
  have hmemory : (restoring l).putMemory 1 [] = restoring l := rfl
  have hasked : (restoring l).askRecords (seedsOf 1 (extrasOf [])) [farAccept] = (restoring l, true) := by
    rw [State.askRecords, List.foldl_cons, List.foldl_nil, show seedsOf 1 (extrasOf []) = [] from rfl,
      restoring_acceptRecord h rfl rfl]
  unfold State.restoreImage
  dsimp only
  rw [sectionAt_farImage_last, sectionAt_farImage_record, sectionAt_farImage_grants, haccepts, hmemory, hasked]
  rfl

end

/-- Refutes O53: a RESTORE whose image has landed and whose item's descriptor has not keeps what has landed, so that it can go on
when it is given again; the statement drops it before the image is put back. -/
theorem not_functionStates : ¬ Obligations.FunctionStates := by
  intro h
  obtain ⟨hsel, -⟩ := h (restoring farLanded) 1 _ rfl rfl
  obtain ⟨-, -, hrestore, -⟩ := hsel (restoring_vfSel _)
  have hmagic : fb farImage 0 4 = 0x31474D49 := (fb_farImage (by decide)).trans (by decide)
  have hver : fb farImage 4 2 = 1 := (fb_farImage (by decide)).trans (by decide)
  have hbytes : fb farImage 8 8 = 352 := (fb_farImage (by decide)).trans (by decide)
  have hmin : 288 ≤ fb farImage 8 8 := by
    rw [hbytes]
    decide
  have hmax : fb farImage 8 8 ≤ 2 ^ 41 := by
    rw [hbytes]
    decide
  have hread : (restoring farLanded).gRead ((restoring farLanded).smWho 0 0 0) (restoring farLanded).imgAddr (fb farImage 8 8) false
      = (restoring farLanded, .ok farImage) := by
    rw [hbytes]
    exact restoring_readImage
  have hfits (l : List Landed) : (restoring l).imageFits 1 (sectionAt farImage 6) = true := by
    rw [sectionAt_farImage_grants]
    exact restoring_imageFits l
  have hforget : (restoring farLanded).forget 7000 = restoring [] := rfl
  have hmodel : exec .restore (restoring farLanded) = .next (restoring farLanded) := by
    have hexec : exec .restore (restoring farLanded) =
        .next ((restoring farLanded).finish ((restoring farLanded).vfRestore (restoring farLanded).vfSel)) := exec_awake rfl rfl
    rw [hexec, restoring_vfSel, State.vfRestore_valid (by decide) rfl restoring_readHeader hmagic hver hmin hmax hread imageOk_farImage
      (hfits _), restoring_restoreImage rfl, finish_self _ (restoring_settled _)]
  obtain ⟨hgood, -⟩ := hrestore rfl (by decide) _ _ _ _ restoring_readHeader hmagic hver hmin hmax hread
  have hclaim := hgood imageOk_farImage (hfits [])
  rw [hmodel, hforget, show (1 : Fin 256).val = 1 from rfl, restoring_restoreImage rfl,
    finish_of_settled _ _ (restoring_settled [])] at hclaim
  have hlanded : farLanded = [] := congrArg (fun s : State => s.fab.landed) (Host.Outcome.next.inj hclaim)
  exact absurd hlanded (by simp [farLanded])

end Sys2Proof.Machine
end

section
/-! SUPPORT. How records, snapshots and reads of the life log act, and the statement about them. -/

namespace Sys2Proof.Machine

/-! ## Records (R411, R413) -/

section
variable (s : State)

theorem State.lifeWrite_life (off : Nat) (b : List Byte) :
    (s.lifeWrite off b).life = { s.life with mem := s.life.mem.write off b } := rfl

theorem State.lifeWrite_time (off : Nat) (b : List Byte) : (s.lifeWrite off b).time = s.time := rfl

/-- The times of the last second at which records of a page and source were written. -/
def State.recentTimes (e : EvRec) : List Nat :=
  (Tbl.get [] s.life.recent (recentKey e)).filter fun t => decide (s.time.clk < t + 1000000000)

theorem State.dropRecord_eq {e : EvRec} {l : List EvRec} (h : s.life.pend = e :: l) :
    s.dropRecord = { s with life := { s.life with pend := l, retries := 0 } } := by
  rw [State.dropRecord, h]
  rfl

theorem State.writeRecord_none (ok : Bool) (h : s.life.pend = []) : s.writeRecord ok = s := by
  unfold State.writeRecord
  rw [h]

/-- A record that has been written: noted in its second, and done with. -/
def State.recordKept (s : State) (times : List Nat) (e : EvRec) : State :=
  ({ s with life := { s.life with recent := Tbl.set [] s.life.recent (recentKey e) (s.time.clk :: times) } } : State).dropRecord

/-- A record whose write failed: tried at the next slot, or given up at the third failure. -/
def State.recordFailed (s : State) : State :=
  if s.life.retries < 2 then { s with life := { s.life with retries := s.life.retries + 1 } }
  else ((s.setPr .life 0 0x040 (setFld (s.pr .life 0 0x040) 1 1 1)).dropRecord.raise (pageAt .life 0) 2 0).alert 5

/-- A slot of the event ring is used. -/
def State.slotUsed (s : State) (b : List Byte) : State :=
  (s.lifeWrite s.evSlot b).setPr .life 0 0x044 (s.pr .life 0 0x044 + 1)

theorem State.slotUsed_life (b : List Byte) :
    (s.slotUsed b).life = { s.life with mem := s.life.mem.write s.evSlot b } := by
  rw [State.slotUsed, State.setPr_life, State.lifeWrite_life]

theorem State.slotUsed_time (b : List Byte) : (s.slotUsed b).time = s.time := by
  rw [State.slotUsed, State.setPr_time, State.lifeWrite_time]

variable {e : EvRec} {l : List EvRec} (hpend : s.life.pend = e :: l)
include hpend

theorem State.writeRecord_dropped (ok : Bool) (hmany : 16 ≤ (s.recentTimes e).length) {t : State}
    (ht : t = s.bump .life 0 0x048 1) :
    s.writeRecord ok = { t with life := { t.life with pend := l, retries := 0 } } := by
  have hpend' : t.life.pend = e :: l := by rw [ht, State.bump_life, hpend]
  rw [← t.dropRecord_eq hpend', ht]
  unfold State.writeRecord
  rw [hpend]
  exact if_pos hmany

theorem State.recordKept_eq (times : List Nat) : s.recordKept times e = { s with life := { s.life with
    recent := Tbl.set [] s.life.recent (recentKey e) (s.time.clk :: times), pend := l, retries := 0 } } :=
  State.dropRecord_eq (e := e) (l := l) _ hpend

omit hpend in
theorem State.recordFailed_again (htries : s.life.retries < 2) :
    s.recordFailed = { s with life := { s.life with retries := s.life.retries + 1 } } := if_pos htries

theorem State.recordFailed_givenUp (htries : 2 ≤ s.life.retries) {v : State}
    (hv : v = s.setPr .life 0 0x040 (setFld (s.pr .life 0 0x040) 1 1 1)) : s.recordFailed =
      (({ v with life := { v.life with pend := l, retries := 0 } } : State).raise (pageAt .life 0) 2 0).alert 5 := by
  have hpend' : v.life.pend = e :: l := by rw [hv, State.setPr_life, hpend]
  rw [State.recordFailed, if_neg (Nat.not_lt.2 htries), ← hv, v.dropRecord_eq hpend']

variable (hfew : (s.recentTimes e).length < 16)
include hfew

theorem State.writeRecord_few (ok : Bool) : s.writeRecord ok = if ok then
      (s.slotUsed (s.recordBytes e)).recordKept (s.recentTimes e) e
    else ((s.freeBytes 64).1.slotUsed (s.freeBytes 64).2).recordFailed := by
  unfold State.writeRecord
  rw [hpend]
  exact if_neg (Nat.not_le.2 hfew)

theorem State.writeRecord_written {t : State} (ht : t = s.slotUsed (s.recordBytes e)) :
    s.writeRecord true = { t with life := { t.life with
      recent := Tbl.set [] s.life.recent (recentKey e) (s.time.clk :: s.recentTimes e), pend := l, retries := 0 } } := by
  have hpend' : t.life.pend = e :: l := by
    rw [ht, State.slotUsed_life]
    exact hpend
  have hrecent : t.life.recent = s.life.recent := by rw [ht, State.slotUsed_life]
  rw [s.writeRecord_few hpend hfew, if_pos rfl, ← ht, t.recordKept_eq hpend', hrecent, ht, State.slotUsed_time]

section
variable {t u : State} {b : List Byte} (hfree : s.freeBytes 64 = (t, b)) (hu : u = t.slotUsed b)
include hfree hu

omit hfew in
theorem State.failedWrite_pend : u.life.pend = e :: l := by
  rw [hu, State.slotUsed_life, ← hpend, show t = (s.freeBytes 64).1 by rw [hfree]]
  rfl

omit hpend hfew in
theorem State.failedWrite_retries : u.life.retries = s.life.retries := by
  rw [hu, State.slotUsed_life, show t = (s.freeBytes 64).1 by rw [hfree]]
  rfl

theorem State.writeRecord_again (htries : s.life.retries < 2) :
    s.writeRecord false = { u with life := { u.life with retries := s.life.retries + 1 } } := by
  have htries' := s.failedWrite_retries hfree hu
  rw [s.writeRecord_few hpend hfew, if_neg Bool.false_ne_true, hfree, ← hu,
    State.recordFailed_again u (by rw [htries']; exact htries), htries']

theorem State.writeRecord_givenUp (htries : 2 ≤ s.life.retries) {v : State}
    (hv : v = u.setPr .life 0 0x040 (setFld (u.pr .life 0 0x040) 1 1 1)) :
    s.writeRecord false = (({ v with life := { v.life with pend := l, retries := 0 } } : State).raise (pageAt .life 0) 2 0).alert
      5 := by
  rw [s.writeRecord_few hpend hfew, if_neg Bool.false_ne_true, hfree, ← hu]
  exact State.recordFailed_givenUp u (s.failedWrite_pend hpend hfree hu)
    (by rw [s.failedWrite_retries hfree hu]; exact htries) hv

end

end

theorem State.length_recordBytes (s : State) (e : EvRec) : (s.recordBytes e).length = 64 := by
  simp only [State.recordBytes, List.length_append, length_leBytes, List.length_cons, List.length_nil]

section
variable (s : State)

theorem State.freeBytes_pr (n : Nat) (k : PageKind) (i off : Nat) : (s.freeBytes n).1.pr k i off = s.pr k i off := rfl

theorem State.freeBytes_slotUsed {n : Nat} {t : State} {b : List Byte} (h : s.freeBytes n = (t, b)) :
    t.slotUsed b = (t.lifeWrite s.evSlot b).setPr .life 0 0x044 (s.pr .life 0 0x044 + 1) := by
  have hpr : t.pr .life 0 0x044 = s.pr .life 0 0x044 := by
    rw [show t = (s.freeBytes n).1 by rw [h], State.freeBytes_pr]
  rw [State.slotUsed, State.evSlot, State.evSlot, hpr]

/-! ## Endurance, snapshots and reads (R396, R412 to R414, R418) -/

theorem State.takeWear_low {n : Nat} (hlow : n < 10) (hfirst : s.life.wear ≤ 90) {t : State}
    (ht : t = { s with life := { s.life with wear := 100 - n } }) : s.takeWear n = t.raise (pageAt .life 0) 4 0 := by
  subst ht
  exact if_pos ⟨hlow, hfirst⟩

theorem State.takeWear_kept {n : Nat} (h : 10 ≤ n ∨ 90 < s.life.wear) {t : State}
    (ht : t = { s with life := { s.life with wear := 100 - n } }) : s.takeWear n = t := by
  subst ht
  exact if_neg fun hboth => h.elim (Nat.not_le.2 hboth.1) (Nat.not_lt.2 hboth.2)

theorem State.snapshot_eq (ageing : List (BitVec 16)) {t u : State} {b : List Byte}
    (ht : t = (List.range 26).foldl (fun s d => s.dayUpd d fun x => { x with score := min x.score (s.domScore d) })
      ((List.range 48).foldl State.laserSnap (s.takeAges ageing)).evaluate) (hb : t.snapBytes = (u, b)) :
    s.snapshot ageing = (u.lifeWrite (0x4000000 + (u.pr .life 0 0x04C).toNat % 16384 * 4096) b).setPr .life 0 0x04C
      (u.pr .life 0 0x04C + 1) := by
  unfold State.snapshot
  dsimp only
  rw [← ht, hb]

theorem State.readRdData_eq (crcOk : Bool) {a : Nat} {t : State} {b : List Byte} (ha : a = (s.pr .life 0 0x060).toNat)
    (hb : s.lifeRead a 4 = (t, b)) : s.readRdData crcOk =
      ((if crcOk then t else (t.raise (pageAt .life 0) 1 0).alert 5).setPr .life 0 0x060
        (BitVec.ofNat 32 ((a + 4) % 0x8000000))).answer (BitVec.ofNat 32 (leNat b)) := by
  unfold State.readRdData
  rw [← ha]
  dsimp only
  rw [hb]
  rfl

end

/-- Settles O56: records by how many and how often, then the endurance, snapshots, the summary and reads in their order. -/
theorem lifeLog : Obligations.LifeLog := by
  intro s h
  have hwrite (ok : Bool) (left : Fin 101) :
      exec (.eventRecordWrite ok left) s = .next (s.finish ((s.writeRecord ok).takeWear left.val)) := exec_awake h rfl
  refine ⟨fun e l times hpend htimes => ⟨fun hmany left ok t ht => ?_, fun hfew left => ⟨fun t ht => ⟨?_, s.length_recordBytes e⟩,
      fun t u b hfree hu => ⟨fun htries => ?_, fun htries v hv => ?_⟩⟩⟩,
    fun hnone ok left => ?_, fun n t ht => ⟨fun hlow hfirst => s.takeWear_low hlow hfirst ht, fun hkept => s.takeWear_kept hkept ht⟩,
    fun ageing t u b ht hb v hv => ⟨?_, fun hnil => ?_⟩, fun u hd body hhead hbody => ?_,
    fun a n => ⟨fun hring => if_neg (Nat.not_lt.2 hring), fun hlow => if_pos hlow⟩,
    fun a t b w ha hb hw => ⟨?_, ?_⟩, fun hserved => ⟨?_, fun off len t b hb => ?_⟩,
    fun hserved sel => exec_guard_pos h rfl hserved⟩
  -- records
  · subst htimes
    rw [hwrite, s.writeRecord_dropped hpend ok hmany ht]
  · subst htimes
    rw [hwrite, s.writeRecord_written hpend hfew ht]
    rfl
  · subst htimes
    rw [hwrite, s.writeRecord_again hpend hfew hfree (hu.trans (s.freeBytes_slotUsed hfree).symm) htries]
  · subst htimes
    rw [hwrite, s.writeRecord_givenUp hpend hfew hfree (hu.trans (s.freeBytes_slotUsed hfree).symm) htries hv]
  · rw [hwrite, s.writeRecord_none ok hnone]
  -- snapshots
  · have hexec : exec (.snapshot ageing) s = .next (s.finish (s.snapshot ageing)) := exec_awake h rfl
    rw [hexec, s.snapshot_eq ageing ht hb, hv]
  · subst hnil
    have hexec : exec (.snapNow 1) s = .next (s.finish (s.snapshot [])) := exec_guard_pos h rfl (by decide)
    rw [hexec, s.snapshot_eq [] ht hb, hv]
  · refine (exec_awake h rfl).trans ?_
    dsimp only
    rw [hhead]
    dsimp only
    rw [← hbody]
  -- reads
  · have hexec : exec (.logRdDataRead true) s = .next (s.finish (s.readRdData true)) := exec_awake h rfl
    rw [hexec, s.readRdData_eq true ha hb, hw, if_pos rfl]
  · have hexec : exec (.logRdDataRead false) s = .next (s.finish (s.readRdData false)) := exec_awake h rfl
    rw [hexec, s.readRdData_eq false ha hb, hw, if_neg Bool.false_ne_true]
  · refine (exec_guard_pos h rfl hserved).trans ?_
    rw [List.flatMap_cons, List.flatMap_cons, List.flatMap_cons, List.flatMap_nil, List.append_nil, List.append_assoc]
  · refine (exec_guard_pos h rfl hserved).trans ?_
    rw [show s.lifeRead off.toNat (min len.val (lifeSize - off.toNat)) = (t, b) from hb]
    rfl

end Sys2Proof.Machine
end

section
/-! SUPPORT. How the power manager samples, limits and steps, how clusters change their power state, and the statement about
them. -/

namespace Sys2Proof.Machine

/-! ## The last 100 ms (R425) -/

theorem sum_dropLast (l : List Nat) : l.dropLast.sum + l.getLastD 0 = l.sum := by
  rcases List.eq_nil_or_concat l with rfl | ⟨t, x, rfl⟩
  · rfl
  · simp only [List.concat_eq_append, List.dropLast_concat, List.getLastD_concat, List.sum_append, List.sum_singleton]

section
variable (p : PwrSt) (w : Nat)

theorem PwrSt.sample_growing (h : p.winLen < winMax) :
    p.sample w = { p with win := w :: p.win, winLen := p.winLen + 1, winSum := p.winSum + w } := if_pos h

theorem PwrSt.sample_full (h : winMax ≤ p.winLen) :
    p.sample w = { p with win := w :: p.win.dropLast, winSum := p.winSum + w - p.win.getLastD 0 } := if_neg (Nat.not_lt.2 h)

theorem PwrSt.sample_winLen (hlen : p.winLen = p.win.length) : (p.sample w).winLen = (p.sample w).win.length := by
  rcases Nat.lt_or_ge p.winLen winMax with h | h
  · rw [p.sample_growing w h, List.length_cons, hlen]
  · have hpos : 0 < p.winLen := Nat.lt_of_lt_of_le (by decide) h
    rw [p.sample_full w h, List.length_cons, List.length_dropLast, ← hlen]
    exact (Nat.sub_add_cancel hpos).symm

theorem PwrSt.sample_winSum (hsum : p.winSum = p.win.sum) : (p.sample w).winSum = (p.sample w).win.sum := by
  rcases Nat.lt_or_ge p.winLen winMax with h | h
  · rw [p.sample_growing w h, List.sum_cons, hsum]
    exact Nat.add_comm _ _
  · have hsplit := sum_dropLast p.win
    rw [p.sample_full w h, List.sum_cons, hsum, ← hsplit]
    dsimp only
    omega

theorem PwrSt.sample_winLen_le (hle : p.winLen ≤ winMax) : (p.sample w).winLen = min winMax (p.winLen + 1) := by
  rcases Nat.lt_or_ge p.winLen winMax with h | h
  · rw [p.sample_growing w h, Nat.min_eq_right h]
  · rw [p.sample_full w h, Nat.min_eq_left (Nat.le_succ_of_le h)]
    exact Nat.le_antisymm hle h

end

/-! ## Ceilings (R426, R427) -/

section
variable (s : State)

theorem State.ceil_of_rg {t : State} (h : t.rg 0x40060 = s.rg 0x40060) (q : Nat) : t.ceil q = s.ceil q :=
  congrArg (fun r => fld r (4 * q) 4) h

theorem State.setCeil_ceil (q : Nat) {c : Nat} (hc : c < 16) (hq : q < 8) : (s.setCeil q c).ceil q = c := by
  have hreg : (s.setCeil q c).pr .pwr 0 0x060 = setFld (s.pr .pwr 0 0x060) (4 * q) 4 c := s.setRg_rg _ _
  rw [State.ceil, hreg, fld_setFld_self _ hc (by omega)]

theorem State.setCeil_ceil_other {q j : Nat} (c : Nat) (hj : j < 8) (h : j ≠ q) : (s.setCeil q c).ceil j = s.ceil j := by
  have hreg : (s.setCeil q c).pr .pwr 0 0x060 = setFld (s.pr .pwr 0 0x060) (4 * q) 4 c := s.setRg_rg _ _
  rw [State.ceil, hreg, fld_setFld_other _ _ (by omega) (by omega), State.ceil]

/-- Every open ceiling of the first `n` quarters at most 2. -/
def State.capCeils (n : Nat) : State := (List.range n).foldl (fun s q => s.setCeil q (min 2 (s.ceil q))) s

theorem State.capCeils_succ (n : Nat) : s.capCeils (n + 1) = (s.capCeils n).setCeil n (min 2 ((s.capCeils n).ceil n)) := by
  rw [State.capCeils, List.range_succ, List.foldl_append]
  rfl

theorem State.capCeils_pwr (n : Nat) : (s.capCeils n).pwr = s.pwr := by
  induction n with
  | zero => rfl
  | succ n ih => rw [s.capCeils_succ, State.setCeil, State.setPr_pwr, ih]

theorem State.capCeils_time (n : Nat) : (s.capCeils n).time = s.time := by
  induction n with
  | zero => rfl
  | succ n ih => rw [s.capCeils_succ, State.setCeil, State.setPr_time, ih]

theorem State.capCeils_ceil {n k : Nat} (hn : n ≤ 8) (hk : k < 8) :
    (s.capCeils n).ceil k = if k < n then min 2 (s.ceil k) else s.ceil k := by
  induction n with
  | zero => rfl
  | succ n ih =>
    have hold := ih (by omega)
    rw [s.capCeils_succ]
    rcases eq_or_ne k n with rfl | hne
    · rw [State.setCeil_ceil _ _ (by omega) (by omega), hold, if_neg (Nat.lt_irrefl k), if_pos (Nat.lt_succ_self k)]
    · rw [State.setCeil_ceil_other _ _ hk hne, hold]
      split <;> split <;> omega

theorem State.setPwrBit_ceil (n : Nat) (b : Bool) (k : Nat) : (s.setPwrBit n b).ceil k = s.ceil k :=
  s.ceil_of_rg (s.setRg_rg_other _ (by decide)) k

theorem State.limitStart_ceil (k : Nat) : s.limitStart.ceil k = s.ceil k := by
  unfold State.limitStart
  split
  · rfl
  · exact (State.ceil_of_rg _ (State.raise_rg (by decide) _ .pwr 0 1 0) k).trans (s.setPwrBit_ceil 0 true k)

theorem State.limitStart_pwr : s.limitStart.pwr = s.pwr := by
  unfold State.limitStart
  split
  · rfl
  · rw [State.raise_pwr, State.setPwrBit, State.setPr_pwr]

/-- The EDC response's first part: counted and raised. -/
def State.edcCounted : State := (s.bump .pwr 0 0x090 1).raise (pageAt .pwr 0) 2 0

theorem State.edcResponse_eq {t : State} (ht : t = s.edcCounted.capCeils 4) : s.edcResponse =
    (({ t with pwr := { t.pwr with edcUntil := t.time.clk + 100000 } } : State).setPwrBit 1 true).limitStart := by
  subst ht
  rfl

theorem State.edcCounted_ceil (k : Nat) : s.edcCounted.ceil k = s.ceil k :=
  (State.ceil_of_rg _ (State.raise_rg (by decide) _ .pwr 0 2 0) k).trans (s.ceil_of_rg (s.setRg_rg_other _ (by decide)) k)

theorem State.edcResponse_ceil {k : Nat} (hk : k < 4) : s.edcResponse.ceil k = min 2 (s.ceil k) := by
  obtain ⟨t, ht⟩ : ∃ t, t = s.edcCounted.capCeils 4 := ⟨_, rfl⟩
  have hcap : t.ceil k = min 2 (s.ceil k) := by rw [ht, State.capCeils_ceil _ (by decide) (by omega), if_pos hk, s.edcCounted_ceil]
  rw [s.edcResponse_eq ht]
  rw [State.limitStart_ceil, State.setPwrBit_ceil, ← hcap]
  exact t.ceil_of_rg (State.rg_of_regs rfl _) k

theorem State.edcResponse_edcUntil : s.edcResponse.pwr.edcUntil = s.time.clk + 100000 := by
  rw [s.edcResponse_eq rfl, State.limitStart_pwr, State.setPwrBit, State.setPr_pwr]
  show (s.edcCounted.capCeils 4).time.clk + 100000 = _
  rw [State.capCeils_time, State.edcCounted, State.raise_time, State.bump_time]

end

/-! ## Levers (R427) -/

section
variable (s : State)

theorem State.paced_of_le {ns : Nat} (h : s.pwr.leverAt + ns ≤ s.time.clk) : s.paced ns = true := decide_eq_true h

theorem State.lever_lower {q : Fin 4} (hon : s.budgetOn = true) (hpace : s.paced 10000 = true) (hmore : 1 < s.ceil q.val)
    (htop : ∀ j, j < 4 → s.ceil j ≤ s.ceil q.val) :
    s.lever (.lower q) = (s.setCeil q.val (s.ceil q.val - 1)).limitStart.stepped := by
  have hall : ((List.range 4).all fun j => decide (s.ceil j ≤ s.ceil q.val)) = true :=
    List.all_eq_true.2 fun j hj => decide_eq_true (htop j (List.mem_range.1 hj))
  exact if_pos (by rw [hon, hpace, decide_eq_true hmore, hall]; rfl)

theorem State.lever_raise {q : Fin 4} (hless : s.ceil q.val < 8) (hend : s.pwr.edcUntil ≤ s.time.clk)
    (hlow : ∀ j, j < 4 → s.ceil q.val ≤ s.ceil j)
    (hwhy : (s.mayRelease = true ∧ s.pwrBit 3 = false ∧ (∀ j, j < 4 → s.opOf j = 0) ∧ s.paced 100000 = true)
      ∨ (s.pwr.edcUntil ≠ 0 ∧ s.paced 10000 = true)) :
    s.lever (.raise q) = (s.setCeil q.val (s.ceil q.val + 1)).limitEnd.stepped := by
  have hall : ((List.range 4).all fun j => decide (s.ceil q.val ≤ s.ceil j)) = true :=
    List.all_eq_true.2 fun j hj => decide_eq_true (hlow j (List.mem_range.1 hj))
  have hreason : ((s.mayRelease && !s.pwrBit 3 && (List.range 4).all fun j => s.opOf j == 0) && s.paced 100000
      || s.pwr.edcUntil != 0 && s.paced 10000) = true := by
    rcases hwhy with ⟨hrel, hmaint, hops, hpace⟩ | ⟨hedc, hpace⟩
    · have hzero : ((List.range 4).all fun j => s.opOf j == 0) = true :=
        List.all_eq_true.2 fun j hj => beq_iff_eq.2 (hops j (List.mem_range.1 hj))
      rw [hrel, hmaint, hzero, hpace]
      rfl
    · rw [hpace, bne_iff_ne.2 hedc, Bool.and_true, Bool.or_true]
  exact if_pos (by rw [decide_eq_true hless, decide_eq_true hend, hall, hreason]; rfl)

theorem State.lever_opDown {q : Fin 4} (hon : s.budgetOn = true) (hceil : s.ceil q.val = 1) (hradio : s.radioQ q.val = false)
    (hmore : s.opOf q.val < fld (s.pr .pwr 0 0x05C) 0 3) (hidle : Tbl.get 0 s.pwr.stepping q.val = 0) :
    s.lever (.opDown q) = (s.startStep q.val 1).limitStart.stepped :=
  if_pos (by rw [hon, hceil, hradio, decide_eq_true hmore, hidle]; rfl)

theorem State.lever_opUp {q : Fin 4} (hwhy : (s.mayRelease = true ∧ s.pwrBit 3 = false ∧ s.paced 100000 = true)
      ∨ s.commitNeeds q.val = true) (hop : s.opOf q.val ≠ 0) (hidle : Tbl.get 0 s.pwr.stepping q.val = 0) :
    s.lever (.opUp q) = (s.startStep q.val 2).stepped := by
  have hreason : (s.mayRelease && !s.pwrBit 3 && s.paced 100000 || s.commitNeeds q.val) = true := by
    rcases hwhy with ⟨hrel, hmaint, hpace⟩ | hcommit
    · rw [hrel, hmaint, hpace]
      rfl
    · rw [hcommit, Bool.or_true]
  exact if_pos (by rw [hreason, bne_iff_ne.2 hop, hidle]; rfl)

theorem State.lever_deferMaint (hon : s.budgetOn = true) (hops : s.opsExhausted = true) (hmaint : s.pwrBit 3 = false) :
    s.lever .deferMaint = (s.setPwrBit 3 true).limitStart.stepped :=
  if_pos (by rw [hon, hops, hmaint]; rfl)

theorem State.lever_exhausted (hon : s.budgetOn = true) (hops : s.opsExhausted = true) (hmaint : s.pwrBit 3 = true)
    (hover : s.overBudget = true) (hfirst : s.pwrBit 2 = false) :
    s.lever .exhausted = (s.setPwrBit 2 true).raise (pageAt .pwr 0) 3 0 :=
  if_pos (by rw [hon, hops, hmaint, hover, hfirst]; rfl)

theorem State.lever_resumeMaint (hrel : s.mayRelease = true) (hpace : s.paced 100000 = true) (hmaint : s.pwrBit 3 = true) :
    s.lever .resumeMaint = (s.setPwrBit 3 false).limitEnd.stepped :=
  if_pos (by rw [hrel, hpace, hmaint]; rfl)

/-! ## Clusters (R423, R424) -/

theorem State.darken_pwr (k : Nat) : ((s.darken k).clOf k).pwr = .dark := by
  rw [State.darken, State.setCl_clOf]

theorem State.darken_store {k off : Nat} (h : off < csSize) : (s.darken k).store.byte (k * csSize + off) = 0 := by
  have hstore : (s.darken k).store = s.store.zero (k * csSize + 0) csSize := rfl
  rw [hstore, Memory.byte_zero, if_pos (by omega)]

theorem State.autoDark_cluster {k : Fin 144} {c : Cluster} (hc : c = s.clOf k.val) (hlit : c.pwr ≠ .dark) (hfree : c.force = 0)
    (hempty : c.placed = none) (hunused : s.granted k.val = false ∨ s.unitSt clsCluster k.val ≠ .active)
    (hradio : s.radioCl k.val = false) (hspare : s.bringing clsCluster k.val = false) :
    s.autoDark (.cluster k) = s.darken k.val := by
  subst hc
  have hidle : (!s.granted k.val || s.unitSt clsCluster k.val != .active) = true := by
    rcases hunused with hgrant | hstate
    · rw [hgrant]
      rfl
    · rw [bne_iff_ne.2 hstate, Bool.or_true]
  exact if_pos ⟨hlit, hfree, by rw [hempty]; rfl, hidle, by rw [hradio]; rfl, by rw [hspare]; rfl⟩

theorem State.writeClPwr_eq (val : Word) {k : Nat} (hk : fld (s.pr .pwr 0 0x0A0) 0 8 = k) : s.writeClPwr val =
    match fld val 0 2 with
    | 0 => s.setCl k { s.clOf k with force := 0 }
    | 1 => if s.radioCl k then s else s.setCl k { s.clOf k with force := 1, pwr := .dimmed }
    | 2 => if s.granted k || s.radioCl k then s else (s.setCl k { s.clOf k with force := 2 }).darken k
    | _ => s := by
  subst hk
  unfold State.writeClPwr
  rfl

end

/-- Settles O57: samples, the levers in R427's order, operating points, then the states of clusters. -/
theorem powerManagement : Obligations.PowerManagement := by
  intro s q cl c h hc
  have hlever (x : PowerLever) : exec (.ceilingStep x) s = .next (s.finish (s.lever x)) := exec_awake h rfl
  have hforce (val : BitVec 32) : exec (.clPwrForce val) s = .next (s.finish (s.writeClPwr val)) := exec_awake h rfl
  refine ⟨fun w i r t v u hr ht hv hu => ⟨fun hover => ?_, fun hunder => ?_⟩,
    fun p w hlen hsum => ⟨p.sample_winLen w hlen, p.sample_winSum w hsum, p.sample_winLen_le w⟩,
    fun k hk => s.edcResponse_ceil hk, fun k hk => s.edcResponse_edcUntil,
    fun hon hpace hmore htop => ?_, fun hless hend hlow hwhy => ?_,
    fun hidle d t ht => ⟨fun hd hon hceil hradio hmore => ?_, fun hd hwhy hop => ?_⟩,
    fun hon hops => ⟨fun hmaint => ?_, fun hmaint hover hfirst => ?_⟩, fun hrel hpace hmaint => ?_, rfl,
    fun d op age t hd hstep hage => ⟨fun hlate => ?_, fun hsoon hop ht => ?_⟩,
    fun hfree hempty hradio => ⟨fun hon hlit hctx hidle => ?_, fun hon hlit hunused hspare => ⟨?_, s.darken_pwr cl.val,
      fun off hoff => s.darken_store hoff⟩⟩,
    fun us hfree => ⟨fun hdark => ?_, fun hlit => ?_⟩,
    fun hsel => ⟨?_, fun hradio => ?_, fun hgrant hradio => ?_, fun hheld hset => ?_⟩, fun d => exec_awake h rfl⟩
  -- samples
  · subst hu hv ht hr
    exact exec_guard_pos h rfl hover
  · subst hu hv ht hr
    exact exec_guard_neg h rfl (Nat.not_lt.2 hunder)
  -- levers
  · rw [hlever, s.lever_lower hon (s.paced_of_le hpace) hmore htop]
  · rw [hlever, s.lever_raise hless hend hlow (hwhy.imp (fun ⟨hrel, hmaint, hops, hpace⟩ =>
      ⟨hrel, hmaint, hops, s.paced_of_le hpace⟩) fun ⟨hedc, hpace⟩ => ⟨hedc, s.paced_of_le hpace⟩)]
  · subst hd ht
    rw [hlever, s.lever_opDown hon hceil hradio hmore hidle]
    rfl
  · subst hd ht
    rw [hlever, s.lever_opUp (hwhy.imp_left fun ⟨hrel, hmaint, hpace⟩ => ⟨hrel, hmaint, s.paced_of_le hpace⟩) hop hidle]
    rfl
  · rw [hlever, s.lever_deferMaint hon hops hmaint]
  · rw [hlever, s.lever_exhausted hon hops hmaint hover hfirst]
  · rw [hlever, s.lever_resumeMaint hrel (s.paced_of_le hpace) hmaint]
  -- operating points
  · refine (exec_awake h rfl).trans ?_
    dsimp only
    rw [← hd, ← hage, if_neg ?_]
    · rfl
    · rintro (hnone | hok | hearly)
      · exact hstep hnone
      · exact Bool.false_ne_true hok
      · exact Nat.not_lt.2 hlate (of_decide_eq_true hearly)
  · refine (exec_awake h rfl).trans ?_
    dsimp only
    rw [← hd, ← hage, ← hop, ← ht, if_neg ?_]
    · rfl
    · rintro (hnone | hlate | hfail)
      · exact hstep hnone
      · exact Nat.not_lt.2 hsoon (of_decide_eq_true hlate)
      · exact Bool.false_ne_true hfail
  -- clusters
  · subst hc
    have hfreeUnits : ((s.clOf cl.val).units.all fun u => u.2.ctx.isNone) = true :=
      List.all_eq_true.2 fun u hu => by rw [hctx u hu]; rfl
    exact exec_guard_pos h rfl ⟨hon, hlit, hfree, by rw [hempty]; rfl, hfreeUnits, by rw [hradio]; rfl, hidle⟩
  · rw [← s.autoDark_cluster hc hlit hfree hempty hunused hradio hspare]
    exact exec_guard_pos h rfl hon
  · subst hc
    refine (exec_awake h rfl).trans ?_
    dsimp only
    rw [if_neg (not_not.2 hfree), if_pos hdark]
  · subst hc
    refine (exec_awake h rfl).trans ?_
    dsimp only
    rw [if_neg (not_not.2 hfree), if_neg hlit]
  · rw [hforce, s.writeClPwr_eq 0 hsel, hc]
    rfl
  · rw [hforce, s.writeClPwr_eq 1 hsel, hc]
    exact congrArg (fun x => Host.Outcome.next (s.finish x)) (if_neg (Bool.eq_false_iff.1 hradio))
  · rw [hforce, s.writeClPwr_eq 2 hsel, hc]
    exact congrArg (fun x => Host.Outcome.next (s.finish x)) (if_neg (by rw [hgrant, hradio]; exact Bool.false_ne_true))
  · rw [hforce, s.writeClPwr_eq 2 hsel]
    have hkept : (s.granted cl.val || s.radioCl cl.val) = true := by rwa [Bool.or_eq_true]
    exact (congrArg (fun x => Host.Outcome.next (s.finish x)) (if_pos hkept)).trans (by rw [finish_self s hset])

end Sys2Proof.Machine
end

section
/-! SUPPORT. How life-cycle requests, firmware updates and SPDM requests act, and the statement about them. -/

namespace Sys2Proof.Machine

/-! ## Life cycle (R439, R440, R447) -/

section
variable (s : State) (tok : List Byte) (ok : Bool)

theorem State.lcRequest_refused {r : Nat} (hr : r = s.lcCheck tok ok) (hne : r ≠ 1) {t : State}
    (ht : t = (s.setPr .chip 0 0x0FC (BitVec.ofNat 32 r)).raise (pageAt .chip 0) 0x1A (s.bootInfo r)) :
    s.lcRequest tok ok = { t with sec := { t.sec with nonce := Config.nonce t.sec.draws, draws := t.sec.draws + 1 } } := by
  subst hr ht
  exact if_pos hne

section
variable {r dst : Nat} (hr : r = s.lcCheck tok ok) (hok : r = 1) (hdst : dst = leNat ((tok.drop 4).take 1)) {t : State}
  (ht : t = s.setPr .chip 0 0x0FC 1)
include hr hok hdst ht

theorem State.lcRequest_transition (hplain : ¬(s.sec.lc = 3 ∧ dst = 3)) : s.lcRequest tok ok =
    { t with sec := { t.sec with nextLc := some dst, nextOwner := (tok.drop 64).take 96 } } := by
  have hsec : t.sec = s.sec := by rw [ht, State.setPr_sec]
  unfold State.lcRequest
  dsimp only
  rw [← hr, if_neg (not_not.2 hok), ← ht, ← hdst, hsec, if_neg hplain]

theorem State.lcRequest_debug (hlc : s.sec.lc = 3) (hthree : dst = 3) : s.lcRequest tok ok =
    ({ t with sec := { t.sec with debugOpen := true } } : State).raise (pageAt .chip 0) 0x1D (t.bootInfo 1) := by
  have hsec : t.sec = s.sec := by rw [ht, State.setPr_sec]
  unfold State.lcRequest
  dsimp only
  rw [← hr, if_neg (not_not.2 hok), ← ht, ← hdst, hsec, if_pos ⟨hlc, hthree⟩]

end

theorem SecSt.transition_lc {c : SecSt} {n : Nat} (h : c.nextLc = some n) : c.transition.lc = n := by
  unfold SecSt.transition
  rw [h]

theorem State.coldReset_lc {n : Nat} (h : s.sec.nextLc = some n) (cause : Nat) : (s.coldReset cause).sec.lc = n := by
  unfold State.coldReset
  rw [State.setPr_sec]
  exact SecSt.transition_lc h

/-! ## SPDM (R445) -/

theorem State.spdmAt_ready (hon : s.spdmOn = true) {stage : Nat} (h : stage ≤ s.sec.spdmStage) (f : State → State) :
    s.spdmAt stage f = f s := by
  rw [State.spdmAt, hon, if_neg (Nat.not_lt.2 h)]
  rfl

theorem State.spdmAt_early (hon : s.spdmOn = true) {stage : Nat} (h : s.sec.spdmStage < stage) (f : State → State) :
    s.spdmAt stage f = s.spdmSend 0x7F 0 := by
  rw [State.spdmAt, hon, if_pos h]
  rfl

end

/-- Settles O60: tokens by their check, firmware by its staging, SPDM requests by the stage of the connection. -/
theorem securityServices : Obligations.SecurityServices := by
  intro s h
  refine ⟨fun tok ok r dst t hr hdst hserved => ⟨fun hok hplain ht => ?_, fun hok hlc hthree ht => ?_, fun hne ht => ?_⟩,
    fun hready ok => ⟨fun hbusy => ?_, fun t b hfree hread => ?_⟩,
    fun n hn => ⟨exec_guard_pos h rfl (by rw [hn]; rfl), s.coldReset_lc hn 3⟩,
    fun hready => ⟨fun hstaging => ?_, fun hidle => ⟨fun hfits => ?_, fun hlong => ?_⟩⟩,
    fun hstaging img => ⟨exec_guard_pos h rfl hstaging, exec_guard_pos h rfl hstaging⟩,
    fun img hserved hidle => ?_, fun hvalid => exec_guard_pos h rfl hvalid, fun i hrun hready hsvn => ?_, fun hon => ?_⟩
  -- life cycle
  · have hexec : exec (.lcRequest tok ok) s = .next (s.finish (s.lcRequest tok ok)) := exec_guard_pos h rfl hserved
    rw [hexec, s.lcRequest_transition tok ok hr hok hdst ht hplain]
  · have hexec : exec (.lcRequest tok ok) s = .next (s.finish (s.lcRequest tok ok)) := exec_guard_pos h rfl hserved
    rw [hexec, s.lcRequest_debug tok ok hr hok hdst ht hlc hthree]
  · have hexec : exec (.lcRequest tok ok) s = .next (s.finish (s.lcRequest tok ok)) := exec_guard_pos h rfl hserved
    rw [hexec, s.lcRequest_refused tok ok hr hne ht]
  · have hexec : exec (.lcReqGo ok) s = .next (s.finish (s.lcGo fun _ => ok)) := exec_awake h rfl
    rw [hexec, State.lcGo, hready, hbusy]
    rfl
  · have hexec : exec (.lcReqGo ok) s = .next (s.finish (s.lcGo fun _ => ok)) := exec_awake h rfl
    rw [hexec, State.lcGo, hready, hfree, hread]
    rfl
  -- firmware
  · have hexec : exec .fwuStage s = .next (s.finish (s.fwuStage (s.pr .chip 0 0x108).toNat)) := exec_guard_pos h rfl hready
    rw [hexec, State.fwuStage, if_pos hstaging]
  · have hexec : exec .fwuStage s = .next (s.finish (s.fwuStage (s.pr .chip 0 0x108).toNat)) := exec_guard_pos h rfl hready
    rw [hexec, State.fwuStage, if_neg (Bool.eq_false_iff.1 hidle), if_neg (Nat.not_lt.2 hfits)]
  · have hexec : exec .fwuStage s = .next (s.finish (s.fwuStage (s.pr .chip 0 0x108).toNat)) := exec_guard_pos h rfl hready
    rw [hexec, State.fwuStage, if_neg (Bool.eq_false_iff.1 hidle), if_pos hlong]
  · have hserves : ¬((!s.mctpAll && !s.boot.recovery) = true) := by
      rcases hserved with hall | hrec
      · rw [hall]
        exact Bool.false_ne_true
      · rw [hrec, Bool.not_true, Bool.and_false]
        exact Bool.false_ne_true
    refine (exec_guard_neg h rfl hserves).trans ?_
    rw [if_neg (Bool.eq_false_iff.1 hidle)]
    rfl
  · have hexec : exec .fwuCommitSvn s = .next (s.finish s.commitSvn) := exec_awake h rfl
    rw [hexec, State.commitSvn, hrun]
    exact congrArg (fun x => Host.Outcome.next (s.finish x)) (if_pos ⟨hready, hsvn⟩)
  -- SPDM
  · have hready {c : Instr} {stage : Nat} {f : State → State} (hstage : stage ≤ s.sec.spdmStage)
        (hc : exec c s = .next (s.finish (if s.awake = true then s.spdmAt stage f else s))) :
        exec c s = .next (s.finish (f s)) := by
      rw [exec_awake h hc, s.spdmAt_ready hon hstage]
    have hearly {c : Instr} {f : State → State} (hstage : s.sec.spdmStage < 3)
        (hc : exec c s = .next (s.finish (if s.awake = true then s.spdmAt 3 f else s))) :
        exec c s = .next (s.finish (s.spdmSend 0x7F 0)) := by
      rw [exec_awake h hc, s.spdmAt_early hon hstage]
    refine ⟨fun t ht => ?_, fun hstage t ht => ?_, fun hstage t ht => ?_, fun hstage c hc => ?_, fun hstage => ⟨(hready hstage rfl).trans rfl,
      ?_, fun k hk => ?_, fun nonce => (hready hstage rfl).trans rfl, fun k hlow hhigh => ?_, fun pub t ht => ?_,
      fun sid t => ⟨fun hlook ht => ?_, fun hlook => ⟨?_, fun ht => ?_⟩⟩⟩⟩
    · rw [ht]
      exact (hready (Nat.zero_le _) rfl).trans rfl
    · rw [ht]
      exact (hready hstage rfl).trans rfl
    · rw [ht]
      exact (hready hstage rfl).trans rfl
    · simp only [List.mem_cons, List.not_mem_nil, or_false] at hc
      rcases hc with rfl | rfl | rfl | rfl | rfl | rfl | rfl | rfl <;> exact hearly hstage rfl
    · exact (hready hstage rfl).trans rfl
    · refine (hready hstage rfl).trans ?_
      rw [if_neg (Fin.val_ne_zero_iff.2 hk)]
      rfl
    · refine (hready hstage rfl).trans ?_
      rw [if_pos ⟨hlow, hhigh⟩]
    · rw [ht]
      exact (hready hstage rfl).trans rfl
    · rw [ht]
      refine (hready hstage rfl).trans ?_
      dsimp only
      rw [if_pos hlook]
    · refine (hready hstage rfl).trans ?_
      rw [if_pos hlook]
    · rw [ht]
      refine (hready hstage rfl).trans ?_
      dsimp only
      rw [if_pos hlook]

end Sys2Proof.Machine
end

section
/-! SUPPORT. What a cold and a warm reset keep and clear, how requests and completions of resets act, and the statement about
them. -/

namespace Sys2Proof.Machine

/-! ## What stopping work keeps (R429, R431) -/

/-- `t` keeps the memories, the routes and the lost nodes of `s`; the memories of the cores too where no core has an access
left to complete, and then none has one in `t`. -/
structure State.Spares (s t : State) : Prop where
  hbm : t.hbm = s.hbm
  poison : t.poison = s.poison
  store : t.store = s.store
  life : t.life.mem = s.life.mem
  route : t.fab.route = s.fab.route
  lost : t.fab.lost = s.fab.lost
  cores : (∀ k, (s.coreOf k).memq = []) → t.dspMem = s.dspMem ∧ ∀ k, (t.coreOf k).memq = []

section
variable {s t : State}

theorem State.Spares.refl (s : State) : s.Spares s := ⟨rfl, rfl, rfl, rfl, rfl, rfl, fun h => ⟨rfl, h⟩⟩

theorem State.Spares.trans {u : State} (h : s.Spares t) (g : t.Spares u) : s.Spares u :=
  ⟨g.hbm.trans h.hbm, g.poison.trans h.poison, g.store.trans h.store, g.life.trans h.life, g.route.trans h.route,
    g.lost.trans h.lost, fun hq => ⟨(g.cores (h.cores hq).2).1.trans (h.cores hq).1, (g.cores (h.cores hq).2).2⟩⟩

theorem State.Spares.setPr (h : s.Spares t) (k : PageKind) (i off : Nat) (v : Word) : s.Spares (t.setPr k i off v) :=
  ⟨h.hbm, h.poison, h.store, h.life, h.route, h.lost, h.cores⟩

theorem State.Spares.bump (h : s.Spares t) (k : PageKind) (i off n : Nat) : s.Spares (t.bump k i off n) :=
  ⟨h.hbm, h.poison, h.store, h.life, h.route, h.lost, h.cores⟩

theorem State.Spares.setCl (h : s.Spares t) (k : Nat) (c : Cluster) : s.Spares (t.setCl k c) :=
  ⟨h.hbm, h.poison, h.store, h.life, h.route, h.lost, h.cores⟩

theorem State.Spares.setSeq (h : s.Spares t) (k : Nat) (q : Seq) : s.Spares (t.setSeq k q) :=
  ⟨h.hbm, h.poison, h.store, h.life, h.route, h.lost, h.cores⟩

theorem State.Spares.dropOrg (h : s.Spares t) (org : Nat) : s.Spares (t.dropOrg org) :=
  ⟨h.hbm, h.poison, h.store, h.life, h.route, h.lost, h.cores⟩

theorem State.Spares.setTask (h : s.Spares t) (i j : Nat) (x : Task) : s.Spares (t.setTask i j x) := by
  unfold State.setTask
  split
  · exact ⟨h.hbm, h.poison, h.store, h.life, h.route, h.lost, h.cores⟩
  · exact h

/-- A core that is stored with no access left keeps the memories and every other core. -/
theorem State.Spares.setCore (h : s.Spares t) (k : Nat) {d : DspCore} (hd : (∀ j, (s.coreOf j).memq = []) → d.memq = []) :
    s.Spares (t.setCore k d) := by
  refine ⟨h.hbm, h.poison, h.store, h.life, h.route, h.lost, fun hq => ⟨(h.cores hq).1, fun j => ?_⟩⟩
  by_cases hj : j = k
  · rw [hj, State.setCore_coreOf, hd hq]
  · rw [State.setCore_coreOf_other t d hj, (h.cores hq).2 j]

/-! ## What a core completes as it stops (R216, R227) -/

/-- `t` keeps the other memories, the fabric and the cores of `s`, as a check or a write of the memories of cores does. -/
structure State.Checks (s t : State) : Prop where
  hbm : t.hbm = s.hbm
  poison : t.poison = s.poison
  store : t.store = s.store
  life : t.life.mem = s.life.mem
  fab : t.fab = s.fab
  dsp : t.dsp = s.dsp

theorem State.Checks.refl (s : State) : s.Checks s := ⟨rfl, rfl, rfl, rfl, rfl, rfl⟩

theorem State.Checks.raise (h : s.Checks t) (p : Page) (i : Nat) (info : Word) : s.Checks (t.raise p i info) :=
  ⟨(t.raise_hbm p i info).trans h.hbm, (t.raise_poison p i info).trans h.poison, (t.raise_store p i info).trans h.store,
    (t.raise_lifeMem p i info).trans h.life, (t.raise_fab p i info).trans h.fab, (t.raise_dsp p i info).trans h.dsp⟩

theorem State.Checks.dspCheck (h : s.Checks t) (k a n : Nat) : s.Checks (t.dspCheck k a n).1 := by
  unfold State.dspCheck
  split
  · exact h
  · refine foldl_keeps s.Checks _ _ _ ⟨h.hbm, h.poison, h.store, h.life, h.fab, h.dsp⟩ fun u f hu => ?_
    dsimp only
    split
    · exact hu.raise _ _ _
    · split
      · exact hu.raise _ _ _
      · exact hu

theorem State.Checks.dspCheckPart (h : s.Checks t) (k a r : Nat) :
    s.Checks (if r = 0 then (t, true) else t.dspCheck k a 1).1 := by
  split
  · exact h
  · exact h.dspCheck k a 1

theorem State.Checks.dspPut (h : s.Checks t) (k a : Nat) (data : List Byte) : s.Checks (t.dspPut k a data).1 := by
  have h1 := h.dspCheckPart k a (a % 8)
  unfold State.dspPut
  generalize (if a % 8 = 0 then (t, true) else t.dspCheck k a 1) = p at h1 ⊢
  have h2 := h1.dspCheckPart k (a + data.length - 1) ((a + data.length) % 8)
  dsimp only
  generalize (if (a + data.length) % 8 = 0 then (p.1, true) else p.1.dspCheck k (a + data.length - 1) 1) = q at h2 ⊢
  cases p.2 && q.2 with
  | false => exact h2
  | true => exact ⟨h2.hbm, h2.poison, h2.store, h2.life, h2.fab, h2.dsp⟩

/-- Where some core has an access left, nothing is asked of the memories of cores. -/
theorem State.Checks.spares_of_busy (h : s.Checks t) (hbusy : ¬∀ k, (s.coreOf k).memq = []) : s.Spares t :=
  ⟨h.hbm, h.poison, h.store, h.life, by rw [h.fab], by rw [h.fab], fun hq => absurd hq hbusy⟩

/-- A cycle in which a core has no access waiting reads and writes no memory. -/
theorem State.memCycle_quiet {k : Nat} (h : (s.coreOf k).memq = []) :
    s.memCycle k = (s.setCore k { s.coreOf k with flight := (s.coreOf k).flight ++ [], memq := [] }, true) := by
  simp only [State.memCycle, h, List.filter_nil, List.foldl_nil, List.map_nil]

/-- With accesses waiting a cycle changes the core, the memories of cores, and what their check raises. -/
theorem State.memCycle_checks (s : State) (k : Nat) : ∃ u d, s.Checks u ∧ (s.memCycle k).1 = u.setCore k d := by
  unfold State.memCycle
  dsimp only
  refine ⟨_, _, ?_, rfl⟩
  refine foldl_keeps (fun a : State × Bool => s.Checks a.1) _ _ _ ?_ fun a m ha => ha.dspPut _ _ _
  exact foldl_keeps (fun a : State × Bool => s.Checks a.1) _ _ _ (.refl s) fun a m ha => ha.dspCheck _ _ _

theorem State.spares_memCycle (s : State) (k : Nat) : s.Spares (s.memCycle k).1 := by
  by_cases hq : ∀ j, (s.coreOf j).memq = []
  · rw [State.memCycle_quiet (hq k)]
    exact (State.Spares.refl s).setCore k fun _ => rfl
  · obtain ⟨u, d, hu, heq⟩ := s.memCycle_checks k
    rw [heq]
    exact (hu.spares_of_busy hq).setCore k fun h => absurd h hq

@[simp] theorem DspCore.land_memq (d : DspCore) (f : Flight) : (d.land f).memq = d.memq := by
  unfold DspCore.land
  cases f.cls <;> rfl

theorem DspCore.foldl_land_memq (l : List Flight) (d : DspCore) : (l.foldl DspCore.land d).memq = d.memq :=
  foldl_keeps (fun e : DspCore => e.memq = d.memq) _ _ _ rfl fun e f he => (e.land_memq f).trans he

theorem State.spares_retireCycle (s : State) (k : Nat) : s.Spares (s.retireCycle k).1 := by
  have hcycle := s.spares_memCycle k
  unfold State.retireCycle
  generalize s.memCycle k = p at hcycle ⊢
  dsimp only
  have hland := hcycle.setCore k (d := { ((p.1.coreOf k).flight.filter fun f => f.due == (p.1.coreOf k).cyc).foldl
    (fun l f => insertFlight f l) [] |>.foldl DspCore.land (p.1.coreOf k) with
      flight := (p.1.coreOf k).flight.filter fun f => f.due != (p.1.coreOf k).cyc, cyc := (p.1.coreOf k).cyc + 1 })
    fun hq => (DspCore.foldl_land_memq _ _).trans ((hcycle.cores hq).2 k)
  split
  · exact hland
  · exact (hland.bump _ _ _ _).setPr _ _ _ _

theorem State.spares_drainCore (s : State) (k fuel : Nat) : s.Spares (s.drainCore k fuel).1 := by
  induction fuel generalizing s with
  | zero => exact .refl s
  | succ fuel ih =>
    unfold State.drainCore
    dsimp only
    split
    · exact .refl s
    · exact (s.spares_retireCycle k).trans (ih _)

theorem State.Spares.quitCore (h : s.Spares t) (k : Nat) : s.Spares (t.quitCore k) :=
  (h.trans (t.spares_drainCore k 8)).setCore k fun _ => rfl

/-! ## The start of a warm reset -/

theorem State.spares_vacate (s : State) (i j : Nat) : s.Spares (s.vacate i j) := by
  unfold State.vacate
  split
  · exact .refl s
  · next x hx =>
    extract_lets u v
    have hu : s.Spares u := by
      unfold u
      split
      · split
        · exact .refl s
        · exact (State.Spares.refl s).bump _ _ _ _
      · exact .refl s
    clear_value u
    have hv : s.Spares v := hu.setTask _ _ _
    clear_value v
    split
    · exact hv
    · next w _ l k _ =>
      have hw : s.Spares w := ⟨hv.hbm, hv.poison, hv.store, hv.life, hv.route, hv.lost, hv.cores⟩
      clear_value w
      split
      · extract_lets c a _ b d
        have hb : s.Spares b := by
          unfold b
          split
          · exact hw.setCl _ _
          · exact (hw.setCl _ _).setCl _ _
        exact foldl_keeps s.Spares _ _ _ ((hb.setSeq _ _).dropOrg _) fun _ m h => h.dropOrg _
      · split
        · exact hw.quitCore k
        · exact hw.setSeq _ _

/-- Reading a table whose values a function has changed, where the function keeps the value of an absent key. -/
theorem Tbl.get_map_values {α : Type} {f : α → α} {d : α} (hf : f d = d) (t : Tbl α) (k : Nat) :
    Tbl.get d (t.map fun p => (p.1, f p.2)) k = f (Tbl.get d t k) := by
  induction t with
  | nil => exact hf.symm
  | cons e t ih =>
    simp only [List.map_cons, Tbl.get, ih]
    split <;> rfl

theorem DspCore.afterReset_memq (d : DspCore) : d.afterReset.memq = [] := by
  unfold DspCore.afterReset
  split <;> rfl

/-- A warm reset's start keeps the memories, the routes and the lost nodes. -/
theorem State.spares_startWarm (s : State) (cause : Nat) : s.Spares (s.startWarm cause) := by
  unfold State.startWarm
  extract_lets t u v w
  have hv : s.Spares v := by
    refine foldl_keeps s.Spares _ _ _ ?_ fun r x hr => hr.trans (r.spares_vacate x.1 x.2)
    have ht : s.Spares t := ((State.Spares.refl s).setPr _ _ _ _).setPr _ _ _ _
    exact ⟨ht.hbm, ht.poison, ht.store, ht.life, ht.route, ht.lost, ht.cores⟩
  clear_value v
  refine ⟨hv.hbm, hv.poison, hv.store, hv.life, hv.route, hv.lost, fun hq => ⟨(hv.cores hq).1, fun k => ?_⟩⟩
  exact (congrArg DspCore.memq (Tbl.get_map_values rfl v.dsp k)).trans (DspCore.afterReset_memq _)

/-- What a table's values and the value of an absent key have in common, a read has. -/
theorem Tbl.get_of_forall {α : Type} (P : α → Prop) {d : α} (hd : P d) {t : Tbl α} (h : ∀ p ∈ t, P p.2) (k : Nat) :
    P (Tbl.get d t k) := by
  induction t with
  | nil => exact hd
  | cons e t ih =>
    obtain ⟨hhead, htail⟩ := List.forall_mem_cons.1 h
    unfold Tbl.get
    split
    · exact hhead
    · exact ih htail

/-- Cores with no access left keep their memories when a warm reset starts. -/
theorem State.startWarm_dspMem (s : State) (cause : Nat) (h : ∀ p ∈ s.dsp, p.2.memq = []) :
    (s.startWarm cause).dspMem = s.dspMem :=
  ((s.spares_startWarm cause).cores (Tbl.get_of_forall (fun d : DspCore => d.memq = []) rfl h)).1

end

/-! ## A cold reset and the start of a boot (R429, R435) -/

/-- A device that a cold reset holds does not run. -/
theorem State.awake_of_cold {s : State} (h : s.rst.cold = true) : s.awake = false := by
  rw [State.awake, h, Bool.not_true, Bool.and_false, Bool.false_and]

section
variable (s : State)

/-- A cold reset writes its cause into a state that holds what it keeps. -/
theorem State.coldReset_parts (cause : Nat) : ∃ r : State, s.coldReset cause = r.setPr .pwr 0 0x074 (setFld 0 0 4 cause)
    ∧ r.rst.cold = true ∧ r.hbm = [] ∧ r.store = [] ∧ r.dspMem = [] ∧ r.poison = [] ∧ r.life.mem = s.life.mem
    ∧ r.life.pend = s.life.pend ∧ r.life.lasers = s.life.lasers ∧ r.flt.aonTrip = s.flt.aonTrip ∧ r.boot.ready = false
    ∧ r.und.st = .none ∧ r.pending = s.pending ∧ r.regs = s.regs.filter fun e => coldKeeps e.1 :=
  ⟨_, rfl, rfl, rfl, rfl, rfl, rfl, rfl, rfl, rfl, rfl, rfl, rfl, rfl, rfl⟩

/-- The registers of a state that keeps those that a cold reset keeps. -/
theorem State.rg_of_coldKeeps {r : State} (hr : r.regs = s.regs.filter fun e => coldKeeps e.1) {a : Nat}
    (ha : coldKeeps a = false) : r.rg a = regReset a := by
  rw [State.rg, hr, Tbl.get_filter_key, ha, if_neg Bool.false_ne_true]

theorem State.tryBoot_ready (hcold : s.rst.cold = true) (hn : s.rst.sysResetN = true) (hvin : s.rst.vinOk = true)
    (haon : s.rst.aonOk = true) (htrip : s.flt.thermTrip = false) : s.tryBoot = s.bootStart :=
  if_pos ⟨hcold, hn, hvin, haon, by rw [htrip, Bool.not_false]⟩

theorem State.tryBoot_held (hn : s.rst.sysResetN = false) : s.tryBoot = s :=
  if_neg fun h => Bool.eq_false_iff.1 hn h.2.1

theorem State.bootStart_awake (haon : s.rst.aonOk = true) (htrip : s.flt.thermTrip = false) : s.bootStart.awake = true := by
  simp only [State.bootStart, State.awake, State.setPr_rst, State.setPr_flt, haon, htrip, Bool.not_false, Bool.and_self]

theorem exec_sysResetAssert (hn : s.rst.sysResetN = true) : exec .sysResetAssert s = .next (s.finish
    (({ s with rst := { s.rst with sysResetN := false } } : State).coldReset (if s.flt.aonTrip = true then 2 else 1))) :=
  congrArg (fun x => Host.Outcome.next (s.finish x)) (if_neg (by rw [hn, Bool.not_true]; exact Bool.false_ne_true))

end

/-! ## Requests (R429, R430, R466) -/

section
variable {s : State}

theorem State.requestDom_absorbed {d : Nat} (hlt : d < 32) (hd : 26 ≤ d ∨ s.bigReset = true ∨ s.rst.doms.contains d = true) :
    s.requestDom d = s.refuseReset 2 d := by
  unfold State.requestDom
  rw [if_pos, Nat.mod_eq_of_lt hlt]
  rcases hd with h | h | h
  · exact .inl h
  · exact .inr (.inl h)
  · exact .inr (.inr (.inl h))

section
variable {d : Nat} (hd : d < 26) (hbig : s.bigReset = false) (hdom : s.rst.doms.contains d = false)
  (hwait : s.rst.domWait.contains d = false) (hgroup : ¬(20 ≤ d ∧ s.rst.doms.contains 5 = true))
include hd hbig hdom hwait hgroup

theorem State.requestDom_taken : s.requestDom d = if d = 4 then s.startWarm 3
    else if s.domMustWait d then
      { s.acceptReset with rst := { s.acceptReset.rst with domWait := addSorted d s.rst.domWait } }
    else s.acceptReset.startDom d := by
  refine if_neg ?_
  rintro (h | h | h | h | h)
  · exact Nat.not_le.2 hd h
  · exact Bool.eq_false_iff.1 hbig h
  · exact Bool.eq_false_iff.1 hdom h
  · exact Bool.eq_false_iff.1 hwait h
  · exact hgroup h

end

theorem State.requestUnit_taken {a off : Nat} {p : Page} (hp : pageOf a = some (p, off)) (hcls : unitClass p.kind = true)
    (hbig : s.bigReset = false) (hdom : s.rst.doms.contains (pageDomain p.kind p.inst) = false)
    (hunit : s.rst.units.contains (p.base / 256) = false) : s.requestUnit a = s.acceptReset.startUnit p := by
  simp only [State.requestUnit, hp, hcls, hbig, hdom, hunit, Bool.not_true, Bool.or_self, Bool.false_eq_true, if_false]

theorem State.requestUnit_refused {a off : Nat} {p : Page} (hp : pageOf a = some (p, off)) (hcls : unitClass p.kind = false) :
    s.requestUnit a = s.refuseReset 3 (pageDomain p.kind p.inst) := by
  simp only [State.requestUnit, hp, hcls, Bool.not_false, Bool.true_or, if_true]

theorem State.softReset_unit {a off : Nat} {p : Page} (hp : pageOf a = some (p, off)) (hcls : unitClass p.kind = true) :
    s.softReset a = s.requestUnit a := by
  simp only [State.softReset, hp, hcls, if_true]

theorem State.softReset_other {a off : Nat} {p : Page} (hp : pageOf a = some (p, off)) (hcls : unitClass p.kind = false) :
    s.softReset a = s := by
  simp only [State.softReset, hp, hcls, Bool.false_eq_true, if_false]

end

/-- Settles O58. A warm reset's start keeps what stopping work keeps; a cold reset is a fresh state but for what it names;
requests and completions go by their guards. -/
theorem resets : Obligations.Resets := by
  refine ⟨fun s t cause ht => ?_, fun s => ⟨fun hn t ht => ⟨fun htrip => ?_, fun htrip => ?_⟩,
    fun hcold hvin haon htrip t ht => ?_, fun t ht => ⟨fun hn => ?_, fun hn => ?_⟩,
    fun t ht => ⟨fun hcold hn haon htrip => ?_, fun hn => ?_⟩, fun t ht => ?_, rfl⟩, fun s t cause ht => ?_, fun s h =>
    ⟨fun hbig => ⟨?_, ?_, fun d hlt hdom hwait hgroup => ?_, fun page addr p off hp ha hcls hdom hunit => ?_⟩,
    fun hbig => ⟨?_, ?_, fun d => ?_⟩, fun d hd => ?_, fun page p off hp hcls => ?_, fun addr p off hp hcls hset => ?_,
    fun hwarm t u ht hu => ?_, fun d hdom ds t u v hds ht hu hv => ?_, fun hwarm hset => ?_, fun d hdom hset => ?_,
    fun page t hunit ht => ?_⟩⟩
  -- a cold reset
  · obtain ⟨r, hr, hcold, hhbm, hstore, hdsp, hpoison, hmem, hpend, hlasers, htrip, hready, hund, hq, hregs⟩ :=
      s.coldReset_parts cause
    rw [ht, hr]
    refine ⟨hcold, State.awake_of_cold hcold, hhbm, hstore, hdsp, hpoison, hmem, hpend, hlasers, htrip, hready, hund, hq,
      fun a hkeep hne => ?_⟩
    exact (r.setRg_rg_other _ hne).trans (s.rg_of_coldKeeps hregs hkeep)
  -- the pins and supplies
  · rw [exec_sysResetAssert s hn, htrip, ht]
    rfl
  · rw [exec_sysResetAssert s hn, htrip, ht]
    rfl
  · have hboot : ({ s with rst := { s.rst with sysResetN := true } } : State).tryBoot = t := by
      rw [ht]
      exact State.tryBoot_ready _ hcold rfl hvin haon htrip
    refine ⟨congrArg (fun x => Host.Outcome.next (s.finish x)) hboot, ?_⟩
    rw [ht]
    exact ⟨rfl, rfl, rfl, State.bootStart_awake _ haon htrip⟩
  · rw [ht]
    exact congrArg (fun x => Host.Outcome.next (s.finish x)) (if_pos hn)
  · rw [ht]
    exact congrArg (fun x => Host.Outcome.next (s.finish x)) (if_neg (Bool.eq_false_iff.1 hn))
  · rw [ht]
    exact congrArg (fun x => Host.Outcome.next (s.finish x)) (State.tryBoot_ready _ hcold hn rfl haon htrip)
  · rw [ht]
    exact congrArg (fun x => Host.Outcome.next (s.finish x)) (State.tryBoot_held _ hn)
  · rw [ht]
    rfl
  -- a warm reset
  · have hkeep := s.spares_startWarm cause
    rw [ht]
    exact ⟨rfl, rfl, rfl, hkeep.hbm, hkeep.poison, hkeep.store, s.startWarm_dspMem cause, hkeep.life, hkeep.route, hkeep.lost⟩
  -- requests
  · exact exec_guard_neg h rfl (Bool.eq_false_iff.1 hbig)
  · exact exec_guard_neg h rfl (Bool.eq_false_iff.1 hbig)
  · have hexec : exec (.pwrRstDomain d) s = .next (s.finish (s.requestDom d.val)) := exec_awake h rfl
    rw [hexec, State.requestDom_taken hlt hbig hdom hwait hgroup]
    refine ⟨fun hd => ?_, fun hd hgo => ?_, fun hd hstay t ht => ?_⟩
    · rw [if_pos hd]
    · rw [if_neg hd, hgo, if_neg Bool.false_ne_true]
    · rw [if_neg hd, hstay, if_pos rfl, ht]
  · have hunitReset := State.requestUnit_taken hp hcls hbig hdom hunit
    have hexec : exec (.pwrRstUnit page) s = .next (s.finish (s.requestUnit (page.toNat * 4096))) := exec_awake h rfl
    have hsoft : exec (.softReset addr) s = .next (s.finish (s.softReset addr.toNat)) := exec_awake h rfl
    rw [hexec, hsoft, ha, State.softReset_unit hp hcls, hunitReset]
    exact ⟨rfl, rfl⟩
  · exact exec_guard_pos h rfl hbig
  · exact exec_guard_pos h rfl hbig
  · have hexec : exec (.pwrRstDomain d) s = .next (s.finish (s.requestDom d.val)) := exec_awake h rfl
    rw [hexec, State.requestDom_absorbed d.isLt (.inr (.inl hbig))]
  · have hexec : exec (.pwrRstDomain d) s = .next (s.finish (s.requestDom d.val)) := exec_awake h rfl
    rw [hexec, State.requestDom_absorbed d.isLt (hd.imp_right .inr)]
  · have hexec : exec (.pwrRstUnit page) s = .next (s.finish (s.requestUnit (page.toNat * 4096))) := exec_awake h rfl
    rw [hexec, State.requestUnit_refused hp hcls]
  · have hsoft : exec (.softReset addr) s = .next (s.finish (s.softReset addr.toNat)) := exec_awake h rfl
    rw [hsoft, State.softReset_other hp hcls, finish_self s hset]
  -- completions
  · rw [hu, ht]
    exact exec_guard_neg h rfl (by rw [hwarm, Bool.not_true]; exact Bool.false_ne_true)
  · rw [hv, hu, ht, hds]
    exact exec_guard_neg h rfl (by rw [hdom, Bool.not_true]; exact Bool.false_ne_true)
  · exact (exec_guard_pos h rfl (by rw [hwarm, Bool.not_false])).trans (congrArg Host.Outcome.next (finish_self s hset))
  · exact (exec_guard_pos h rfl (by rw [hdom, Bool.not_false])).trans (congrArg Host.Outcome.next (finish_self s hset))
  · rw [ht]
    exact exec_guard_neg h rfl (by rw [hunit, Bool.not_true]; exact Bool.false_ne_true)

end Sys2Proof.Machine
end
